-- ==== Sys2Proof/Word.lean ====
section
/-!
DEFINITION. The plain word types and the two shapes of table that the whole model uses (R4, R5).
-/
namespace Sys2Proof

/-- One byte. -/
abbrev Byte := BitVec 8

/-- One 64-bit payload word of a command packet (R409). -/
abbrev W64 := BitVec 64

/-- A finite table: each key at most once, in the order the keys were first entered. -/
abbrev KMap (κ α : Type) := List (κ × α)

/-- An addressed memory: bytes by address, addresses strictly rising (`Mem.wf`). -/
abbrev Mem := List (Nat × BitVec 8)

end Sys2Proof
end

