-- ==== Sys2Proof/Syntax.lean ====
section
/-!
DEFINITION. The commands of the block: one constructor of `Instr` per row of spec/opcode_table.json, and the plain
operand records they carry. A row that is a host command carries the whole packet (R404 to R409); a row that is an
event carries the unit it happens at and what the outside world decides of it.
-/
namespace Sys2Proof

/-- The five units of a cell (R82). -/
inductive CellUnit where
  | f | b | v | sin | sout
  deriving DecidableEq, Repr

/-- A unit that executes actions, by physical number (R82): a cell unit of cell C, stream engine `eng` of die D, the
update unit of a port die, the reduction unit or the dispatch engine of a link die. -/
inductive UnitId where
  | cell (c : Nat) (k : CellUnit)
  | se (die eng : Nat)
  | uu (die : Nat)
  | ru (die : Nat)
  | de (die : Nat)
  deriving DecidableEq, Repr

/-- A unit of service: what fences, disables, self-tests and failure counts name (R17, R26, R478). `sub` is a
sub-unit window: physical die, number of its kind (`subExists`) and index on the die. -/
inductive SUnit where
  | cell (n : Nat)
  | die (n : Nat)
  | region (n : Nat)
  | link (n : Nat)
  | stack (n : Nat)
  | sub (die kind idx : Nat)
  | chip
  deriving DecidableEq, Repr

/-- A detection that the hardware makes while a command runs (R456): the block where it is made (none for the acting unit's own),
the detector, whether the detector repairs it, and the position and syndrome that the first-error record keeps (R461). `wrong` is the
68-byte word, data and metadata, that an HBM decoder takes for the true one where it miscorrects (R247). -/
structure Upset where
  blk : Option SUnit
  det : Nat
  corrected : Bool
  wher : Nat
  synd : Nat
  wrong : Option (List Byte)
  deriving DecidableEq, Repr

/-- A command packet as the device holds it: the header fields of R404, the payload words of R409, and the aperture
slot it was taken from (0 for a packet fetched through a chain). -/
structure Packet where
  opcode : BitVec 16
  flags : BitVec 16
  ctx : BitVec 8
  vec : BitVec 8
  /-- the bits of +0x06, +0x0E and +0x20 to +0x3F, reserved: true when any of them is set -/
  rsv : Bool
  seq : BitVec 32
  plen : BitVec 16
  reply : BitVec 64
  nxt : BitVec 64
  payload : List W64
  slot : Nat
  fetched : Bool
  deriving DecidableEq, Repr

/-- What a link's training exchange reports of the far end (R335): whether it is a T1536, how many lanes locked, its
mapped bit, device, link and stepping, and the measured round trip in ns. -/
structure FarEnd where
  isT1536 : Bool
  lanes : Nat
  mapped : Bool
  dev : Nat
  link : Nat
  stepping : Nat
  rtt : Nat
  deriving DecidableEq, Repr

/-- A retrain that completes (R335, R344): the link, and what the exchange reports of the far end. -/
structure Retrained where
  link : Nat
  far : FarEnd
  deriving DecidableEq, Repr

/-- A verdict contribution (R275): NORM_SQ is a binary64 bit pattern. -/
structure VContrib where
  step : Nat
  nonfinite : Bool
  absurd : Bool
  abandon : Bool
  cause : Nat
  origin : Nat
  normSq : BitVec 64
  late : Nat
  empty : Nat
  devices : Nat
  deriving DecidableEq, Repr

/-- A verdict record (R285), less V_SEQ, which the receiving context adds. -/
structure VRecord where
  step : Nat
  decision : Nat
  flags : BitVec 8
  cause : Nat
  origin : BitVec 16
  root : Nat
  normSq : BitVec 64
  devices : Nat
  empty : Nat
  late : Nat
  deriving DecidableEq, Repr

/-- A flit as a link receives it (R337): the header fields the receiver judges, whether its CRC (FL_CRC) and its tag
verify, and its payload. -/
structure Flit where
  crcOk : Bool
  tagOk : Bool
  lseq : Nat
  mtag : Nat
  job : Nat
  kind : Nat
  cls : Nat
  enc : Bool
  idx : Nat
  last : Bool
  src : Nat
  dst : Nat
  payload : List Byte
  deriving DecidableEq, Repr

/-- One round of sensor readings (R375): temperatures in units of 0.5 °C, currents in units of 0.1 A, power in units
of 0.1 W. `dieT` is per die D its 8 sensors, `stackT` per stack M, `current` per region. -/
structure Readings where
  dieT : List (List Int)
  stackT : List Int
  current : List Nat
  power : Nat
  deriving DecidableEq, Repr

/-- The commands of spec/opcode_table.json, one constructor per row, in the table's order. -/
inductive Instr where
  /-- AUX_RAIL_UP (R483): The 3.3 V auxiliary rail comes into range and the management logic, sideband and timers start. -/
  | auxRailUp
  /-- AUX_RAIL_LOSS (R482): Loss of the auxiliary rail is a cold reset whatever the main input does. -/
  | auxRailLoss
  /-- MAIN_INPUT_ACCEPT (R483): After the auxiliary rail has held for 10 ms and the main input is above 46.0 V, the main input is accepted and the core rails are enabled in order. -/
  | mainInputAccept
  /-- CORE_POWER_GOOD (R474): Every core rail reaches power-good and stage 0 of the start-up sequence ends. -/
  | corePowerGood
  /-- MAIN_INPUT_UVLO (R481): The main input falls below 44.0 V; the core rails turn off within 100 µs and the device enters the stopped state. -/
  | mainInputUvlo
  /-- MAIN_INPUT_RECOVER (R481): The main input rises above 46.0 V with the auxiliary rail in range, and start-up runs from stage 0 as a warm reset. -/
  | mainInputRecover
  /-- PERST_DEASSERT (R483): The host deasserts PERST# and stage 1 begins once the core rails are good. -/
  | perstDeassert
  /-- PCIE_CONVENTIONAL_RESET (R398): A PCIe conventional reset is a warm reset: contexts stop and start-up runs from stage 1. -/
  | pcieConventionalReset
  /-- HOT_RESET (R398): A PCIe hot reset is a warm reset that destroys every context and reruns start-up. -/
  | hotReset
  /-- FUNCTION_LEVEL_RESET (R398): A Function Level Reset is a warm reset; configuration space and the PCIe link survive it. -/
  | functionLevelReset
  /-- STAGE_BOOT_ROM_DONE (R474): The boot ROM is measured, the control processor starts and the PCIe port trains. -/
  | stageBootRomDone
  /-- STAGE_FW_VERIFY_DONE (R450): The boot ROM verifies the active image, or boots the fallback after three failed starts, and proceeds to BIST. -/
  | stageFwVerifyDone
  /-- FW_STAGED_COPY_DONE (R450): The copy of a staged image into the inactive slot completes, and that slot is marked active. -/
  | fwStagedCopyDone
  /-- STAGE_BIST_DONE (R474): Chip-scope start-up BIST completes after the sensors read below 85 °C following a trip. -/
  | stageBistDone (failed : List SUnit)
  /-- STAGE_HBM_TRAINING_DONE (R474): Each stack's PHY is trained and its arrays tested; a stack that fails is fenced. -/
  | stageHbmTrainingDone (failed : List Nat)
  /-- STAGE_LINK_TRAINING_DONE (R474): Each enabled link is up or has failed its first training attempt. -/
  | stageLinkTrainingDone (failed : List Nat)
  /-- STAGE_LOCAL_MAPPING_DONE (R474): Fences from stages 3 to 5 and from failure counts are applied, and the device reaches ready or stops. -/
  | stageLocalMappingDone
  /-- APERTURE_WRITE (R406): A host write lands in a BAR4 slot; a write that covers the seal word makes a packet, and a write into a busy slot is dropped. -/
  | apertureWrite (off : Nat) (data : List Byte)
  /-- SLOT_COPY_DONE (R402): The device finishes copying a packet out of its slot and the slot becomes free. -/
  | slotCopyDone (slot : Nat)
  /-- CHAIN_FETCH_DONE (R408): The DMA read of a chained packet at H_NEXT completes or fails; a passing packet is taken, and otherwise the chain ends. -/
  | chainFetchDone (n : Nat) (data : Option (List Byte))
  /-- DEV_INFO (R419): Writes the DEV_INFO record to a host address. -/
  | devInfo (p : Packet)
  /-- DEV_STATUS (R419): Writes the DEV_STATUS record to a host address. -/
  | devStatus (p : Packet)
  /-- DEV_RESET (R419): Replies, then arranges a warm reset within 1 ms; it is refused while a job is bound unless forced. -/
  | devReset (p : Packet)
  /-- DEV_RESET_EXEC (R398): The warm reset requested by DEV_RESET is performed after its reply. -/
  | devResetExec
  /-- DEV_EVENTS (R419): Returns DEV_EVENT in R_VAL0 and clears it as a read does. -/
  | devEvents (p : Packet)
  /-- CTX_CREATE (R421): Creates a context; the confidential flag requires a Secure IDE stream. -/
  | ctxCreate (p : Packet)
  /-- CTX_DESTROY (R423): Stops the context at a settle point, aborts its waiting commands and frees all its resources and keys. -/
  | ctxDestroy (p : Packet)
  /-- CTX_LIST (R421): Writes the DEV_STATUS record to a host address. -/
  | ctxList (p : Packet)
  /-- WINDOW_SET (R400): Names the window context and the local base of BAR2. -/
  | windowSet (p : Packet)
  /-- FLOOR_SET (R230): Sets the context's floor and pin quota per stack, evicting non-floor objects as needed. -/
  | floorSet (p : Packet)
  /-- OBJ_ALLOC (R227): Creates a pool or window object at a base and length that software chooses, and returns its handle. -/
  | objAlloc (p : Packet)
  /-- OBJ_FREE (R228): Frees an object at once, or at the context's next settle point while a run is started. -/
  | objFree (p : Packet)
  /-- OBJ_HINT (R234): Changes an object's hint; a pin hint promotes the object and replies when it is pinned. -/
  | objHint (p : Packet)
  /-- OBJ_PROMOTE (R241): Promotes a range of an object's plots, cursor-named plots first, and replies when the range is resident. -/
  | objPromote (p : Packet)
  /-- OBJ_EVICT (R242): Evicts every resident plot of an object and replies when the object is host. -/
  | objEvict (p : Packet)
  /-- OBJ_QUERY (R229): Writes the object's 64-byte record to the host. -/
  | objQuery (p : Packet)
  /-- HOST_MAP (R243): Maps host-tier frames to a context as window or spill frames. -/
  | hostMap (p : Packet)
  /-- HOST_UNMAP (R244): Unmaps a context's frames, unless any of them is in use. -/
  | hostUnmap (p : Packet)
  /-- POOL_STATUS (R254): Writes the pool status record to the host. -/
  | poolStatus (p : Packet)
  /-- POOL_MARKS (R236): Sets the low and high eviction marks per stack. -/
  | poolMarks (p : Packet)
  /-- PLOT_EVICT_DONE (R245): A leaving plot's copy to its spill frame is complete and confirmed by read-back, and the plot becomes host. -/
  | plotEvictDone (ctx plot : Nat)
  /-- PLOT_PROMOTE_DONE (R240): An arriving plot's copy completes and it becomes resident; the object's state is updated when the move ends. -/
  | plotPromoteDone (ctx plot : Nat) (authOk : Bool)
  /-- STASH_DEMOTE_DONE (R267): A spill-object plot demoted to a spill frame completes its move, and its physical plot serves the waiting promotion. -/
  | stashDemoteDone (ctx plot : Nat)
  /-- SCRUB_TICK (R249): Every 4 ms the HBM controller begins scrubbing its next physical plot, correcting words or poisoning them. -/
  | scrubTick (stack : Nat) (corrected : List (Nat × Option (List Byte))) (bad : List Nat)
  /-- PLOT_RETIRE_COPY_DONE (R466): The copy of a plot in use to a free plot completes; the plot map is repointed and the plot is retired. -/
  | plotRetireCopyDone (stack plot : Nat)
  /-- KV_TABLE (R221): Creates the context's page descriptor table with every entry unused. -/
  | kvTable (p : Packet)
  /-- PAGE_ADD (R221): Gives unused pages addresses in an object and places them on their class's free list. -/
  | pageAdd (p : Packet)
  /-- PAGE_MAP (R221): Takes a free page off its list and makes it live with P_REFS 1. -/
  | pageMap (p : Packet)
  /-- PAGE_REF (R221): Adds one reference to a live, shared or fallow page. -/
  | pageRef (p : Packet)
  /-- PAGE_UNREF (R217): Removes one reference from a page, then reclaims the page if it has no references and no pins. -/
  | pageUnref (p : Packet)
  /-- PAGE_DROP (R218): Makes a page fallow with a recipe and gives its memory to an unused page. -/
  | pageDrop (p : Packet)
  /-- PAGE_REVIVE (R219): Gives a fallow page memory, copies its contents from a source address, and makes it live or shared. -/
  | pageRevive (p : Packet)
  /-- PAGE_READ (R221): Writes page descriptors to the host. -/
  | pageRead (p : Packet)
  /-- PAGE_COPY_DONE (R216): A copy-on-write copy ends; the target page becomes live, the page-table entry is rewritten, and the waiting tile is written. -/
  | pageCopyDone (ctx page : Nat)
  /-- PROG_LOAD (R76): Validates a program image held in an object and copies it into a slot. -/
  | progLoad (p : Packet)
  /-- PROG_RUN (R76): Starts a slot at ENTRY and replies when the run completes or stops. -/
  | progRun (p : Packet)
  /-- PROG_STOP (R76): Stops the run at its next settle point, then replies. -/
  | progStop (p : Packet)
  /-- PROG_UNLOAD (R76): Frees a program slot that is not running. -/
  | progUnload (p : Packet)
  /-- PROG_FLAG (R78): Writes one program flag atomically. -/
  | progFlag (p : Packet)
  /-- RECORD_ISSUE (R53): The sequencer issues the next action record once its header waits are satisfied, handling loop opening and closing. -/
  | recordIssue
  /-- FORK_ISSUE (R63): The sequencer issues a fork record, reads its predicate, and continues at the chosen variant. -/
  | forkIssue
  /-- VARIANT_END (R65): A variant-end record issues and the sequencer continues at JOIN. -/
  | variantEnd
  /-- SETTLE_RECORD (R67): The sequencer reaches a settle record and stops issue until everything drains. -/
  | settleRecord
  /-- SETTLE_POINT (R290): When the drains are complete, the device latches the census, clears tokens, applies fences and changes, relinks, advances the step and may switch context. -/
  | settlePoint
  /-- END_RECORD (R68): The end record completes the run. -/
  | endRecord
  /-- ACTION_BEGIN (R39): A unit begins its next action once the previous action has completed and every wait is satisfied, consuming its tokens. -/
  | actionBegin (u : UnitId)
  /-- ACTION_COMPLETE (R83): An action reaches its completion point and its SIG joins the record's signal event. -/
  | actionComplete (u : UnitId)
  /-- NOP (R83): The unit waits and signals only. -/
  | nop (u : UnitId)
  /-- SETAP (R86): Writes one address pointer of the executing unit. -/
  | setap (u : UnitId)
  /-- F_PRODUCT (R93): The F engine forms C from A × B in tile passes into its destination. -/
  | fProduct (cell : Nat) (ups : List Upset)
  /-- B_PRODUCT (R150): The B engine forms paired output tiles, with transposed, wide, strict-mode or masked operands. -/
  | bProduct (cell : Nat) (ups : List Upset)
  /-- CONVERT (R120): The vector unit converts X to FMTZ, using the grain scales at APY. -/
  | convert (cell : Nat) (ups : List Upset)
  /-- SURVEY (R118): The vector unit writes one grain scale per grain of X. -/
  | survey (cell : Nat) (ups : List Upset)
  /-- UNARY (R160): The vector unit applies a unary function element-wise. -/
  | unary (cell : Nat) (ups : List Upset)
  /-- BINARY (R161): The vector unit applies a binary operation element-wise. -/
  | binary (cell : Nat) (ups : List Upset)
  /-- ROWREDUCE (R161): The vector unit writes one binary32 sum, maximum or sum of squares per row. -/
  | rowreduce (cell : Nat) (ups : List Upset)
  /-- SOFTMAX_ONLINE (R202): Updates the running maximum and log-sum-exp over a score block. -/
  | softmaxOnline (cell : Nat) (ups : List Upset)
  /-- SOFTMAX_FINISH (R203): Writes normalised probabilities and counts empty rows. -/
  | softmaxFinish (cell : Nat) (ups : List Upset)
  /-- SOFTMAX_BACKWARD (R204): Turns dP into dS in place. -/
  | softmaxBackward (cell : Nat) (ups : List Upset)
  /-- FLAGW (R100): Writes a program flag over the silt lane and completes when the sequencer has applied it. -/
  | flagw (cell : Nat)
  /-- RECEIVE (R102): The stream-in port takes GRAN granules from its source into cell SRAM, opening a fill window. -/
  | receive (cell : Nat)
  /-- SEND (R102): The stream-out port sends granules to an engine or its ring successor, opening a drain window. -/
  | send (cell : Nat)
  /-- SILT (R191): The stream-out port sends a silt packet of up to 256 bytes through a route entry. -/
  | silt (cell : Nat)
  /-- GRANULE_LAND (R102): A granule reaches a landing or intake buffer, advancing the waiting sender and the handshake windows. -/
  | granuleLand (cell : Nat)
  /-- SILT_PACKET_LAND (R191): A silt packet lands at a cell granule, HBM, the host or the program flags, freeing a sender slot. -/
  | siltPacketLand (n : Nat)
  /-- ARM (R105): The stream engine checks the descriptor and starts one pass of it. -/
  | arm (die eng : Nat)
  /-- REARM (R176): Replaces a persistent descriptor's base and starts a pass. -/
  | rearm (die eng : Nat)
  /-- DISARM (R176): Releases a persistent armed copy after its current pass. -/
  | disarm (die eng : Nat)
  /-- TILE_DELIVER (R171): The stream engine moves one tile of a pass after its arbitration grant, checking pages and faults. -/
  | tileDeliver (die eng : Nat) (ups : List Upset)
  /-- STREAM_RETRY (R183): Once its plots are resident or its page is live, a parked pass retries its faulting tile and continues. -/
  | streamRetry (die eng : Nat)
  /-- PARK_LIMIT_EXPIRE (R184): A pass parked beyond the park limit takes the unresolved-fault path. -/
  | parkLimitExpire (die eng : Nat)
  /-- STALL_LIMIT_EXPIRE (R178): A handshake or landing wait with no progress for the stall limit raises an action fault. -/
  | stallLimitExpire (u : UnitId)
  /-- DESC_LOAD (R195): Checks stream descriptors and writes them to the table. -/
  | descLoad (p : Packet)
  /-- SILT_ROUTES (R195): Checks silt route entries and writes them to the table. -/
  | siltRoutes (p : Packet)
  /-- FAULT_RING (R195): Sets the host ring for fault records. -/
  | faultRing (p : Packet)
  /-- FAULT_ABORT (R184): Sends every parked pass of the context down the unresolved-fault path. -/
  | faultAbort (p : Packet)
  /-- STREAM_LIMITS (R195): Sets the stall and park limits. -/
  | streamLimits (p : Packet)
  /-- SWEEP (R314): After the verdict, the update unit sweeps its plan's shards, warm shards first and then cold ones. -/
  | sweep (die : Nat)
  /-- SHARD_SWEEP_DONE (R311): A shard finishes its update; its published copy is written and its version changes. -/
  | shardSweepDone (die : Nat)
  /-- EXPORT_RING_ROOM (R319): Room appears in an export ring and a waiting record is written. -/
  | exportRingRoom (ctx entry consumer : Nat)
  /-- EXPORT_RECORD_DROP (R326): A record that has waited for ring room beyond the park limit is dropped and counted. -/
  | exportRecordDrop (ctx entry : Nat)
  /-- PUSH (R317): Under an apply verdict, sends each shard's published range to its push holders. -/
  | push (die : Nat)
  /-- REDUCE (R107): Runs the node's part of every tree in the tree set, until each tree is finished. -/
  | reduce (die : Nat)
  /-- VERDICT (R275): Sends the device's verdict contribution and completes when the verdict record arrives. -/
  | verdict (die : Nat)
  /-- DISPATCH (R364): Runs the count, grant and row phases of expert dispatch. -/
  | dispatch (die : Nat)
  /-- COMBINE (R366): Returns expert outputs along the inverse of the dispatch. -/
  | combine (die : Nat)
  /-- CONTRIB_ARRIVE (R272): A gradient tile contribution arrives at a tree node and is summed or discarded. -/
  | contribArrive (src job step sid tile count pslot : Nat) (sum : List (BitVec 16))
  /-- NULL_CONTRIB_ARRIVE (R270): A null contribution arrives, standing for every tile with count 0. -/
  | nullContribArrive (src job step sid pslot : Nat)
  /-- REDUCE_DEADLINE (R272): A node's deadline is reached and its unfinished tiles finish without the missing children. -/
  | reduceDeadline (ctx tset idx : Nat)
  /-- VERD_CONTRIB_ARRIVE (R276): A verdict contribution arrives and is combined and forwarded, or decided at the root. -/
  | verdContribArrive (src job : Nat) (v : VContrib)
  /-- VERD_RECORD_ARRIVE (R284): A verdict record arrives and the device acts on it for its current step. -/
  | verdRecordArrive (src job : Nat) (v : VRecord)
  /-- BEAT_SEND (R279): Every one-eighth of the liveness timeout, a beat is sent to each verdict-tree neighbour. -/
  | beatSend (ctx : Nat)
  /-- BEAT_ARRIVE (R279): A beat from a neighbour arrives and renews its liveness. -/
  | beatArrive (src job : Nat)
  /-- LIVENESS_TIMEOUT (R279): A neighbour silent for the liveness timeout is declared lost and a loss notice is sent. -/
  | livenessTimeout (ctx dev : Nat)
  /-- LOSS_ARRIVE (R280): A loss notice arrives; the root abandons a step, or a device named in the notice stops its context. -/
  | lossArrive (src job dev : Nat)
  /-- PUSH_ARRIVE (R289): A push lands at a replica holder, which writes it at S_PUB and takes the carried version. -/
  | pushArrive (src job tag sid version off : Nat) (data : List Byte) (last : Bool)
  /-- PUSH_REQ_TIMER (R348): A holder with no push one liveness timeout after its verdict sends PUSH_REQ to the owner. -/
  | pushReqTimer (ctx entry : Nat)
  /-- PUSH_REQ_ARRIVE (R348): The owner sends the push again from its published range. -/
  | pushReqArrive (src job sid : Nat)
  /-- DISP_COUNT_ARRIVE (R364): A destination receives a source's counts and grants capacity. -/
  | dispCountArrive (src job dplan : Nat) (second : Bool) (counts : List Nat)
  /-- DISP_GRANT_ARRIVE (R364): A source receives grants and sends its token rows. -/
  | dispGrantArrive (src job dplan : Nat) (second : Bool) (grants : List (Nat × Nat))
  /-- DISP_ROW_ARRIVE (R365): A dispatched row lands at its fixed position in the slot region. -/
  | dispRowArrive (src job dplan lslot row tag off assign : Nat) (data : List Byte)
  /-- COMB_ROW_ARRIVE (R366): A combined row lands at the source's D_COMB position. -/
  | combRowArrive (src job dplan assign tag off : Nat) (data : List Byte)
  /-- READ_ARRIVE (R343): A remote READ arrives and waits to be served. -/
  | readArrive (src job tag addr len : Nat)
  /-- READ_SERVE (R343): Once reply credits are held for the whole reply, the READ is served and READ_DATA sent. -/
  | readServe (n : Nat)
  /-- READ_DATA_ARRIVE (R342): READ_DATA sinks into the reserved landing space, its status mapped to stream faults. -/
  | readDataArrive (tag status : Nat) (versions : List (Nat × Nat)) (data : List Byte)
  /-- WRITE_ARRIVE (R343): A WRITE sinks into the HBM write queues and WRITE_DONE is returned. -/
  | writeArrive (src job tag addr : Nat) (data : List Byte)
  /-- WRITE_DONE_ARRIVE (R347): A completion arrives for an outstanding request. -/
  | writeDoneArrive (tag status : Nat)
  /-- REQUEST_TIMEOUT (R347): A request with no completion is sent again with a new tag, and fails after 8 sends. -/
  | requestTimeout (tag : Nat)
  /-- MESSAGE_ASSEMBLY_TIMEOUT (R338): A message not received whole within the request timeout is discarded. -/
  | messageAssemblyTimeout (link src tag : Nat)
  /-- ACK_ARRIVE (R344): A cumulative acknowledgement frees the replay buffer. -/
  | ackArrive (link lseq : Nat)
  /-- NAK_ARRIVE (R344): The sender replays from the oldest unacknowledged flit and retrains on the third replay. -/
  | nakArrive (link : Nat)
  /-- REPLAY_TIMEOUT (R344): With no acknowledgement within 1.0 µs plus the round trip, the sender replays. -/
  | replayTimeout (link : Nat)
  /-- CREDIT_ARRIVE (R340): Returned credits let the sender send more flits of a class. -/
  | creditArrive (link cls n : Nat)
  /-- KEY_ARRIVE (R436): A KEY flit is verified and the link key derived, or the agreement fails. -/
  | keyArrive (link : Nat) (payload : List Byte)
  /-- LINK_KEY_EXHAUST (R436): After 2³² messages under one key the link retrains to agree a new key. -/
  | linkKeyExhaust (link : Nat)
  /-- LINK_TRAIN_DONE (R335): Link training completes and the ends exchange device numbers, links, stepping and round trip. -/
  | linkTrainDone (link : Nat) (far : FarEnd)
  /-- LINK_TRAIN_RETRY (R335): A link that failed to train retries every 1 s. -/
  | linkTrainRetry (link : Nat)
  /-- LINK_RETRAIN_DONE (R344): Retraining completes and replay resumes. -/
  | linkRetrainDone (r : Retrained)
  /-- LINK_RETRAIN_TIMEOUT (R345): Retraining not complete in 200 µs takes the link down and discards its unacknowledged flits. -/
  | linkRetrainTimeout (link : Nat)
  /-- ESCAPE_TIMEOUT (R351): A message waiting beyond the escape threshold moves to the escape class. -/
  | escapeTimeout (n : Nat)
  /-- ESCAPE_WAIT_TIMEOUT (R353): An escape message with no usable escape link within the request timeout is discarded. -/
  | escapeWaitTimeout (n : Nat)
  /-- LINK_PARAMS (R373): Sets the escape threshold and the request timeout. -/
  | linkParams (p : Packet)
  /-- FABRIC_MAP (R368): Installs the routing table and sets DEV_NUM. -/
  | fabricMap (p : Packet)
  /-- JOB_BIND (R367): Binds a context to a job and replies when the binding ends. -/
  | jobBind (p : Packet)
  /-- JOB_UNBIND (R373): Ends the binding, at the context's next settle point if a run is started. -/
  | jobUnbind (p : Packet)
  /-- JOB_REMAP (R368): Installs a new job record during recovery, ending recovery. -/
  | jobRemap (p : Packet)
  /-- TREE_LOAD (R370): Checks tree-set entries and writes them. -/
  | treeLoad (p : Packet)
  /-- DISPATCH_LOAD (R370): Checks dispatch plan entries and writes them. -/
  | dispatchLoad (p : Packet)
  /-- LINK_CTL_ENABLE (R373): Enables a link. -/
  | linkCtlEnable (p : Packet)
  /-- LINK_CTL_DISABLE (R373): Drains a link's flits, then stops it. -/
  | linkCtlDisable (p : Packet)
  /-- LINK_CTL_RETRAIN (R373): Retrains a link. -/
  | linkCtlRetrain (p : Packet)
  /-- STEP_PARAMS (R294): Sets the deadline, liveness timeout, stash reservation and spill object. -/
  | stepParams (p : Packet)
  /-- LAYER_LOAD (R294): Checks layer descriptors and writes them. -/
  | layerLoad (p : Packet)
  /-- SHARD_LOAD (R294): Checks shard register entries and writes them. -/
  | shardLoad (p : Packet)
  /-- RESHARD (R291): Installs a whole new shard register at the next settle point. -/
  | reshard (p : Packet)
  /-- VERDICT_RING (R294): Sets the host ring for verdict records. -/
  | verdictRing (p : Packet)
  /-- NUM_MODE (R140): Sets the numeric mode and the long-sum threshold. -/
  | numMode (p : Packet)
  /-- CENSUS_READ (R140): Writes the latest census snapshot, or the partial counts while halted. -/
  | censusRead (p : Packet)
  /-- CENSUS_RING (R140): Sets the host ring for census snapshots. -/
  | censusRing (p : Packet)
  /-- TRAP_MODE (R140): Sets the trap action to record or halt. -/
  | trapMode (p : Packet)
  /-- TRAP_RESUME (R138): Continues or abandons a halted step and takes the run command's place. -/
  | trapResume (p : Packet)
  /-- UPD_PLAN (R329): Checks update plan entries and their shard lists, then writes them. -/
  | updPlan (p : Packet)
  /-- UPD_SCHED (R303): Checks a schedule's 16 segments and writes them. -/
  | updSched (p : Packet)
  /-- LOSS_SCALE (R301): Sets the loss-scale state, LS_ADDR and the flag. -/
  | lossScale (p : Packet)
  /-- UPD_READ (R330): Writes the update status record to the host. -/
  | updRead (p : Packet)
  /-- EXPORT_SET (R318): Sets an export entry and zeroes its offsets, forcing bedrock. -/
  | exportSet (p : Packet)
  /-- EXPORT_BEDROCK (R321): Forces bedrock at each shard's next emission. -/
  | exportBedrock (p : Packet)
  /-- GOV_EVALUATE (R381): Every 1 ms the governor adjusts the operating point, hold and calm, and publishes the budget class. -/
  | govEvaluate
  /-- SENSOR_SAMPLE (R375): The hubs read the die, stack, current and power sensors at their periods. -/
  | sensorSample (r : Readings)
  /-- POWER_OVER_LIMIT (R383): Input power above 3,000 W over 100 µs lowers the point by one at once, or raises hold at OP0. -/
  | powerOverLimit
  /-- OP_RAMP_DONE (R378): A voltage ramp to a new operating point completes. -/
  | opRampDone
  /-- THERMAL_TRIP (R385): A sensor at 105 °C or more removes core power without firmware and stops the device. -/
  | thermalTrip (stack : Bool) (unit temp : Nat)
  /-- GOV_BUDGET (R379): Sets the module cap, rack limit and share. -/
  | govBudget (p : Packet)
  /-- GOV_LIMITS (R380): Sets OP_MIN and OP_MAX. -/
  | govLimits (p : Packet)
  /-- GOV_FIX (R384): Fixes or releases the operating point. -/
  | govFix (p : Packet)
  /-- ID_CERTS (R432): Writes the certificate chain to the host. -/
  | idCerts (p : Packet)
  /-- ATTEST_DEV (R435): Writes a signed device attestation report. -/
  | attestDev (p : Packet)
  /-- ATTEST_CTX (R435): Writes a signed report with the context's fields. -/
  | attestCtx (p : Packet)
  /-- PEER_KEYS (R437): Replaces or appends to the peer key table. -/
  | peerKeys (p : Packet)
  /-- KEY_IMPORT (R438): Unwraps and installs a confidential context's data key. -/
  | keyImport (p : Packet)
  /-- KEY_ERASE (R438): Erases the context's data key. -/
  | keyErase (p : Packet)
  /-- SEAL_AREA (R440): Maps frames to a seal area in host memory. -/
  | sealArea (p : Packet)
  /-- OWNER_CLAIM (R444): Installs an owner public key when none is present. -/
  | ownerClaim (p : Packet)
  /-- OWNER_CMD_LOCK (R445): A signed owner action 0 sets the owner lock and discards any update in progress. -/
  | ownerCmdLock (p : Packet)
  /-- OWNER_CMD_UNLOCK (R445): A signed owner action 1 clears the owner lock. -/
  | ownerCmdUnlock (p : Packet)
  /-- OWNER_CMD_REMOVE (R445): A signed owner action 2 removes the owner key and clears the lock. -/
  | ownerCmdRemove (p : Packet)
  /-- OWNER_CMD_REPLACE (R445): A signed owner action 3 replaces the owner key and keeps the counter. -/
  | ownerCmdReplace (p : Packet)
  /-- FW_BEGIN (R448): Checks an image header, erases the staging area and writes the header. -/
  | fwBegin (p : Packet)
  /-- FW_BLOCK (R449): Programs a block of the image body into staging. -/
  | fwBlock (p : Packet)
  /-- FW_COMMIT (R449): Checks the body hash and stages the image. -/
  | fwCommit (p : Packet)
  /-- FW_ABORT (R449): Returns the update state to idle. -/
  | fwAbort (p : Packet)
  /-- SPDM_GET_CERTIFICATE (R433): The SPDM responder returns the certificate chain on slot 0. -/
  | spdmGetCertificate (slot : Nat)
  /-- SPDM_GET_MEASUREMENTS (R433): The SPDM responder returns the four device measurements, signed with the transport key. -/
  | spdmGetMeasurements
  /-- IDE_KM (R430): The host sets IDE keys through IDE_KM over an SPDM session. -/
  | ideKm (stream : Nat) (key : List Byte) (covers secure : Bool)
  /-- IDE_STREAM_INSECURE (R422): An IDE stream leaving the Secure state stops every confidential context at once. -/
  | ideStreamInsecure (stream : Nat)
  /-- BIST_RUN (R470): Runs BIST on a quiet device at the chosen scope. -/
  | bistRun (p : Packet)
  /-- BIST_DONE (R472): BIST finishes; signatures are compared and failing units are fenced. -/
  | bistDone (failed : List SUnit)
  /-- SELFTEST_RUN (R478): Owes a unit a targeted self-test and replies after it has run. -/
  | selftestRun (p : Packet)
  /-- SELFTEST_DONE (R466): A targeted self-test passes or fails, classifying the unit's errors as transient or lasting. -/
  | selftestDone (u : SUnit) (pass : Bool)
  /-- CORRECTION_LIMIT (R458): The 1,024th correction of a detector within the period counts as an error. -/
  | correctionLimit (u : SUnit) (det : Nat)
  /-- UNIT_DISABLE (R469): Removes a unit from service, at once with the immediate option. -/
  | unitDisable (p : Packet)
  /-- UNIT_ENABLE (R469): Self-tests a disabled unit and returns it to service on a pass. -/
  | unitEnable (p : Packet)
  /-- FAIL_READ (R478): Writes the failure counts to the host. -/
  | failRead (p : Packet)
  /-- FAIL_FORGET (R478): Clears failure counts, effective at the next start. -/
  | failForget (p : Packet)
  /-- FAILCOUNT_FLASH_WRITE (R468): Once the hold-up charge reaches 80 %, a pending failure-count write reaches flash. -/
  | failcountFlashWrite
  /-- INJ_ARM (R463): A write to an injection control arms the injection of COUNT detections. -/
  | injArm (off size value : Nat)
  /-- ERR_FLAGS_CLEAR (R460): Writing 1 clears ERR_FLAGS bits, except a bit set in the same access. -/
  | errFlagsClear (off value during : Nat)
  /-- ERR_FIRST_CLEAR (R461): Writing zero to the first 8 bytes clears the first-error record. -/
  | errFirstClear (off size value : Nat)
  /-- ERR_ACTION_CLEAR (R462): Writing zero to the first 8 bytes clears the action check record. -/
  | errActionClear (off size value : Nat)
  /-- BAR0_FAULT_CLEAR (R30): Writing 1 clears BAR0_FAULT bits. -/
  | bar0FaultClear (value during : Nat)
  /-- BAR0_RESERVED_ACCESS (R31): An access to reserved space or of unsupported size reads zero, drops a write, and records the access in BAR0_FAULT. -/
  | bar0ReservedAccess (off size : Nat) (write : Bool)
  /-- RC_REGISTER_READ (R7): A read of an RC register returns the field and clears it, keeping events that occur during the read. -/
  | rcRegisterRead (off size during : Nat)
  /-- LOW_HALF_READ (R33): A 4-byte read of the low half of a 64-bit register latches the high half. -/
  | lowHalfRead (off : Nat)
  /-- HIGH_HALF_READ (R33): A read of the high half returns the latched value and empties the latch. -/
  | highHalfRead (off : Nat)
  /-- REGISTER_WRITE (R7): A BAR0 write to a register with no row of its own acts by access code, or is dropped under R32. -/
  | registerWrite (off size value : Nat)
  /-- BAR2_READ (R401): A BAR2 read returns resident data, poisoned data with EP set, or zero with a fault record. -/
  | bar2Read (off len : Nat)
  /-- BAR2_WRITE (R401): A BAR2 write merges into a resident plot, or is dropped and recorded. -/
  | bar2Write (off : Nat) (data : List Byte)
  /-- SB_STATE (R429): Sideband read of the device state word. -/
  | sbState
  /-- SB_TDIE (R429): Sideband read of the hottest die sensor. -/
  | sbTdie
  /-- SB_THBM (R429): Sideband read of the hottest stack sensor. -/
  | sbThbm
  /-- SB_POWER (R429): Sideband read of the input power. -/
  | sbPower
  /-- SB_CAP (R429): Sideband read of the effective cap. -/
  | sbCap
  /-- SB_OP (R429): Sideband read of the operating point and budget class. -/
  | sbOp
  /-- SB_INVENTORY (R429): Sideband block read of part number, stepping and serial number. -/
  | sbInventory
  /-- SB_FIRMWARE (R429): Sideband block read of firmware and boot ROM versions. -/
  | sbFirmware
  /-- SB_WRITE_NACK (R428): A sideband write command, or an unknown command code, is NACKed. -/
  | sbWriteNack (code : Nat) (write : Bool)
  /-- FLIT_RECEIVE (R344): A flit arrives on a link and is checked for CRC, tag and FL_LSEQ order. The receiver then acknowledges it or sends NAK, discards it if its kind is reserved, its job unbound or its route invalid, or routes it on at a transit hop. -/
  | flitReceive (link : Nat) (f : Flit) (ups : List Upset)
  /-- INITIAL_TRAINING_TIMEOUT (R335): A link whose initial training has not completed within 100 ms stays down, and from then on it retries training every 1 s. -/
  | initialTrainingTimeout (link : Nat)
  deriving DecidableEq, Repr

end Sys2Proof
end

