-- ==== Sys2Proof/Decode.lean ====
section
/-!
DEFINITION. The table's word form. spec/opcode_table.json gives no row any bits: a command reaches the block as a host
packet (R404), a register access or an event, never as a bit pattern of the table. So no word spells a command.
-/
namespace Sys2Proof

/-- The command that a word of `nbits` bits spells by the table: none, since no row of the table has bits. -/
def decodeTableWord (_nbits _w : Nat) : Option Instr := none

end Sys2Proof
end

