-- ==== Sys2Proof/Config.lean ====
section
/-!
DEFINITION. What an implementation fixes and the free values: opaque constants without a body. No proof can see a value
of any of them, so a claim holds whatever they are. The assumption log names each one.
-/
namespace Sys2Proof

/-- The bits of the random-bit generators (R124, R125, R162), drawn by the counter `freeCtr`. Free. -/
opaque Config.rand : Nat → BitVec 16

/-- A choice the spec leaves to the device (an object index, a physical plot), drawn by the counter. Free. -/
opaque Config.choice : Nat → Nat

/-- The value of a count that has passed the width of its register; the spec states none. Free. -/
opaque Config.counterOver : Nat → Nat → Nat

/-- A byte of cell SRAM that nothing has written since the last settle point or reset (R70), by epoch and byte. Free. -/
opaque Config.sramByte : Nat → Nat → BitVec 8

/-- A byte of a command slot that no host write has set (R403). Free. -/
opaque Config.apertureByte : Nat → BitVec 8

/-- A byte of host memory that neither the device nor a modelled host write has set. Free. -/
opaque Config.hostByte : Nat → BitVec 8

/-- Hold-up charge in percent when the auxiliary rail comes up (R482 gives only a bound). Free. -/
opaque Config.holdup : Nat → Nat

/-- Bus data the spec leaves open: the data of a completion marked EP (R401), by address. Free. -/
opaque Config.epByte : Nat → BitVec 8

/-- The syndrome or failing check value of an error (R461). Free. -/
opaque Config.syndrome : Nat → Nat

/-- 1/x and 1/sqrt x (codes 2 and 3) of a binary32 bit pattern, where R159 bounds the result but does not fix it: which of the
binary32 numbers beside the exact result is given. Free within the bound. -/
opaque Config.ulpOff : Nat → BitVec 32 → Nat

/-- exp and ln (codes 0, 1) of a binary32 bit pattern, where R159 states a bound only: which binary32 number within the bound
is given. Free within the bound. -/
opaque Config.transc : Nat → BitVec 32 → BitVec 32

/-- cos of pi q/p and x to a rational power in binary64 (R304, within 2 units in the last place). Free. -/
opaque Config.cosPi : Nat → Nat → BitVec 64
opaque Config.pow64 : BitVec 64 → Nat → Nat → BitVec 64

/-- A value that a unit forms for which the spec states no result (first number: the point), by a draw. Free. -/
opaque Config.unstated : Nat → Nat → Nat

/-- SHA-384 (R430). Uninterpreted. -/
opaque Config.sha384 : List (BitVec 8) → List (BitVec 8)

/-- ECDSA verification by public key, message and signature over the named curve (R430, R431). Uninterpreted. -/
opaque Config.ecdsaVerify : List (BitVec 8) → List (BitVec 8) → List (BitVec 8) → Bool

/-- ECDSA signing with the identity key (0) or the transport key (1): the draw is the signature's nonce. Uninterpreted. -/
opaque Config.ecdsaSign : Nat → Nat → List (BitVec 8) → List (BitVec 8)

/-- ECDH with the identity private key (0) or the ephemeral key of a draw; none for a point off the curve. -/
opaque Config.ecdh : Nat → List (BitVec 8) → Option (List (BitVec 8))

/-- The compressed public part of the ephemeral key pair of a draw (R436). -/
opaque Config.ephemeral : Nat → List (BitVec 8)

/-- The 96-byte form of a compressed public key (R431): the Y of its X on the curve. Uninterpreted. -/
opaque Config.expandKey : List (BitVec 8) → List (BitVec 8)

/-- By how many 10 ns units the interval timer of a region starts after region 0's (R258). -/
opaque Config.timerLag : Nat → Nat

/-- HKDF-SHA-384 by salt, input key, info and length. Uninterpreted. -/
opaque Config.hkdf : List (BitVec 8) → List (BitVec 8) → List (BitVec 8) → Nat → List (BitVec 8)

/-- AES-256-GCM: seal by key, nonce, additional data and clear bytes gives ciphertext and tag; open reverses it. -/
opaque Config.gcmSeal : List (BitVec 8) → Nat → List (BitVec 8) → List (BitVec 8) → List (BitVec 8) × List (BitVec 8)
opaque Config.gcmOpen : List (BitVec 8) → Nat → List (BitVec 8) → List (BitVec 8) → List (BitVec 8) →
  Option (List (BitVec 8))

/-- The identity public key, compressed (R431), and the certificate chain of R432. -/
opaque Config.identityPub : List (BitVec 8)
opaque Config.certChain : List (BitVec 8)

/-- The boot ROM: its digest (R434), its version, the hashes of its four firmware signing keys (R430). -/
opaque Config.romDigest : List (BitVec 8)
opaque Config.romVersion : Nat
opaque Config.fwKeyHash : Nat → List (BitVec 8)

/-- The module's serial number (R432, R435), and the bytes that the factory's firmware image leaves to it (R447). -/
opaque Config.serial : Nat
opaque Config.factoryByte : Nat → BitVec 8

/-- The PCI-SIG vendor identifier (R396), the PCIe rate and width the link trained to (R420). -/
opaque Config.vendorId : Nat
opaque Config.pcieRate : Nat
opaque Config.pcieWidth : Nat

/-- The BIST signature a good unit writes (R472), by block address and half. -/
opaque Config.bistSig : Nat → Nat → Nat

end Sys2Proof
end

