-- ==== Sys2Proof/Machine/Map.lean ====
section
/-!
DEFINITION. Tables, memories, bit fields and byte order: the plain operations every other file is written in (R4, R5).
-/
namespace Sys2Proof.Machine
open Sys2Proof

/-- The value at a key. -/
def kget {κ α : Type} [DecidableEq κ] : KMap κ α → κ → Option α
  | [], _ => none
  | (k', v) :: r, k => if k' = k then some v else kget r k

/-- The value at a key, or `d` for an absent key. -/
def kgetD {κ α : Type} [DecidableEq κ] (m : KMap κ α) (k : κ) (d : α) : α := (kget m k).getD d

/-- The table with a key's value replaced, or entered last. -/
def kset {κ α : Type} [DecidableEq κ] : KMap κ α → κ → α → KMap κ α
  | [], k, v => [(k, v)]
  | (k', v') :: r, k, v => if k' = k then (k, v) :: r else (k', v') :: kset r k v

/-- The table without a key. -/
def kdel {κ α : Type} [DecidableEq κ] (m : KMap κ α) (k : κ) : KMap κ α := m.filter (fun e => e.1 ≠ k)

/-- The table with a function applied to a key's value, if it has one. -/
def kmod {κ α : Type} [DecidableEq κ] (m : KMap κ α) (k : κ) (f : α → α) : KMap κ α :=
  match kget m k with
  | some v => kset m k (f v)
  | none => m

/-- Keys of a table. -/
def keys {κ α : Type} (m : KMap κ α) : List κ := m.map Prod.fst

/-! ## Memories -/

/-- The canonical form: addresses strictly rising. -/
def Mem.wf : Mem → Bool
  | [] => true
  | [_] => true
  | a :: b :: r => decide (a.1 < b.1) && Mem.wf (b :: r)

/-- The canonical form of a memory whose unlisted bytes read zero: no listed byte is zero either. -/
def Mem.wfZ (m : Mem) : Bool := Mem.wf m && m.all (fun e => e.2 ≠ 0)

/-- The listed byte at an address. -/
def mget (m : Mem) (a : Nat) : Option Byte := kget m a

/-- The memory with one byte listed. -/
def mput : Mem → Nat → Byte → Mem
  | [], a, b => [(a, b)]
  | (a', b') :: r, a, b =>
    if a < a' then (a, b) :: (a', b') :: r
    else if a = a' then (a, b) :: r
    else (a', b') :: mput r a b

/-- The memory with one byte unlisted. -/
def mdel (m : Mem) (a : Nat) : Mem := m.filter (fun e => e.1 ≠ a)

/-- A byte written into a memory whose unlisted bytes read zero. -/
def mputZ (m : Mem) (a : Nat) (b : Byte) : Mem := if b = 0 then mdel m a else mput m a b

/-- Bytes written at consecutive addresses. -/
def mputs (m : Mem) (a : Nat) : List Byte → Mem
  | [] => m
  | b :: r => mputs (mput m a b) (a + 1) r

/-- Bytes written at consecutive addresses of a zero-reading memory. -/
def mputsZ (m : Mem) (a : Nat) : List Byte → Mem
  | [] => m
  | b :: r => mputsZ (mputZ m a b) (a + 1) r

/-- A stretch unlisted. -/
def mclear (m : Mem) (lo len : Nat) : Mem := m.filter (fun e => ¬ (lo ≤ e.1 ∧ e.1 < lo + len))

/-- Bytes read from a zero-reading memory. -/
def mreadZ (m : Mem) (a len : Nat) : List Byte := (List.range len).map (fun i => (mget m (a + i)).getD 0)

/-- Bytes read, unlisted ones from a function of the address. -/
def mreadF (m : Mem) (f : Nat → Byte) (a len : Nat) : List Byte :=
  (List.range len).map (fun i => (mget m (a + i)).getD (f (a + i)))

/-! ## Bit fields and byte order -/

/-- Bits `hi` down to `lo` of a number (R4). -/
def bits (w hi lo : Nat) : Nat := (w / 2 ^ lo) % 2 ^ (hi + 1 - lo)

/-- One bit of a number. -/
def bit (w i : Nat) : Bool := (w / 2 ^ i) % 2 = 1

/-- A Boolean as a bit. -/
def b2n (b : Bool) : Nat := if b then 1 else 0

/-- `len` bytes of a number, little-endian (R5). -/
def leBytes (n : Nat) : Nat → List Byte
  | 0 => []
  | len + 1 => BitVec.ofNat 8 n :: leBytes (n / 256) len

/-- The number of little-endian bytes (R5). -/
def ofLe : List Byte → Nat
  | [] => 0
  | b :: r => b.toNat + 256 * ofLe r

/-- The value of an n-bit two's complement field. -/
def sext (n w : Nat) : Int := if w % 2 ^ n < 2 ^ (n - 1) then (w % 2 ^ n : Nat) else (w % 2 ^ n : Nat) - (2 ^ n : Nat)

/-- An integer in n bits, two's complement. -/
def tc (n : Nat) (i : Int) : Nat := (i % (2 ^ n : Nat)).toNat

/-- The field of `len` bytes at byte `off` of a record. -/
def fieldAt (r : List Byte) (off len : Nat) : Nat := ofLe ((r.drop off).take len)

/-- The field of `len` bytes at byte `off` of a record held as a number. -/
def fieldN (r off len : Nat) : Nat := (r / 256 ^ off) % 256 ^ len

/-- Zero bytes. -/
def zeros (n : Nat) : List Byte := List.replicate n 0

/-- A list cut or filled with zeros to a length. -/
def padTo (n : Nat) (l : List Byte) : List Byte := (l ++ zeros (n - l.length)).take n

/-- Quotient rounded up. -/
def cdiv (a b : Nat) : Nat := (a + b - 1) / b

/-- Whether a number is a power of two. -/
def isPow2 (n : Nat) : Bool := n ≠ 0 && n &&& (n - 1) = 0

/-- A list without the element at an index. -/
def dropAt {α : Type} (l : List α) (n : Nat) : List α := l.take n ++ l.drop (n + 1)

/-- A list with the element at an index changed. -/
def modAt {α : Type} : List α → Nat → (α → α) → List α
  | [], _, _ => []
  | a :: r, 0, f => f a :: r
  | a :: r, n + 1, f => a :: modAt r n f

/-- The index of the first element that a test admits. -/
def findIx {α : Type} (l : List α) (p : α → Bool) : Option Nat := l.findIdx? p

/-- The least of the `n` numbers from `i` on that a test admits. -/
def leastFrom (p : Nat → Bool) (i : Nat) : Nat → Option Nat
  | 0 => none
  | n + 1 => if p i then some i else leastFrom p (i + 1) n

/-- The least number below a bound that a test admits. -/
def leastBelow (bound : Nat) (p : Nat → Bool) : Option Nat := leastFrom p 0 bound

/-- Whether a set of numbers shares any with a half-open range. -/
def overlaps (a la b lb : Nat) : Bool := a < b + lb && b < a + la && 0 < la && 0 < lb

/-- The seal's CRC-16: polynomial 0x1021, initial value 0xFFFF, no reflection, no final XOR (R405). -/
def crc16 (bytes : List Byte) : BitVec 16 :=
  bytes.foldl (fun (crc : BitVec 16) b =>
    (List.range 8).foldl (fun (c : BitVec 16) _ => if c.msb then (c <<< (1 : Nat)) ^^^ 0x1021#16 else c <<< (1 : Nat))
      (crc ^^^ ((b.zeroExtend 16 : BitVec 16) <<< (8 : Nat)))) 0xFFFF#16

/-- CRC-32 of the IEEE 802.3 polynomial over a flit with its CRC field taken as zero (R337). -/
def crc32 (bytes : List Byte) : BitVec 32 :=
  ~~~ (bytes.foldl (fun (crc : BitVec 32) b =>
    (List.range 8).foldl (fun (c : BitVec 32) _ => if c.getLsbD 0 then (c >>> (1 : Nat)) ^^^ 0xEDB88320#32 else c >>> (1 : Nat))
      (crc ^^^ (b.zeroExtend 32 : BitVec 32))) 0xFFFFFFFF#32)

end Sys2Proof.Machine
end

