-- ==== Sys2Proof/Machine/State.lean ====
section
/-!
DEFINITION. The state of the block as plain data: every register, table, buffer, counter, mode and pin that the spec
gives it, the queue of waiting commands, and the state after reset. Docstrings name the rule that gives each part.
-/
namespace Sys2Proof.Machine
open Sys2Proof

/-! ## Rails, governor, trust -/

/-- Module rails and pins (R480 to R483). `holdup` is the hold-up charge in percent (R452, R482). -/
structure Power where
  auxUp : Bool
  mainOk : Bool
  coreOn : Bool
  coreGood : Bool
  perstHigh : Bool
  linkRef : Bool
  holdup : Nat
  deriving DecidableEq, Repr

/-- The power and heat governor (R375 to R393). `op` is the point the governor has chosen, `inForce` the point whose
ramp is complete (R378). Settings wait in the `pend` fields for the next evaluation (R393). -/
structure Gov where
  active : Bool
  op : Nat
  inForce : Nat
  hold : Nat
  calm : Nat
  opMin : Nat
  opMax : Nat
  modCap : Nat
  rackLimit : Nat
  share : Nat
  fix : Option Nat
  pendBudget : Option (Nat × Nat × Nat)
  pendLimits : Option (Nat × Nat)
  pendFix : Option (Option Nat)
  cls : Nat
  pwrFlag : Bool
  thermFlag : Bool
  floorFlag : Bool
  dieT : List (List Int)
  stackT : List Int
  current : List Nat
  /-- the last power sample, the sum and number of samples since the last evaluation, and p of R375 at that evaluation -/
  sample : Nat
  sampleSum : Nat
  samples : Nat
  power : Nat
  /-- when R383 last acted, on region 0's timer -/
  cutAt : Option Nat
  /-- GOV_TRIP of each hub, by region (R392) -/
  trips : KMap Nat Nat
  deriving DecidableEq, Repr

/-- The firmware update state (R449). -/
inductive UpdState where
  | idle | receiving | staged
  deriving DecidableEq, Repr

/-- A firmware image in flash (R447): the 512 header bytes and the body. -/
structure Image where
  hdr : List Byte
  body : Mem
  deriving DecidableEq, Repr

/-- One selective IDE stream (R395, R422). -/
structure IdeStream where
  key : List Byte
  secure : Bool
  covers : Bool
  deriving DecidableEq, Repr

/-- The security engine, flash and fuses (R430 to R453). `revoked` is the four revocation fuses. -/
structure Trust where
  owner : Option (List Byte)
  ownerCtr : Nat
  lock : Bool
  upd : UpdState
  stage : Image
  received : Nat
  copying : Bool
  slotA : Option Image
  slotB : Option Image
  activeB : Bool
  fails : Nat
  fallback : Bool
  svnFloor : Nat
  runImage : Option Image
  revoked : BitVec 4
  peerKeys : List (List Byte)
  ide : KMap Nat IdeStream
  romMeas : List Byte
  fwMeas : List Byte
  deriving DecidableEq, Repr

/-! ## Host port -/

/-- The device state of R417. -/
inductive DevState where
  | starting | ready | stopped | testing
  deriving DecidableEq, Repr

/-- The settings of PCIe configuration space (R395, R399): the maximum payload and read request sizes in bytes, D3hot, and BAR2's
size as a power of two. What it reports of the function never changes (`pciIds`). No row writes them. -/
structure PciConfig where
  mps : Nat
  mrrs : Nat
  d3hot : Bool
  bar2 : Nat
  deriving DecidableEq, Repr

/-- What the device makes visible outside itself, in order (R397): a DMA write into host memory, a DMA read of it, an MSI-X message, a
PCIe read completion, a sideband answer, a flit sent on a link, what a link's training tells the far end (R335), an SPDM answer, an AER error. -/
inductive Output where
  | dma (addr : Nat) (bytes : List Byte)
  | dmaRead (addr len : Nat)
  | msix (v : Nat)
  | completion (data : List Byte) (ep : Bool)
  | smbus (bytes : List Byte)
  | smbusNack
  | flit (l : Nat) (bytes : List Byte)
  | announce (l : Nat) (mapped : Bool) (dev stepping rtt : Nat)
  | spdm (bytes : List Byte)
  | aer
  deriving DecidableEq, Repr

/-- A packet that names a next packet (R408), with the reply held for its fetch (R413); `ended` once the fetch has failed
before the command was over. -/
structure Chain where
  pkt : Packet
  held : Option (List Byte)
  ended : Bool
  deriving DecidableEq, Repr

/-- What a taken command that has begun still waits for (R410). -/
inductive WaitKind where
  | run | stop | bind | unbind | destroy | resume
  | promote (idx first count : Nat)
  | evict (idx : Nat)
  | pin (idx : Nat)
  | alloc
  | floor
  | free (idx : Nat)
  | selftest (u : SUnit)
  | disable (u : SUnit)
  | enable (u : SUnit)
  | bist (scope idx : Nat) (memory : Bool)
  deriving DecidableEq, Repr

/-- A begun command that has not replied. -/
structure Waiting where
  pkt : Packet
  kind : WaitKind
  deriving DecidableEq, Repr

/-! ## Step code -/

/-- An address pointer of a cell unit (R86). -/
structure AddrPtr where
  base : Nat
  step : Nat
  n : Nat
  km : Bool
  lsel : Nat
  ofs : Nat
  isub : Bool
  deriving DecidableEq, Repr

/-- One action word issued to a unit: where it stands in the program, its place ordinal and the loop indices of its
record (R43, R87, R137). `inst` numbers record instances in unrolled order; `group` is the list of places its slot
group selects, in logical order. -/
structure ActionInst where
  ctx : Nat
  addr : Nat
  slotGroup : Nat
  word : Nat
  bits : Nat
  ordinal : Nat
  group : List Nat
  loops : List Nat
  inst : Nat
  deriving DecidableEq, Repr

/-- Where an action word stands in its record: slot group and word within it, as T_SLOT gives them (R137). -/
def ActionInst.nth (a : ActionInst) : Nat := 256 * a.slotGroup + a.word

/-- A NaN event as the trap register may record it (R137, R494). -/
structure NanEv where
  cause : Nat
  row : Nat
  col : Nat
  kpos : Nat
  opa : Nat
  opb : Nat
  deriving DecidableEq, Repr

/-- The NaN events that an action has formed so far and not reported (R134): how many beside NaN inputs, whether one was an input, the
one that it will report; `told` once it has reported one. -/
structure ActEvs where
  count : Nat
  input : Bool
  best : Option NanEv
  told : Bool
  deriving DecidableEq, Repr

/-- A unit's running action: `done` once its completion point is reached (R83); `count` is the granules a port action
has moved, the shards a sweep has finished; `evs` are the events that a stream pass has formed. -/
structure RunAct where
  a : ActionInst
  started : Bool
  done : Bool
  count : Nat
  evs : ActEvs
  deriving DecidableEq, Repr

/-- A unit's column (R39): the running action and those issued behind it. `dropped` once an immediate disable has dropped the unit's
work of the step (R293): what stands in the column completes at once. -/
structure Column where
  run : Option RunAct
  queue : List ActionInst
  dropped : Bool
  deriving DecidableEq, Repr

/-- Where a token counts: chip scope, or one place (R42). -/
inductive TokPlace where
  | chip
  | cell (c : Nat)
  | die (d : Nat)
  deriving DecidableEq, Repr

/-- A signal event being formed by one record instance (R43): `all` when the record header signals, so that every
action of the record must complete; `left` are the completions outstanding. -/
structure PendEv where
  inst : Nat
  tok : Nat
  place : TokPlace
  all : Bool
  left : Nat
  deriving DecidableEq, Repr

/-- An open handshake window over granules of a cell (R177), with the port whose action opened it: of the cell itself for a RECEIVE or
a SEND, of the sending cell `by_` for a SILT's packet. `word` is the action's place in its record (`ActionInst.nth`). -/
structure Win where
  cell : Nat
  fill : Bool
  lo : Nat
  hi : Nat
  done : Nat
  inst : Nat
  word : Nat
  by_ : Nat
  owner : CellUnit
  deriving DecidableEq, Repr

/-- An open loop (R60), with the step addresses of the records that its hubs keep in their step caches (R75). -/
structure LoopFrame where
  start : Nat
  count : Nat
  iter : Nat
  seen : List Nat
  deriving DecidableEq, Repr

/-- A loaded program (R71, R74): the image as 128-bit units, the tree sets that its REDUCE actions name (R107), its area in the floor
(stack and physical plot), its measurement (R434) and the unfit mark (R73). -/
structure Prog where
  units : List Nat
  trees : List Nat
  area : List (Nat × Nat)
  measure : List Byte
  unfit : Bool
  deriving DecidableEq, Repr

/-- The flags and exchanges of the step in progress (R274 to R289). `pushLanded` are the shard register entries whose push of the step
has landed whole. -/
structure StepSt where
  abandon : Option Nat
  abandonSent : Bool
  contributed : Bool
  contribPending : Bool
  nonfinite : Bool
  verdict : Option VRecord
  emptyTiles : Nat
  lateTiles : Nat
  normSq : BitVec 64
  pushLanded : List Nat
  deriving DecidableEq, Repr

/-- A started run (R76, R77): its slot, step numbers, quantum, and where the sequencer stands in it. `poison` once a fetch has met
poisoned step code: the run stops at the settle point that ends the abandoned step (R75, R491). -/
structure Run where
  slot : Nat
  pkt : Option Packet
  stepNo : Nat
  stepsLeft : Option Nat
  quantum : Nat
  used : Nat
  pc : Nat
  loops : List LoopFrame
  forks : List Nat
  inst : Nat
  settling : Bool
  halted : Bool
  stopReq : Bool
  poison : Bool
  step : StepSt
  deriving DecidableEq, Repr

/-- The first-trap record of the step (R137). `unnamed` is the tree set whose REDUCE will name it once issued (R494). -/
structure Trap where
  step : Nat
  pc : Nat
  slotGroup : Nat
  word : Nat
  opcode : Nat
  cause : Nat
  isDie : Bool
  place : Nat
  ctx : Nat
  halted : Bool
  eng : Option Nat
  loops : List Nat
  row : Nat
  col : Nat
  kpos : Nat
  opa : Nat
  opb : Nat
  unnamed : Option Nat
  deriving DecidableEq, Repr

/-- A host ring (R140, R195, R294). -/
structure Ring where
  base : Nat
  entries : Nat
  enabled : Bool
  deriving DecidableEq, Repr

/-! ## Streams -/

/-- A pass of a stream engine (R171 to R184): the table entry, the descriptor as armed (1,024 bits), the next tile, how
many scale granules of its cells have moved after its data (one more once the data has), the index-stream entries read,
the surplus mark, the parked cause with its local address and index entry, F_FLAGS of its record (0 with no record pending), F_FLAGS[2:1]
of its fault, remote bytes received, READs and WRITEs outstanding, pages pinned, pages it may write in place, and the page being
copied for it. -/
structure Pass where
  ctx : Nat
  desc : Nat
  image : Nat
  tile : Nat
  scale : Nat
  index : List Nat
  overrun : Bool
  parked : Option Nat
  faultAddr : Nat
  faultIx : Nat
  ff : Nat
  fside : Nat
  remote : Mem
  asked : List Nat
  writes : List Nat
  pinned : List Nat
  written : List Nat
  copyWait : Option Nat
  deriving DecidableEq, Repr

/-- The armed copy of a persistent descriptor (R176). -/
structure Armed where
  desc : Nat
  image : Nat
  pace : Nat
  deriving DecidableEq, Repr

/-- A stream engine: the pass in progress or last walked, and its armed copies. `stopping` is state 0x3 of R188. -/
structure Engine where
  pass : Option Pass
  cursor : List Nat
  curTile : Nat
  curIx : Nat
  lastCtx : Nat
  lastDesc : Nat
  overrun : Bool
  stopping : Bool
  faultAddr : Nat
  armed : List Armed
  deriving DecidableEq, Repr

/-- A silt packet in flight (R189 to R193): its 16-byte header as a number, its payload, and the record instance of its SILT with the
word's place in the record. -/
structure Silt where
  hdr : Nat
  bytes : List Byte
  inst : Nat
  word : Nat
  deriving DecidableEq, Repr

/-! ## Pages and pool -/

/-- Page states (R214). -/
inductive PageSt where
  | free | live | shared | copying | fallow
  deriving DecidableEq, Repr

/-- A page descriptor (R213). `link` is P_LINK: the source page of a copy; the free lists stand in the context. -/
structure Page where
  mem : Bool
  addr : Nat
  st : PageSt
  cls : Nat
  gen : Nat
  refs : Nat
  pins : Nat
  link : Option Nat
  seqn : Nat
  tok0 : Nat
  tokn : Nat
  layer : Nat
  from_ : Nat
  deriving DecidableEq, Repr

/-- A page copy in progress (R216): the page copied into, the global address of the page-table entry that the pass read, and the
engine whose write met the page. -/
structure PageCopy where
  ctx : Nat
  page : Nat
  entry : Nat
  eng : UnitId
  deriving DecidableEq, Repr

/-- Plot states (R240). -/
inductive PlotSt where
  | resident | host | empty | arriving | leaving
  deriving DecidableEq, Repr

/-- One plot-map entry (R224): the state, the physical plot within the stack, the spill frame, the poison mark of R250,
and for a confidential context the nonce and tag kept with it (R246). -/
structure PlotEnt where
  st : PlotSt
  phys : Nat
  frame : Option Nat
  poison : Bool
  nonce : Nat
  tag : List Byte
  deriving DecidableEq, Repr

/-- Object states (R239). -/
inductive ObjSt where
  | resident | promoting | evicting | host | pinned
  deriving DecidableEq, Repr

/-- An object (R226 to R240). `plots` is its stretch of the plot map, one entry per address plot from the base. `need` while a pool
eviction for need moves it out (R236); `freeing` once it is freed while a plot of it still moves (R242). -/
structure Obj where
  gen : Nat
  base : Nat
  plots : List PlotEnt
  hint : Nat
  floor : Bool
  window : Bool
  nwin : Nat
  poisoned : Bool
  st : ObjSt
  want : List Nat
  promBad : List Nat
  pinReq : Bool
  age : Nat
  touch : Nat
  defers : Nat
  evicts : Nat
  promotes : Nat
  freeAtSettle : Bool
  need : Bool
  freeing : Bool
  deriving DecidableEq, Repr

/-- A host-tier frame mapped to a context (R243, R244): its kind, host bus address, and the plot it holds. -/
structure Frame where
  ctx : Nat
  spill : Bool
  addr : Nat
  holds : Bool
  deriving DecidableEq, Repr

/-- A plot of a context table in its floor (R231): the table and where it lies. -/
structure TabPlot where
  table : Nat
  stack : Nat
  phys : Nat
  deriving DecidableEq, Repr

/-- Explicit metadata of one 64-byte HBM word (R247); a word without an entry is clean and carries the tag of the
object that owns its plot. -/
structure WordMeta where
  ctx : Nat
  gen : Nat
  idx : Nat
  pois : Bool
  deriving DecidableEq, Repr

/-! ## Training step -/

/-- The loss-scale state and its outputs (R301, R302). -/
structure LossScale where
  e : Int
  k : Nat
  clean : Nat
  applied : Nat
  addr : Nat
  flagOn : Bool
  flag : Nat
  deriving DecidableEq, Repr

/-- The job record of a bound context (R367), as installed. `lost` are devices declared lost here; `recovery` is R368; `heard`
is when each neighbour last sent control-class traffic (R279). -/
structure Job where
  job : Nat
  enc : Bool
  ndev : Nat
  isRoot : Bool
  parent : Nat
  root : Nat
  children : List Nat
  succ : List Nat
  devs : List Nat
  pkt : Option Packet
  recovery : Bool
  lost : List Nat
  actingRoot : Bool
  anyLoss : Bool
  heard : KMap Nat Nat
  unbind : Bool
  deriving DecidableEq, Repr

/-- What the verdict node of a context holds (R276 to R282): contributions by child device for the step collected, the
last step decided at the root or forwarded by another node, and the latest record. A successor root that settles the step under
collection (R281) holds the devices it still awaits in `polling` and the record found in `polled`. -/
structure VNode where
  got : KMap Nat VContrib
  later : KMap Nat VContrib
  decided : Option Nat
  latest : Option VRecord
  polling : Option (List Nat)
  polled : Option VRecord
  deriving DecidableEq, Repr

/-- One tile at a tree node (R272): the count, the children that sent it, forwarded. The sum stands in the reduction area
in HBM (R359). -/
structure TreeTile where
  cnt : Nat
  sent : List Nat
  fwd : Bool
  deriving DecidableEq, Repr

/-- A tree node's state for the step (R271, R272), by tree-set entry and list index: `nulls` are the children that stand for
every tile with count 0, `own` the device's count once read (R360). -/
structure Node where
  deadline : Option Nat
  tiles : KMap Nat TreeTile
  nulls : List Nat
  expired : Bool
  late : Nat
  own : Option Nat
  deriving DecidableEq, Repr

/-- An export entry of a context (R318), with the producer and consumer offsets of R319 and the records waiting for
room (R326): each is the address of its shard's accumulator (0 for an end of sweep), the die of its update unit, and the record in
clear. `dropping` are the units whose sweep drops the rest of its records; `tags` are a peer ring's record writes not yet done,
`emitted` the accumulators whose shards have a record since EXPORT_SET or their last drop. -/
structure Export where
  kind : Nat
  base : Nat
  bytes : Nat
  stride : Nat
  interval : Nat
  producer : Nat
  consumer : Nat
  waiting : List (Nat × Nat × List Byte)
  dropping : List Nat
  sets : Nat
  tags : List Nat
  emitted : List Nat
  deriving DecidableEq, Repr

/-- The last sweep's figures for UPD_READ (R330). -/
structure UpdStatus where
  step : Nat
  sched : BitVec 64
  kappa : BitVec 64
  gnorm : BitVec 64
  overrun : Nat
  deriving DecidableEq, Repr

/-- A confidential context's data key (R438) and the counters kept under it (R246, R440, R443). -/
structure DataKey where
  keyId : Nat
  key : List Byte
  spillCtr : Nat
  sealCtr : Nat
  deriving DecidableEq, Repr

/-- A dispatch in the step (R364 to R366), by plan entry: the link die of the DISPATCH once begun and its OVF; the counts had from
each source, what each source was granted as (rows, first row) per local expert, and what each destination granted; whether the
second counts and the rows have gone out; the byte offsets landed of each row (slot, row), the source and assignment it came from;
the assignments dropped; whether D_COUNTS is written, COMBINE begun, and the byte offsets landed of each assignment's return. -/
structure Disp where
  die : Option Nat
  ovf : Nat
  counts : KMap Nat (List Nat)
  counts2 : KMap Nat (List Nat)
  given : KMap Nat (List (Nat × Nat))
  given2 : KMap Nat (List (Nat × Nat))
  got : KMap Nat (List (Nat × Nat))
  got2 : KMap Nat (List (Nat × Nat))
  asked2 : Bool
  sent : Bool
  rows : KMap (Nat × Nat) (List Nat)
  fromRow : KMap (Nat × Nat) (Nat × Nat)
  dropped : List Nat
  counted : Bool
  combined : Bool
  combGot : KMap Nat (List Nat)
  deriving DecidableEq, Repr

/-- A change waiting for the context's next settle point (R491): table words to write, or a setting. -/
inductive Pend where
  | words (table first : Nat) (entries : List Nat)
  | register (entries : List Nat)
  | limits (stall park : Nat)
  | params (d live stash spill : Nat)
  | trap (halt : Bool)
  | loss (l : LossScale)
  | exportEntry (entry : Nat) (x : Export)
  | bedrock (plan : Nat)
  | ring (which : Nat) (r : Ring)
  deriving DecidableEq, Repr

/-- One of the 16 contexts (R421) with everything it owns. Tables hold their entries as numbers, little-endian bytes of
the spec's layouts (R166, R190, R259, R262, R296, R303, R357, R363); an absent key is an empty entry. -/
structure Ctx where
  conf : Bool
  stopped : Bool
  strict : Bool
  lsum : Nat
  haltOnTrap : Bool
  floorF : Nat
  floorQ : Nat
  floorLost : KMap Nat Nat
  tabPlots : List TabPlot
  flags : KMap Nat Nat
  progs : KMap Nat Prog
  run : Option Run
  lastStep : Nat
  /-- 0 stream descriptors, 1 silt routes, 2 layers, 3 shard register, 4 update plans, 5 schedules, 6 tree sets,
  7 dispatch plans: entries by number -/
  tables : KMap (Nat × Nat) Nat
  absent : List Nat
  kvEntries : Option Nat
  pages : KMap Nat Page
  freeLists : KMap Nat (List Nat)
  objs : KMap Nat Obj
  sealArea : KMap Nat Nat
  dataKey : Option DataKey
  faultRing : Ring
  verdictRing : Ring
  censusRing : Ring
  fSeq : Nat
  vSeq : Nat
  snapSeq : Nat
  stallMs : Nat
  parkMs : Nat
  deadline : Nat
  liveMs : Nat
  stash : Nat
  spill : Nat
  stashHigh : Nat
  ledger : KMap Nat (Nat × Nat)
  census : KMap Nat Nat
  trap : Option Trap
  snapshot : Option (List Byte)
  loss : LossScale
  updStat : UpdStatus
  exports : KMap Nat Export
  /-- accumulators whose next record is forced to be bedrock (R321) -/
  bedrock : List Nat
  job : Option Job
  vnode : VNode
  absurdNext : Bool
  /-- a non-finite value met after a contribution, which joins the next one (R275), and the step that a late cause abandons (R283) -/
  lateNonfinite : Bool
  lateCause : Option Nat
  nodes : KMap (Nat × Nat) Node
  /-- the NaN events of each tree set's REDUCE (R134) -/
  redEvs : KMap Nat ActEvs
  /-- bytes of each tile of a contribution buffer that passes of the step have written (R360), by tree set, list index and
  tile, as a mask -/
  cbuf : KMap (Nat × Nat × Nat) Nat
  disps : KMap Nat Disp
  /-- the pieces of a push landed so far, by shard register entry: its version, and each piece's offset, bytes and whether
  it is the last (R263, R289) -/
  pushGot : KMap Nat (Nat × List (Nat × Nat × Bool))
  pend : List Pend
  deriving DecidableEq, Repr

/-! ## Fabric -/

/-- Link states (R371). -/
inductive LinkSt where
  | down | training | up | retraining | disabled
  deriving DecidableEq, Repr

/-- A flit kept in the replay buffer (R344): its sequence number, its times replayed, the message it belongs to, and its 256 bytes. -/
structure TxFlit where
  lseq : Nat
  replays : Nat
  kind : Nat
  tag : Nat
  bytes : List Byte
  deriving DecidableEq, Repr

/-- A message that a link has received in part (R338, R356): the sequence number of its first flit, the messages received under the
key before it, whether it is encrypted, and its flits: the class buffer each occupies, its header with FL_CRC and FL_LSEQ zero, its
payload. -/
structure RxMsg where
  first : Nat
  count : Nat
  enc : Bool
  parts : List (Nat × Nat × List Byte)
  deriving DecidableEq, Repr

/-- A Tricel link (R332 to R356). `rx` holds the messages not yet whole, by source device and tag. `nakked` marks that flits are discarded until the replayed one arrives. `keyMsgs` and `rxMsgs` count the
messages sent and received under the key; `slots` is the flits sent since the last control flit (R341); `local_` are link-local flits
that wait for room in the replay buffer: kind and payload. -/
structure Link where
  st : LinkSt
  enabled : Bool
  drain : Bool
  far : Option FarEnd
  key : Option (List Byte)
  keyMsgs : Nat
  rxMsgs : Nat
  pendKey : Bool
  eph : Nat
  credReply : Nat
  credBulk : Nat
  credEscape : Nat
  txSeq : Nat
  rxSeq : Nat
  replay : List TxFlit
  rx : KMap (Nat × Nat) RxMsg
  nakked : Bool
  slots : Nat
  local_ : List (Nat × List Byte)
  deriving DecidableEq, Repr

/-- A message waiting at this device's outputs: its own, or in transit (R350 to R353). `buf` is the class of the receive buffer that
a message in transit occupies, whatever class it has moved to since. -/
structure Transit where
  src : Nat
  dst : Nat
  job : Nat
  kind : Nat
  cls : Nat
  tag : Nat
  enc : Bool
  flits : Nat
  arrived : Option Nat
  buf : Nat
  payload : List Byte
  deriving DecidableEq, Repr

/-- An outstanding request (R347): what was sent, by whom, how often. -/
structure Request where
  msg : Transit
  sends : Nat
  owner : UnitId
  ctx : Nat
  deriving DecidableEq, Repr

/-- A READ that has arrived and waits to be served (R343). -/
structure ReadWait where
  src : Nat
  job : Nat
  tag : Nat
  addr : Nat
  len : Nat
  deriving DecidableEq, Repr

/-- The sweep of one update unit (R314): context, plan entry, list indices in the order swept, the place in it, shards finished,
the objects that hold state of the shard in progress, the address plots it has asked for, and the NaN events formed so far: how many beside NaN inputs, whether one was
an input, and the one to report (cause, S_ID, parameter, operands). -/
structure SweepSt where
  ctx : Nat
  plan : Nat
  order : List Nat
  pos : Nat
  finished : Nat
  hold : List Nat
  asked : List Nat
  evs : Nat
  input : Bool
  best : Option (Nat × Nat × Nat × Nat × Nat)
  deriving DecidableEq, Repr

/-! ## Faults and self-test -/

/-- A targeted self-test owed or running (R465): unit, detector, and for an HBM word its physical address. -/
structure Owed where
  u : SUnit
  det : Nat
  word : Option Nat
  deriving DecidableEq, Repr

/-- A disable that waits for the settle point, or an enable that waits for its test (R469). -/
structure PendSvc where
  u : SUnit
  enable : Bool
  deriving DecidableEq, Repr

/-- The clockless core of the device: everything but rails, governor and security engine. Of the plots to retire (R466), `retireWait`
are retired once nothing uses them, `retireMove` are left to a move in progress, `retireCopy` are being copied to a target plot. -/
structure Core where
  devState : DevState
  stage : Nat
  resetReq : Bool
  /-- the firmware verification stage found no slot that verifies (R451) -/
  noImage : Bool
  tripWait : Bool
  event : BitVec 32
  dnValid : Bool
  devNum : Nat
  pendMap : Option (Nat × List Nat)
  pendJob : KMap Nat (List Byte)
  routes : KMap Nat Nat
  fenced : List SUnit
  disabled : List SUnit
  pendSvc : List PendSvc
  owed : List Owed
  stageFail : List SUnit
  fenceGen : Nat
  /-- the times of the last 1,024 corrections of each detector since the settle point (R458) -/
  corrs : KMap (SUnit × Nat) (List Nat)
  failCnt : KMap SUnit Nat
  failFlash : KMap SUnit Nat
  failDirty : Bool
  retired : List (Nat × Nat)
  retiredFlash : List (Nat × Nat)
  /-- retired plots that FAIL_FORGET returns at the next start (R478) -/
  forgotten : List (Nat × Nat)
  retireWait : List (Nat × Nat)
  retireMove : List (Nat × Nat)
  retireCopy : KMap (Nat × Nat) Nat
  cfg : PciConfig
  reg : KMap Nat Nat
  latch : KMap Nat Nat
  msixPend : List Nat
  timers : KMap Nat Nat
  freeCtr : Nat
  out : List Output
  slotMem : Mem
  /-- busy aperture slots, each with the packet last taken from it (R402) -/
  busy : KMap Nat Packet
  taken : List Packet
  waiting : List Waiting
  chains : List Chain
  window : Option (Nat × Nat)
  hostMem : Mem
  unreach : List (Nat × Nat)
  ctxs : KMap Nat Ctx
  gens : KMap (Nat × Nat) Nat
  deadIdx : List (Nat × Nat)
  frames : KMap Nat Frame
  cur : Option Nat
  seqPc : Nat
  seqErr : Bool
  /-- what the sequencer slices of D16, D32 and D48 show of the last region slice each received: SEQ_STATE, SEQ_PC, SEQ_STEP (R80) -/
  hubSeen : KMap Nat (Nat × Nat × Nat)
  /-- region 0's timer value before which a hold stops issue (R382) -/
  holdUntil : Nat
  cols : KMap UnitId Column
  evs : List PendEv
  toks : KMap (Nat × TokPlace) Nat
  used : KMap (Nat × TokPlace × Option UnitId) Nat
  wins : List Win
  aps : KMap (UnitId × Nat) AddrPtr
  sram : Mem
  sramEpoch : Nat
  lineCnt : KMap Nat Nat
  landing : KMap (Nat × Nat) (List (List Byte))
  intake : KMap (Nat × Nat × Nat) (List (List Byte))
  engines : KMap (Nat × Nat) Engine
  silt : List Silt
  siltSeq : KMap Nat Nat
  copies : List PageCopy
  hbm : Mem
  words : KMap Nat WordMeta
  marks : Nat × Nat
  settles : Nat
  scrub : KMap Nat Nat
  links : KMap Nat Link
  transit : List Transit
  nextTag : Nat
  requests : KMap Nat Request
  reads : List ReadWait
  escUs : Nat
  reqUs : Nat
  pendLink : Option (Nat × Nat)
  sweeps : KMap Nat SweepSt
  /-- the message tags of the running PUSH of each update unit -/
  pushTags : KMap Nat (List Nat)
  gated : List Nat
  deriving DecidableEq, Repr

/-- The device without its command queue. -/
structure Dev where
  pw : Power
  gov : Gov
  tr : Trust
  c : Core
  deriving DecidableEq, Repr

/-- The whole state: the commands that wait, first in, first out, and the device. -/
structure State where
  pending : List Instr
  dev : Dev
  deriving DecidableEq, Repr

/-- Why the block stops on a command. Safe: the model stops where the named unit, and so the event, cannot exist. -/
inductive Fault where
  /-- An event names a unit, a slot, a register or an entry that the spec says does not exist. Raised by the meanings
  of the event rows. Safe: no such event can reach the hardware. -/
  | noSuchUnit
  /-- A command's operands contradict its row: a packet under another row's opcode. Raised by the meanings of the
  host-command rows. Safe: no such command can be taken. -/
  | badOperand
  deriving DecidableEq, Repr

/-- Why the model gives a command no meaning. -/
inductive Refusal where
  /-- The instruction of that mnemonic is not modelled yet. Raised by exec's arms only. Safe. -/
  | notModelled (mnemonic : String)
  deriving DecidableEq, Repr

/-! ## Reset -/

/-- Configuration space after a reset that it does not survive (R398, R399): BAR2 64 GiB; the sizes are PCIe's defaults (assumption
log). -/
def PciConfig.reset : PciConfig := { mps := 128, mrrs := 512, d3hot := false, bar2 := 36 }

/-- Rails down, as before the auxiliary rail comes up (R483). -/
def Power.reset : Power :=
  { auxUp := false, mainOk := false, coreOn := false, coreGood := false, perstHigh := false, linkRef := true, holdup := 0 }

/-- The governor's state after reset (R381, R390, R393). -/
def Gov.reset : Gov :=
  { active := false, op := 3, inForce := 3, hold := 0, calm := 0, opMin := 0, opMax := 7, modCap := 2600, rackLimit := 0,
    share := 65536, fix := none, pendBudget := none, pendLimits := none, pendFix := none, cls := 0, pwrFlag := false,
    thermFlag := false, floorFlag := false, dieT := [], stackT := [], current := [], sample := 0, sampleSum := 0, samples := 0, power := 0,
    cutAt := none, trips := [] }

/-- An erased staging area (R449). -/
def Image.blank : Image := { hdr := [], body := [] }

/-- The image that the factory left in slot A (assumption log): a header as R447 asks, SVN and floor 0; version, key, hashes, signature
and body are the implementation's. -/
def Image.factory : Image :=
  { hdr := [0x46, 0x57, 0x4E, 0x47, 0x01, 0x00, 0x00, 0x02, 0x08, 0x00, 0x00, 0x00, 0x00, 0x00, 0x00, 0x00] ++
      (List.range 4).map Config.factoryByte ++ [0xA1] ++ List.replicate 11 0 ++
      (List.range 144).map (fun i => Config.factoryByte (32 + i)) ++ List.replicate 240 0 ++
      (List.range 96).map (fun i => Config.factoryByte (416 + i)),
    body := (List.range 8).map (fun i => (i, Config.factoryByte (512 + i))) }

/-- A module as first powered: no owner, no lock, the factory image in slot A (assumption log). -/
def Trust.reset : Trust :=
  { owner := none, ownerCtr := 0, lock := false, upd := .idle, stage := Image.blank, received := 0,
    copying := false, slotA := some Image.factory, slotB := none, activeB := false, fails := 0, fallback := false,
    svnFloor := 0, runImage := none, revoked := 0, peerKeys := [], ide := [], romMeas := [], fwMeas := [] }

/-- A link before its first training (R371). -/
def Link.reset : Link :=
  { st := .down, enabled := true, drain := false, far := none, key := none, keyMsgs := 0, rxMsgs := 0, pendKey := false,
    eph := 0, credReply := 0, credBulk := 0, credEscape := 0, txSeq := 0, rxSeq := 0, replay := [], rx := [], nakked := false,
    slots := 7, local_ := [] }

/-- The core after a cold reset: stage 0, nothing bound, every register at its stated reset value. -/
def Core.reset : Core :=
  { devState := .starting, stage := 0, resetReq := false, noImage := false, tripWait := false, event := 0, dnValid := false, devNum := 0,
    pendMap := none, pendJob := [], routes := [], fenced := [], disabled := [], pendSvc := [], owed := [], stageFail := [],
    fenceGen := 0, corrs := [], failCnt := [], failFlash := [], failDirty := false, retired := [], retiredFlash := [], forgotten := [], retireWait := [], retireMove := [], retireCopy := [],
    cfg := PciConfig.reset, reg := [], latch := [], msixPend := [], timers := [], freeCtr := 0, out := [], slotMem := [], busy := [],
    taken := [], waiting := [], chains := [], window := none, hostMem := [], unreach := [], ctxs := [], gens := [],
    deadIdx := [], frames := [], cur := none, seqPc := 0, seqErr := false, hubSeen := [], holdUntil := 0, cols := [], evs := [], toks := [], used := [], wins := [],
    aps := [], sram := [], sramEpoch := 0, lineCnt := [], landing := [], intake := [], engines := [], silt := [],
    siltSeq := [], copies := [], hbm := [], words := [], marks := (256, 512), settles := 0, scrub := [], links := [], transit := [],
    nextTag := 0, requests := [], reads := [], escUs := 20, reqUs := 100, pendLink := none, sweeps := [], pushTags := [],
    gated := [] }

/-- The device right after reset. -/
def Dev.reset : Dev := { pw := Power.reset, gov := Gov.reset, tr := Trust.reset, c := Core.reset }

/-- The block right after a cold reset: no command waits, rails not yet up, start-up stage 0 (R474, R482, R483). -/
def State.reset : State := { pending := [], dev := Dev.reset }

end Sys2Proof.Machine
end

