-- ==== Sys2Proof/Machine/Ops.lean ====
section
/-!
DEFINITION. The named operations over registers, replies, interrupts, units of service, errors, contexts and the
memories. Every family file is written in them.
-/
namespace Sys2Proof

/-! ## Numbering (R13) -/

/-- Region of a die. -/
def dieRegion (d : Nat) : Nat := d / 16
/-- Local number of a die in its region. -/
def dieLocal (d : Nat) : Nat := d % 16
/-- Die D of tensor die T. -/
def tensorDie (t : Nat) : Nat := 16 * (t / 9) + t % 9 + 1
/-- Tensor-die number T of a tensor die D. -/
def tensorIdx (d : Nat) : Nat := 9 * (d / 16) + (d % 16 - 1)
/-- Die D that carries cell C. -/
def cellDie (c : Nat) : Nat := tensorDie (c / 16)
/-- Die D that carries link L. -/
def linkDie (l : Nat) : Nat := 16 * (l / 9) + 13 + (l % 9) / 3
/-- Die D that carries stack M. -/
def portDie (m : Nat) : Nat := 16 * (m / 6) + 10 + (m % 6) / 2
/-- Whether a die is a hub, tensor, port or link die. -/
def isHub (d : Nat) : Bool := d < 64 && dieLocal d = 0
def isTensor (d : Nat) : Bool := d < 64 && 1 ≤ dieLocal d && dieLocal d ≤ 9
def isPort (d : Nat) : Bool := d < 64 && 10 ≤ dieLocal d && dieLocal d ≤ 12
def isLinkDie (d : Nat) : Bool := d < 64 && 13 ≤ dieLocal d
/-- Physical link die D of logical or physical link die index 0 to 11, and port die likewise (R57). -/
def nthLinkDie (n : Nat) : Nat := 16 * (n / 3) + 13 + n % 3
def nthPortDie (n : Nat) : Nat := 16 * (n / 3) + 10 + n % 3

/-- The windows that a die carries (R23), by the model's number of their kind, and whether the index exists: 0 step sequencer
slice, 1 governor slice, 2 silt lane root, 3 interval timer, 4 control processor, 5 security engine, 6 PCIe port, 7 stream engine,
8 update unit, 9 pool engine, 10 census counters, 11 reduction unit, 12 dispatch engine, 13 link buffers, 14 arbiter and error
collector, 15 die controller. BLK_ID has the code of R26 (`kindCode`). -/
def subExists (d kind idx : Nat) : Bool :=
  d < 64 &&
  (((kind ≤ 6 || kind = 14) && isHub d && idx = 0) || (kind = 7 && (isTensor d || isPort d) && idx < 8) ||
   (8 ≤ kind && kind ≤ 10 && isPort d && idx = 0) || (11 ≤ kind && kind ≤ 13 && isLinkDie d && idx = 0) ||
   (kind = 15 && !isHub d && idx = 0))

/-- The unit kind of R26: place in R23's table, row by row from 0, the first column included (DEDUCED, assumption 121). -/
def kindCode (kind : Nat) : Nat := if kind = 14 then 0 else if kind ≤ 6 then kind + 1 else if kind = 15 then 8 else kind + 2

/-- The window kind of a code of R26. -/
def kindOf (code : Nat) : Nat := if code = 0 then 14 else if code ≤ 7 then code - 1 else if code = 8 then 15 else code - 2

/-- Whether a unit of service exists. -/
def SUnit.valid : SUnit → Bool
  | .cell n => n < 576
  | .die n => n < 64
  | .region n => n < 4
  | .link n => n < 36
  | .stack n => n < 24
  | .sub d k i => subExists d k i
  | .chip => true

/-- Whether a unit that executes actions exists (R82). -/
def UnitId.valid : UnitId → Bool
  | .cell c _ => c < 576
  | .se d e => (isTensor d || isPort d) && e < 8
  | .uu d => isPort d
  | .ru d => isLinkDie d
  | .de d => isLinkDie d

/-! ## Block addresses (R22, R23) -/

def regionBase (r : Nat) : Nat := 0x01000000 + r * 0x01000000
def dieBase (d : Nat) : Nat := regionBase (dieRegion d) + 0x00100000 + dieLocal d * 0x00010000
def cellBase (c : Nat) : Nat := dieBase (cellDie c) + 0x4000 + (c % 16) * 0x0400
def linkBase (l : Nat) : Nat := 0x08000000 + l * 0x00010000
def stackBase (m : Nat) : Nat := 0x09000000 + m * 0x00010000

/-- Base of a sub-unit window by die, kind code and index (R23). -/
def subBase (d kind idx : Nat) : Nat :=
  dieBase d +
  (match kind with
   | 0 => 0x4000 | 1 => 0x5000 | 2 => 0x6000 | 3 => 0x7000 | 4 => 0x8000 | 5 => 0xA000 | 6 => 0xC000
   | 7 => 0x8000 + idx * 0x0800 | 8 => 0xC000 | 9 => 0xE000 | 10 => 0xF000 | 11 => 0x4000 | 12 => 0x6000
   | 13 => 0x8000 | _ => 0x0400)

/-- Base of a unit's block or window. -/
def SUnit.base : SUnit → Nat
  | .cell n => cellBase n
  | .die n => dieBase n
  | .region n => regionBase n
  | .link n => linkBase n
  | .stack n => stackBase n
  | .sub d k i => subBase d k i
  | .chip => 0

/-- The window of a die block that an offset lies in: a unit and the offset within its window (R23). -/
def windowAt (d x : Nat) : Option (SUnit × Nat) :=
  if x < 0x0400 then some (.die d, x)
  else if x < 0x4000 then some (.sub d (if isHub d then 14 else 15) 0, x - 0x0400)
  else if isHub d then
    (if x < 0x5000 then some (.sub d 0 0, x - 0x4000) else if x < 0x6000 then some (.sub d 1 0, x - 0x5000)
     else if x < 0x7000 then some (.sub d 2 0, x - 0x6000) else if x < 0x8000 then some (.sub d 3 0, x - 0x7000)
     else if x < 0xA000 then some (.sub d 4 0, x - 0x8000) else if x < 0xC000 then some (.sub d 5 0, x - 0xA000)
     else if x < 0xE000 then some (.sub d 6 0, x - 0xC000) else none)
  else if isTensor d then
    (if x < 0x8000 then some (.cell (16 * tensorIdx d + (x - 0x4000) / 0x400), x % 0x400)
     else if x < 0xC000 then some (.sub d 7 ((x - 0x8000) / 0x800), x % 0x800) else none)
  else if isPort d then
    (if x < 0x8000 then none
     else if x < 0xC000 then some (.sub d 7 ((x - 0x8000) / 0x800), x % 0x800)
     else if x < 0xE000 then some (.sub d 8 0, x - 0xC000) else if x < 0xF000 then some (.sub d 9 0, x - 0xE000)
     else some (.sub d 10 0, x - 0xF000))
  else
    (if x < 0x6000 then some (.sub d 11 0, x - 0x4000) else if x < 0x8000 then some (.sub d 12 0, x - 0x6000)
     else if x < 0xC000 then some (.sub d 13 0, x - 0x8000) else none)

/-- The block or window that a BAR0 offset lies in, with the offset within it; none for reserved space (R22, R23). -/
def unitAt (a : Nat) : Option (SUnit × Nat) :=
  if a < 0x01000000 then some (.chip, a)
  else if a < 0x05000000 then
    let r := a / 0x01000000 - 1
    let o := a % 0x01000000
    if o < 0x00100000 then some (.region r, o)
    else if o < 0x00200000 then windowAt (16 * r + (o - 0x00100000) / 0x10000) (o % 0x10000)
    else none
  else if 0x08000000 ≤ a ∧ a < 0x08240000 then some (.link ((a - 0x08000000) / 0x10000), a % 0x10000)
  else if 0x09000000 ≤ a ∧ a < 0x09180000 then some (.stack ((a - 0x09000000) / 0x10000), a % 0x10000)
  else none

/-- The region whose timer a unit measures on (R258). -/
def SUnit.region' : SUnit → Nat
  | .cell n => dieRegion (cellDie n)
  | .die n => dieRegion n
  | .region n => n
  | .link n => n / 9
  | .stack n => n / 6
  | .sub d _ _ => dieRegion d
  | .chip => 0

/-- The block or window of a unit that executes actions: where its action check stands (R457). -/
def UnitId.sunit : UnitId → SUnit
  | .cell c _ => .cell c
  | .se d e => .sub d 7 e
  | .uu d => .sub d 8 0
  | .ru d => .sub d 11 0
  | .de d => .sub d 12 0

/-- The die of an executing unit. -/
def UnitId.die : UnitId → Nat
  | .cell c _ => cellDie c
  | .se d _ => d
  | .uu d => d
  | .ru d => d
  | .de d => d

/-- The place of a unit's local tokens (R42). -/
def UnitId.place : UnitId → Machine.TokPlace
  | .cell c _ => .cell c
  | u => .die u.die

/-- A unit and the units that contain it, nearest first. -/
def SUnit.chain : SUnit → List SUnit
  | .cell n => [.cell n, .die (cellDie n), .region (dieRegion (cellDie n)), .chip]
  | .die n => [.die n, .region (dieRegion n), .chip]
  | .region n => [.region n, .chip]
  | .link n => [.link n, .die (linkDie n), .region (n / 9), .chip]
  | .stack n => [.stack n, .die (portDie n), .region (n / 6), .chip]
  | .sub d k i => [.sub d k i, .die d, .region (dieRegion d), .chip]
  | .chip => [.chip]

/-- Control processor, security engine and PCIe port of D16, D32 and D48 (R14). -/
def SUnit.standby : SUnit → Bool
  | .sub d k _ => d ≠ 0 && isHub d && 4 ≤ k && k ≤ 6
  | _ => false

/-! ## Packets -/

/-- H_FLAGS bits of R404. -/
def Packet.ctxv (p : Packet) : Bool := p.flags.getLsbD 0
def Packet.wantsVec (p : Packet) : Bool := p.flags.getLsbD 1
def Packet.chain (p : Packet) : Bool := p.flags.getLsbD 2
/-- Whether a packet's chain ends at its own misaligned H_NEXT (R404). -/
def Packet.badNext (p : Packet) : Bool := p.chain && p.nxt.toNat % 64 ≠ 0

/-- The context a packet names. -/
def Packet.ctxNum (p : Packet) : Nat := p.ctx.toNat % 16
/-- Parameter n (R409); an absent one is 0. -/
def Packet.arg (p : Packet) (n : Nat) : Nat := (p.payload.getD n 0).toNat

end Sys2Proof

namespace Sys2Proof.Machine
open Sys2Proof

/-! ## Running a meaning -/

/-- A meaning that changes the core only: rails, governor and security engine stay as they are. -/
def State.onCore (s : State) (f : Dev → Core) : Host.Outcome State Fault Refusal :=
  .next { s with dev := { s.dev with c := f s.dev } }

/-- A meaning that may change the whole device. -/
def State.onDev (s : State) (f : Dev → Dev) : Host.Outcome State Fault Refusal := .next { s with dev := f s.dev }

/-- A meaning of an event that can only happen at a unit that exists. -/
def State.guard (s : State) (ok : Bool) (f : Dev → Core) : Host.Outcome State Fault Refusal :=
  if ok then s.onCore f else .fault .noSuchUnit

/-- The same for a meaning that may change the whole device. -/
def State.guardDev (s : State) (ok : Bool) (f : Dev → Dev) : Host.Outcome State Fault Refusal :=
  if ok then s.onDev f else .fault .noSuchUnit

/-! ## Registers kept by address -/

/-- A register kept by address; a register that nothing has changed holds its reset value 0. -/
def Core.rget (c : Core) (a : Nat) : Nat := kgetD c.reg a 0

/-- The same register written. -/
def Core.rset (c : Core) (a v : Nat) : Core := { c with reg := kset c.reg a v }

/-- A counting register of `w` bits raised by `n`; past its width the spec states no value (a free value). -/
def Core.bump (c : Core) (a w n : Nat) : Core :=
  c.rset a (if c.rget a + n < 2 ^ w then c.rget a + n else Config.counterOver a (c.rget a + n) % 2 ^ w)

/-- Registers kept by address that keep their value at a warm reset (RWS, R7): BAR0_FAULT_ADDR, and ERR_FIRST and
ERR_ACTION of every block and window. GOV_TRIP stands in the governor. -/
def isRws (a : Nat) : Bool :=
  a = 0x498 || (match unitAt a with | some (_, o) => 0x120 ≤ o && o < 0x160 | none => false)

/-- Time on a region's interval timer, in 10 ns (R258). -/
def Core.now (c : Core) (r : Nat) : Nat := kgetD c.timers r 0

/-! ## Free values -/

/-- One draw taken. -/
def Core.drawn (c : Core) : Core := { c with freeCtr := c.freeCtr + 1 }

/-- A number the device may choose freely among those below `bound` that `ok` admits: the free choice where it is
admitted, else the least admitted one. -/
def Core.pick (c : Core) (bound : Nat) (ok : Nat → Bool) : Option Nat :=
  if Config.choice c.freeCtr < bound ∧ ok (Config.choice c.freeCtr) then some (Config.choice c.freeCtr)
  else leastBelow bound ok

/-! ## Host memory, interrupts, replies -/

/-- Whether DMA reaches a stretch of host memory. -/
def Core.reach (c : Core) (a len : Nat) : Bool := c.unreach.all (fun r => !(overlaps a len r.1 (r.2 - r.1 + 1)))

/-- A DMA write into host memory (R397): visible in order. -/
def Core.dma (c : Core) (a : Nat) (b : List Byte) : Core :=
  { c with hostMem := mputs c.hostMem a b, out := c.out ++ [.dma a b] }

/-- Bytes of host memory read by DMA. -/
def Core.hostRead (c : Core) (a len : Nat) : List Byte := mreadF c.hostMem Config.hostByte a len

/-- MSI-X vector control of vector v: bit 0 masks it (R399, R425). -/
def msixCtl (v : Nat) : Nat := 0x00F0000C + 16 * v

/-- An MSI-X message sent, or its pending bit set while the vector is masked (R425). -/
def Core.msix (c : Core) (v : Nat) : Core :=
  if kgetD c.reg (msixCtl v) 1 % 2 = 1 then { c with msixPend := if v ∈ c.msixPend then c.msixPend else c.msixPend ++ [v] }
  else { c with out := c.out ++ [.msix v] }

/-- A DEV_EVENT bit set; vector 0 when it becomes set (R425, R427). -/
def Core.devEvent (c : Core) (i : Nat) : Core :=
  if c.event.getLsbD i then c else ({ c with event := c.event ||| (1#32 <<< i) }).msix 0

/-- A record written at a host address that the command names: status 0x0102 where DMA cannot reach it (R419). -/
def Core.hostRecord (c : Core) (a : Nat) (r : List Byte) : Option Core :=
  if c.reach a r.length then some (c.dma a r) else none

/-- The reply record of R412. -/
def replyRecord (p : Packet) (status info : Nat) (vals : List Nat) (chainEnded : Bool) (time : Nat) : List Byte :=
  leBytes p.seq.toNat 4 ++ leBytes p.opcode.toNat 2 ++ leBytes status 2 ++
  leBytes (p.ctxNum + 16 * b2n p.ctxv) 1 ++ leBytes (1 + 2 * b2n chainEnded + 4 * b2n p.fetched) 1 ++
  leBytes (p.slot % 512) 2 ++ leBytes info 4 ++
  leBytes (vals.getD 0 0) 8 ++ leBytes (vals.getD 1 0) 8 ++ leBytes (vals.getD 2 0) 8 ++ leBytes (vals.getD 3 0) 8 ++
  leBytes time 8 ++ leBytes (p.seq.toNat + 0xA55A * 2 ^ 32) 8

/-- A busy slot frees on the reply of the packet last taken from it (R402). -/
def Core.freeSlot (c : Core) (p : Packet) : Core :=
  if kget c.busy p.slot = some p then { c with busy := kdel c.busy p.slot } else c

/-- A reply written, or left unwritten with DEV_EVENT[8] where its address is misaligned or not reached, or with
nothing where H_REPLY is 0; then the vector, if one in range was asked for (R413). -/
def Core.writeReply (c : Core) (p : Packet) (r : List Byte) : Core :=
  let c1 :=
    if p.reply = 0 then c
    else if p.reply.toNat % 64 ≠ 0 then c.devEvent 8
    else if c.reach p.reply.toNat 64 then (c.dma p.reply.toNat r).freeSlot p
    else c.devEvent 8
  if p.wantsVec ∧ 1 ≤ p.vec.toNat ∧ p.vec.toNat ≤ 15 then c1.msix p.vec.toNat else c1

/-- A command completes or fails: its reply is written at once, or held while the fetch of its H_NEXT is not over (R413). -/
def Core.finishI (c : Core) (p : Packet) (status info : Nat) (vals : List Nat) : Core :=
  match findIx c.chains (fun x => x.pkt = p && x.held.isNone) with
  | some i =>
    if ((c.chains[i]?).map (fun x => x.ended)).getD false then
      { c with chains := dropAt c.chains i }.writeReply p (replyRecord p status info vals true (c.now 0))
    else { c with chains := modAt c.chains i (fun x => { x with held := some (replyRecord p status info vals false (c.now 0)) }) }
  | none => (if p.badNext then c.devEvent 2 else c).writeReply p (replyRecord p status info vals p.badNext (c.now 0))

/-- The common case: no R_INFO. -/
def Core.finish (c : Core) (p : Packet) (status : Nat) (vals : List Nat) : Core := c.finishI p status 0 vals

/-- Waiting commands that a test selects leave the list and reply with a status. -/
def Core.replyWaiting (c : Core) (sel : Waiting → Bool) (status : Nat) (vals : List Nat) : Core :=
  (c.waiting.filter sel).foldl (fun c w => c.finish w.pkt status vals) { c with waiting := c.waiting.filter (fun w => !sel w) }

/-! ## Contexts -/

/-- The context of a number, if it exists. -/
def Core.ctx? (c : Core) (n : Nat) : Option Ctx := kget c.ctxs n

/-- A context changed. -/
def Core.modCtx (c : Core) (n : Nat) (f : Ctx → Ctx) : Core := { c with ctxs := kmod c.ctxs n f }

/-- A context's run changed. -/
def Core.modRun (c : Core) (n : Nat) (f : Run → Run) : Core := c.modCtx n (fun x => { x with run := x.run.map f })

/-- A context's step flags changed. -/
def Core.modStep (c : Core) (n : Nat) (f : StepSt → StepSt) : Core := c.modRun n (fun r => { r with step := f r.step })

/-- Whether a context has a run started (R491). -/
def Core.runStarted (c : Core) (n : Nat) : Bool := match c.ctx? n with | some x => x.run.isSome | none => false

/-- Whether any context has a run started: units are idle otherwise (R465). -/
def Core.anyRun (c : Core) : Bool := c.ctxs.any (fun e => e.2.run.isSome)

/-- Whether any job is bound to the device. -/
def Core.anyJob (c : Core) : Bool := c.ctxs.any (fun e => e.2.job.isSome)

/-- The context bound to a job identifier (R367). -/
def Core.jobCtx (c : Core) (job : Nat) : Option Nat :=
  (c.ctxs.find? (fun e => match e.2.job with | some j => j.job = job | none => false)).map Prod.fst

/-- A fresh step (R67, R275). -/
def StepSt.fresh : StepSt :=
  { abandon := none, abandonSent := false, contributed := false, contribPending := false, nonfinite := false,
    verdict := none, emptyTiles := 0, lateTiles := 0, normSq := 0, pushLanded := [] }

/-- An empty ring setting. -/
def Ring.off : Ring := { base := 0, entries := 1, enabled := false }

/-- A new context (R78, R122, R128, R138, R178, R184, R294, R301, R421). -/
def Ctx.fresh (conf : Bool) : Ctx :=
  { conf := conf, stopped := false, strict := false, lsum := 12, haltOnTrap := false, floorF := 0, floorQ := 0,
    floorLost := [], tabPlots := [], flags := [], progs := [], run := none, lastStep := 0, tables := [], absent := [],
    kvEntries := none, pages := [], freeLists := [], objs := [], sealArea := [], dataKey := none,
    faultRing := Ring.off, verdictRing := Ring.off, censusRing := Ring.off, fSeq := 0, vSeq := 0, snapSeq := 0,
    stallMs := 200, parkMs := 10000, deadline := 10000, liveMs := 50, stash := 0, spill := 0, stashHigh := 0,
    ledger := [], census := [], trap := none, snapshot := none,
    loss := { e := 0, k := 0, clean := 0, applied := 0, addr := 0, flagOn := false, flag := 0 },
    updStat := { step := 0, sched := 0, kappa := 0, gnorm := 0, overrun := 0 }, exports := [], bedrock := [],
    job := none, vnode := { got := [], later := [], decided := none, latest := none, polling := none, polled := none },
    absurdNext := false, lateNonfinite := false, lateCause := none, nodes := [], redEvs := [], cbuf := [], disps := [], pushGot := [], pend := [] }

/-- A step number in its 40 bits. -/
def stepMod (n : Nat) : Nat := n % 2 ^ 40

/-- The running context's step number, 0 with no run. -/
def Core.stepNow (c : Core) : Nat :=
  match c.cur with
  | some n => (match c.ctx? n with | some x => (match x.run with | some r => r.stepNo | none => 0) | none => 0)
  | none => 0

/-! ## Service states, fences (R17, R27, R28) -/

/-- Whether a unit is removed by the device's own decision. -/
def Core.isFenced (c : Core) (u : SUnit) : Bool := u.chain.any (fun v => v ∈ c.fenced)
/-- Whether a unit is removed by command. -/
def Core.isDisabled (c : Core) (u : SUnit) : Bool := u.chain.any (fun v => v ∈ c.disabled)
/-- Whether a unit is in service. -/
def Core.usable (c : Core) (u : SUnit) : Bool := !(c.isFenced u) && !(c.isDisabled u)

/-- What a disable removes: a hub die takes its region with it, as a fence of it would (R17). -/
def disableSet : SUnit → List SUnit
  | .die d => if isHub d then [.die d, .region (dieRegion d)] else [.die d]
  | u => [u]

/-- BLK_STATE[3:0] (R27); a unit both fenced and disabled reads fenced (R467). Pending is read only for a disable that waits for a
settle point, of the unit or of one that contains it (R466). -/
def Core.blkState (c : Core) (u : SUnit) : Nat :=
  if c.isFenced u then 1 else if c.isDisabled u then 2 else if u.standby then 3
  else if c.pendSvc.any (fun q => !q.enable && (disableSet q.u).any (fun v => u.chain.contains v)) then 4 else 0

/-- Usable cells of tensor die T, ascending (R71, R72). -/
def Core.usableCells (c : Core) (t : Nat) : List Nat :=
  ((List.range 16).map (fun i => 16 * t + i)).filter (fun n => c.usable (.cell n))

/-- Usable regions, ascending (R72). -/
def Core.usableRegions (c : Core) : List Nat := (List.range 4).filter (fun r => c.usable (.region r))

/-- Whether a stack exists and is in service. -/
def Core.stackOk (c : Core) (m : Nat) : Bool := m < 24 && c.usable (.stack m)

/-! ## Steps cleared -/

/-- A slot key of the running columns: everything a step holds in the units is dropped (a context stop, a reset). -/
def Core.clearUnits (c : Core) : Core :=
  { c with cols := [], evs := [], toks := [], used := [], wins := [], aps := [], landing := [], intake := [],
           engines := c.engines.map (fun e => (e.1, { e.2 with pass := none, armed := [], stopping := false })),
           silt := [], sweeps := [], pushTags := [] }

/-- An action that has formed no NaN event yet (R134). -/
def ActEvs.none : ActEvs := { count := 0, input := false, best := Option.none, told := false }

/-- Every link goes down: the flits it has not had acknowledged are discarded and counted, partial messages dropped (R345). -/
def Core.linksDown (c : Core) : Core :=
  c.links.foldl (fun c1 e => c1.bump (linkBase e.1 + 0x43C) 32 e.2.replay.length)
    { c with
      links := c.links.map (fun (e : Nat × Link) => (e.1, { e.2 with st := .down, replay := [], rx := [], local_ := [] })),
      transit := [], requests := [], reads := [] }

/-- The chip stops at once (R21): every context stops, links stop, every outstanding command replies 0x0612 unless the
host port is down, and DEV_EVENT[3] is set. -/
def Core.chipStop (c : Core) (port : Bool) : Core :=
  if c.devState = .stopped then c
  else
    let out := c.waiting.map (fun w => w.pkt) ++ c.taken
    let c1 := { c.clearUnits.linksDown with
      devState := .stopped, cur := none, seqErr := true, waiting := [], taken := [], copies := [], gated := List.range 576,
      sram := [], sramEpoch := c.sramEpoch + 1, lineCnt := [],
      chains := if port then c.chains else [],
      ctxs := c.ctxs.map (fun (e : Nat × Ctx) => (e.1, { e.2 with stopped := true, run := none, job := none })) }
    let c2 := if port then out.foldl (fun c p => c.finish p 0x0612 []) c1 else c1
    let c3 := if port then (keys c.ctxs).foldl (fun c n => c.msix (18 + 3 * n)) c2 else c2
    c3.devEvent 3

/-! ## Errors (R456 to R462) -/

/-- A 64-bit word of a unit's first-error or action record. -/
def recAt (u : SUnit) (off : Nat) : Nat := u.base + off

/-- Whether a unit already owes a test. -/
def Core.owes (c : Core) (u : SUnit) : Bool := c.owed.any (fun o => o.u = u)

/-- A targeted self-test owed (R456, R465): ERR_PENDING of its detector, ST_STATE owed. -/
def Core.owe (c : Core) (u : SUnit) (det : Nat) (word : Option Nat) : Core :=
  let c1 := { c with owed := c.owed ++ [Owed.mk u det word] }
  let c2 := c1.rset (u.base + 0x104) (c1.rget (u.base + 0x104) ||| 2 ^ det)
  c2.rset (u.base + 0x200) (c2.rget (u.base + 0x200) / 16 * 16 + 3)

/-- ERR_FIRST written if it is not valid, else EF_MORE raised (R456, R461). -/
def Core.firstError (c : Core) (u : SUnit) (det wher synd : Nat) (limit injected : Bool) : Core :=
  if bit (c.rget (recAt u 0x120)) 63 then
    let w := c.rget (recAt u 0x138)
    c.rset (recAt u 0x138) (w % 2 ^ 32 + 2 ^ 32 * min (w / 2 ^ 32 + 1) (2 ^ 32 - 1))
  else
    ((((c.rset (recAt u 0x128) (c.now u.region')).rset (recAt u 0x130) wher).rset (recAt u 0x138) (synd % 2 ^ 32)).rset
      (recAt u 0x120)
      (stepMod c.stepNow + 2 ^ 40 * (c.cur.getD 0) + 2 ^ 48 * det + 2 ^ 53 * b2n limit + 2 ^ 54 * b2n injected + 2 ^ 63))

/-- An error of a detector (R456): flag, count, first-error record, and the self-test it owes. -/
def Core.error (c : Core) (u : SUnit) (det wher synd : Nat) (limit injected owes : Bool) : Core :=
  let c1 := (c.rset (u.base + 0x100) (c.rget (u.base + 0x100) ||| 2 ^ det)).bump (u.base + 0x110) 32 1
  let c2 := c1.firstError u det wher synd limit injected
  if owes then c2.owe u det none else c2

/-- Corrections of a detector (R456), their times kept for R458. -/
def Core.correction (c : Core) (u : SUnit) (det n : Nat) : Core :=
  let l := kgetD c.corrs (u, det) [] ++ List.replicate n (c.now u.region')
  { c.bump (u.base + 0x108) 64 n with corrs := kset c.corrs (u, det) (l.drop (l.length - 1024)) }

/-- The injection control of a detector (R463). -/
def injAddr (u : SUnit) (det : Nat) : Nat := u.base + 0x180 + 8 * det

/-- One check that an armed control alters (R464): its MODE, and the control with one injection fewer. COUNT stands in
[55:48]; ARM clears after the last. -/
def Core.inject (c : Core) (u : SUnit) (det : Nat) : Option Nat × Core :=
  let w := c.rget (injAddr u det)
  if bit w 63 then
    let n := bits w 55 48
    let w1 := w - 2 ^ 48
    let w2 := if n ≤ 1 then w1 - 2 ^ 63 else w1
    (some (bits w 61 60), (c.rset (injAddr u det) w2).bump (u.base + 0x11C) 32 1)
  else (none, c)

/-! ## Translation and access (R34 to R37, R223 to R225) -/

/-- Bytes of a plot. -/
def plotBytes : Nat := 0x200000
/-- First address beyond the HBM range, and the host-tier window (R35). -/
def hbmEnd : Nat := 0x018000000000
def winLo : Nat := 0x080000000000
def winEnd : Nat := 0x180000000000

/-- Where an access lands. -/
inductive Place where
  /-- HBM byte of the chip: stack × 64 GiB + physical byte; object index -/
  | hbm (phys idx : Nat)
  /-- host-tier window: frame and host bus address; object index -/
  | host (frame bus idx : Nat)
  /-- stream-fault cause of R181, with the object's handle -/
  | fault (cause handle : Nat)
  deriving DecidableEq, Repr

/-- The handle of an object (R226). -/
def handleOf (ctx idx gen : Nat) : Nat := ctx * 2 ^ 28 + (gen % 4096) * 2 ^ 16 + idx

/-- Bytes an object spans. -/
def Obj.size (o : Obj) : Nat := (if o.window then o.nwin else o.plots.length) * plotBytes

/-- The object of a context whose address plots hold a local address, one that is being freed included. -/
def Ctx.holderAt (x : Ctx) (a : Nat) : Option (Nat × Obj) :=
  x.objs.find? (fun e => e.2.base ≤ a && a < e.2.base + e.2.size)

/-- The object of a context that holds a local address. -/
def Ctx.objAt (x : Ctx) (a : Nat) : Option (Nat × Obj) :=
  match x.holderAt a with
  | some e => if e.2.freeing then none else some e
  | none => none

/-- The object that a handle names in a context: index and generation must match (R226). -/
def Ctx.objOf (x : Ctx) (n h : Nat) : Option (Nat × Obj) :=
  if h < 2 ^ 32 ∧ h / 2 ^ 28 = n ∧ h % 2 ^ 16 ≠ 0 then
    match kget x.objs (h % 2 ^ 16) with
    | some o => if o.gen = h / 2 ^ 16 % 4096 ∧ o.freeing = false then some (h % 2 ^ 16, o) else none
    | none => none
  else none

/-- Translation of a local address through a context (R224, R225, R240). -/
def Core.locate (c : Core) (n a : Nat) : Place :=
  match c.ctx? n with
  | none => .fault 4 0
  | some x =>
    match x.objAt a with
    | none => .fault 4 0
    | some (i, o) =>
      let h := handleOf n i o.gen
      if o.window then
        let f := (a - winLo) / plotBytes
        match kget c.frames f with
        | some fr => if fr.ctx = n ∧ ¬ fr.spill then .host f (fr.addr + a % plotBytes) i else .fault 4 h
        | none => .fault 4 h
      else
        let m := a / 2 ^ 36
        if c.stackOk m then
          match o.plots[(a - o.base) / plotBytes]? with
          | none => .fault 4 h
          | some e =>
            match e.st with
            | .resident => .hbm (m * 2 ^ 36 + e.phys * plotBytes + a % plotBytes) i
            | .host => .fault 1 h
            | .empty => .fault 1 h
            | .arriving => .fault 2 h
            | .leaving => .fault 2 h
        else .fault 4 h

/-- The metadata of an HBM word: clean with its owner's tag when not listed (R247). -/
def Core.wordBad (c : Core) (phys ctx gen idx : Nat) : Bool :=
  match kget c.words (phys / 64) with
  | none => false
  | some w => w.pois || w.ctx ≠ ctx || w.gen ≠ gen % 16 || w.idx ≠ idx

/-- Stretches of a range that stay within one 64-byte word. -/
def chunks (a : Nat) : Nat → Nat → List (Nat × Nat)
  | 0, _ => []
  | fuel + 1, len => if len = 0 then [] else
      let k := min len (64 - a % 64)
      (a, k) :: chunks (a + k) fuel (len - k)

/-- The additional data of a sealed unit (R440). -/
def sealAad (n frame unit keyId : Nat) : List Byte := leBytes n 1 ++ leBytes frame 4 ++ leBytes unit 2 ++ leBytes keyId 8

/-- A sealed unit read whole, authenticated and opened (R440, R441). Cause 4 without a seal area; cause 7 stands for
an authentication failure, reported as poison. -/
def Core.readUnit (c : Core) (n frame unit : Nat) : Except Nat (List Byte) :=
  match c.ctx? n with
  | none => .error 4
  | some x =>
    match kget x.sealArea frame, kget c.frames frame, x.dataKey with
    | some ar, some fr, some k =>
      let ct := c.hostRead (fr.addr + unit * 4096) 4096
      let en := c.hostRead (ar + 32 * unit) 32
      match Config.gcmOpen k.key (fieldAt en 0 12) (sealAad n frame unit k.keyId) ct (en.drop 16) with
      | some pt => .ok pt
      | none => .error 7
    | _, _, _ => .error 4

/-- One stretch within a word or a host page, read through a context (R225, R248, R401, R441). Causes: 1, 2, 4 of R181, 5 poison,
7 authentication failure. -/
def Core.readChunk (c : Core) (n a len : Nat) : Except Nat (List Byte) :=
  match c.ctx? n with
  | none => .error 4
  | some x =>
    match c.locate n a with
    | .fault k _ => .error k
    | .hbm p i =>
      let g := match kget x.objs i with | some o => o.gen | none => 0
      if c.wordBad p n g i then .error 5 else .ok (mreadZ c.hbm p len)
    | .host f bus _ =>
      if x.conf then
        match c.readUnit n f (a % plotBytes / 4096) with
        | .ok pt => .ok ((pt.drop (a % 4096)).take len)
        | .error k => .error k
      else .ok (c.hostRead bus len)

/-- Bytes read through a context; the first failing stretch decides. -/
def Core.readBytes (c : Core) (n a len : Nat) : Except Nat (List Byte) :=
  (chunks a (len + 1) len).foldl (fun acc k => match acc with
    | .error e => .error e
    | .ok l => match c.readChunk n k.1 k.2 with
      | .ok b => .ok (l ++ b)
      | .error e => .error e) (.ok [])

/-- HBM bytes written (R248): a whole aligned word takes new data and a clean tag; a narrower write merges and leaves a
poisoned word poisoned. -/
def Core.putHbm (c : Core) (p : Nat) (b : List Byte) : Core :=
  { c with hbm := mputsZ c.hbm p b, words := if p % 64 = 0 ∧ b.length = 64 then kdel c.words (p / 64) else c.words }

/-- One stretch written through a context. -/
def Core.writeChunk (c : Core) (n a : Nat) (b : List Byte) : Except Nat Core :=
  match c.locate n a with
  | .fault k _ => .error k
  | .hbm p _ => .ok (c.putHbm p b)
  | .host _ bus _ => .ok (c.dma bus b)

/-- Bytes written through a context; earlier stretches stay written when a later one fails. -/
def Core.writeBytes (c : Core) (n a : Nat) (b : List Byte) : Except (Nat × Core) Core :=
  (chunks a (b.length + 1) b.length).foldl (fun acc k => match acc with
    | .error e => .error e
    | .ok c1 => match c1.writeChunk n k.1 ((b.drop (k.1 - a)).take k.2) with
      | .ok c2 => .ok c2
      | .error e => .error (e, c1)) (.ok c)

/-- An object touched (R235): O_AGE 0 and the step number. -/
def Core.touch (c : Core) (n idx : Nat) : Core :=
  let st := match c.ctx? n with | some x => (match x.run with | some r => r.stepNo | none => x.lastStep) | none => 0
  c.modCtx n (fun x => { x with objs := kmod x.objs idx (fun o => { o with age := 0, touch := stepMod st }) })

/-- The object at an address touched. -/
def Core.touchAt (c : Core) (n a : Nat) : Core :=
  match c.ctx? n with
  | some x => (match x.objAt a with | some (i, _) => c.touch n i | none => c)
  | none => c

/-- HBM words poisoned at a physical byte address (R248): data unchanged, POIS set. -/
def Core.poison (c : Core) (p : Nat) : Core :=
  let w := kgetD c.words (p / 64) { ctx := 0, gen := 0, idx := 0, pois := true }
  { c with words := kset c.words (p / 64) { w with pois := true } }

/-! ## Reading an object by handle (R493) -/

/-- "GNW-SPILL", the info of the spill key (R246). -/
def spillInfo : List Byte := [0x47, 0x4E, 0x57, 0x2D, 0x53, 0x50, 0x49, 0x4C, 0x4C]

/-- One byte of an object's contents as R493 reads it: resident plots in place, host plots from their frame, empty
plots as zero, window objects in host memory. Error 5 for poison, 7 for an authentication failure. -/
def Core.objByte (c : Core) (n : Nat) (i : Nat) (o : Obj) (off : Nat) : Except Nat Byte :=
  let x := (c.ctx? n).getD (Ctx.fresh false)
  if o.window then
    match c.readChunk n (o.base + off) 1 with
    | .ok (b :: _) => .ok b
    | .ok [] => .error 5
    | .error e => .error e
  else
    match o.plots[off / plotBytes]? with
    | none => .error 5
    | some e =>
      let m := (o.base + off) / 2 ^ 36
      let p := m * 2 ^ 36 + e.phys * plotBytes + off % plotBytes
      let fromFrame : Except Nat Byte :=
        match e.frame with
        | none => .error 5
        | some f =>
          match kget c.frames f with
          | none => .error 5
          | some fr =>
            if e.poison then .error 5
            else if x.conf then
              match x.dataKey with
              | none => .error 7
              | some k =>
                match Config.gcmOpen (Config.hkdf [] k.key (spillInfo ++ leBytes n 1) 32)
                    e.nonce (leBytes n 1 ++ leBytes m 1 ++ leBytes ((o.base + off) / plotBytes) 4 ++ leBytes (handleOf n i o.gen) 4)
                    (c.hostRead fr.addr plotBytes) e.tag with
                | some pt => .ok (pt.getD (off % plotBytes) 0)
                | none => .error 7
            else .ok ((c.hostRead (fr.addr + off % plotBytes) 1).getD 0 0)
      match e.st with
      | .empty => .ok 0
      | .host => fromFrame
      | .arriving => if e.frame.isSome then fromFrame else .ok 0
      | .resident => if c.wordBad p n o.gen i then .error 5 else .ok ((mget c.hbm p).getD 0)
      | .leaving => if c.wordBad p n o.gen i then .error 5 else .ok ((mget c.hbm p).getD 0)

/-- The first `len` bytes from `off` of an object, read by handle. -/
def Core.objBytes (c : Core) (n i : Nat) (o : Obj) (off len : Nat) : Except Nat (List Byte) :=
  (List.range len).foldl (fun acc k => match acc with
    | .error e => .error e
    | .ok l => match c.objByte n i o (off + k) with
      | .ok b => .ok (l ++ [b])
      | .error e => .error e) (.ok [])

end Sys2Proof.Machine
end

