-- ==== Sys2Proof/Machine/Net.lean ====
section
/-!
DEFINITION. Sending on the Tricel links: message kinds and classes, routing, credits, the replay buffer, and requests
that await a completion (R337 to R353).
-/
namespace Sys2Proof.Machine
open Sys2Proof

/-- Message kinds (R338). -/
def kRead : Nat := 0x08
def kReadData : Nat := 0x09
def kWrite : Nat := 0x0A
def kWriteDone : Nat := 0x0B
def kContrib : Nat := 0x10
def kNull : Nat := 0x11
def kPush : Nat := 0x18
def kPushReq : Nat := 0x19
def kDispCount : Nat := 0x20
def kDispGrant : Nat := 0x21
def kDispRow : Nat := 0x22
def kCombRow : Nat := 0x23
def kVerdContrib : Nat := 0x28
def kVerdRecord : Nat := 0x29
def kBeat : Nat := 0x2A
def kLoss : Nat := 0x2B

/-- The kinds that are link-local, and those that are defined at all (R338). -/
def linkLocal (k : Nat) : Bool := k = 1 || k = 2 || k = 3
def kindDefined (k : Nat) : Bool :=
  linkLocal k || k ∈ [0x08, 0x09, 0x0A, 0x0B, 0x10, 0x11, 0x18, 0x19, 0x20, 0x21, 0x22, 0x23, 0x28, 0x29, 0x2A, 0x2B]

/-- The class of a kind (R338): 0 control, 1 reply, 2 bulk. -/
def kindClass (k : Nat) : Nat :=
  if k = kReadData then 1
  else if k ∈ [kRead, kWrite, kContrib, kPush, kDispRow, kCombRow] then 2 else 0

/-- Kinds that await a completion (R347). -/
def awaits (k : Nat) : Bool := k ∈ [kRead, kWrite, kPush, kDispCount, kDispRow, kCombRow]

/-- A link's state, as reset where nothing has changed it. -/
def Core.link (c : Core) (l : Nat) : Link := kgetD c.links l Link.reset

/-- A link changed. -/
def Core.modLink (c : Core) (l : Nat) (f : Link → Link) : Core := { c with links := kset c.links l (f (c.link l)) }

/-- The link leaves service in a state: its unacknowledged flits are discarded and counted, partial messages discarded (R345).
The neighbour learnt at training stays, since a routing entry may name the link for the group it belongs to (R349). -/
def Core.endLink (c : Core) (l : Nat) (st : LinkSt) : Core :=
  let k := c.link l
  (c.modLink l (fun k => { k with
    st := st, drain := false, key := none, keyMsgs := 0, rxMsgs := 0, pendKey := false, credReply := 0, credBulk := 0,
    credEscape := 0, replay := [], rx := [], nakked := false, slots := 7, local_ := [] })).bump (linkBase l + 0x43C) 32 k.replay.length

/-- Credits of a class toward the far end; control takes none (R340). -/
def Link.credits (k : Link) : Nat → Nat
  | 1 => k.credReply
  | 2 => k.credBulk
  | 3 => k.credEscape
  | _ => 2 ^ 32

/-- Whether a link is up, not draining, and its die in service (R336, R373). -/
def Core.linkUp (c : Core) (l : Nat) : Bool := l < 36 && (c.link l).st = .up && !(c.link l).drain && c.usable (.link l)

/-- Whether a link is usable for a class and, for an encrypted message, has an agreed key (R336, R350). -/
def Core.linkUsable (c : Core) (l cls : Nat) (enc : Bool) : Bool :=
  c.linkUp l && 1 ≤ (c.link l).credits cls && (!enc || (c.link l).key.isSome)

/-- The links a routing entry's field stands for: every link to the same neighbour as the one it names (R349). -/
def Core.groupOf (c : Core) (named : Nat) : List Nat :=
  if named < 36 then
    (List.range 36).filter (fun l => l = named || (match (c.link l).far, (c.link named).far with
      | some a, some b => a.mapped && b.mapped && a.dev = b.dev
      | _, _ => false))
  else []

/-- The links that an entry gives a class: its candidates, or the escape link (R350, R351). -/
def Core.outLinks (c : Core) (entry cls : Nat) : List Nat :=
  if cls = 3 then c.groupOf (bits entry 29 24)
  else (List.range 36).filter (fun l =>
    l ∈ c.groupOf (bits entry 5 0) || l ∈ c.groupOf (bits entry 11 6) || l ∈ c.groupOf (bits entry 17 12) ||
    l ∈ c.groupOf (bits entry 23 18))

/-- The usable link holding most credits of the class, the lower number on a tie (R350). -/
def Core.bestLink (c : Core) (ls : List Nat) (cls : Nat) (enc : Bool) : Option Nat :=
  (ls.filter (fun l => c.linkUsable l cls enc)).foldl (fun b l => match b with
    | none => some l
    | some b => if (c.link b).credits cls < (c.link l).credits cls then some l else some b) none

/-! ## Flits (R333, R337, R341, R344, R356) -/

/-- A flit that is ready to leave: its message, and its place in it. -/
structure Proto where
  msg : Transit
  idx : Nat
  deriving DecidableEq, Repr

/-- A flit's header with FL_CRC and FL_LSEQ zero (R337). -/
def flitHdr (mtag job kind cls : Nat) (enc : Bool) (idx : Nat) (last : Bool) (len src dst : Nat) : Nat :=
  mtag % 2 ^ 20 * 2 ^ 64 + job % 2 ^ 12 * 2 ^ 52 + kind % 64 * 2 ^ 46 + cls % 4 * 2 ^ 44 + b2n enc * 2 ^ 42 + idx % 32 * 2 ^ 37 +
  b2n last * 2 ^ 36 + (max 1 (cdiv len 16) - 1) % 16 * 2 ^ 30 + src % 2 ^ 15 * 2 ^ 15 + dst % 2 ^ 15

/-- The 256 bytes of a flit: header and payload, the rest zero (assumption log), with the CRC over all of them. -/
def flitBytes (hdr lseq : Nat) (payload : List Byte) : List Byte :=
  let h := hdr + lseq % 4096 * 2 ^ 84
  let p := padTo 240 (payload.take 240)
  leBytes (h + (crc32 (leBytes h 16 ++ p)).toNat * 2 ^ 96) 16 ++ p

/-- The headers of a message of `len` payload bytes, in order. -/
def msgHdrs (t : Transit) (len : Nat) : List Nat :=
  (List.range t.flits).map (fun i =>
    flitHdr t.tag t.job t.kind t.cls t.enc i (i + 1 = t.flits) (min 240 (len - 240 * i)) t.src t.dst)

/-- The additional data of a message: its headers as they stand in clear (R356; FL_CRC and FL_LSEQ taken as zero, assumption log). -/
def hdrsAad (hs : List Nat) : List Byte := hs.flatMap (fun h => leBytes h 16)

/-- Whether this end of a link comes after the far end in the order of (device, link) (R436): its nonces carry bit 95. -/
def Core.upperEnd (c : Core) (l : Nat) : Bool :=
  let own := if c.dnValid then c.devNum else 0
  match (c.link l).far with
  | some f => f.dev < own || (f.dev = own && f.link < l)
  | none => false

/-- The nonce of a message under a link's key (R356): the direction, the messages sent before it. -/
def linkNonce (upper : Bool) (count : Nat) : Nat := 2 ^ 95 * b2n upper + count % 2 ^ 63 * 2 ^ 32

/-- What a message's flits carry on a link: its payload, sealed with the tag at the end for an encrypted message, whose payload is
filled to FL_LEN16's units first. -/
def Core.wireBytes (c : Core) (l : Nat) (t : Transit) : List Byte :=
  match t.enc, (c.link l).key with
  | true, some k =>
    let clear := padTo (16 * cdiv t.payload.length 16) t.payload
    let sealed := Config.gcmSeal k (linkNonce (c.upperEnd l) (c.link l).keyMsgs) (hdrsAad (msgHdrs t (clear.length + 16))) clear
    padTo clear.length sealed.1 ++ padTo 16 sealed.2
  | _, _ => t.payload

/-- The flits of a message. -/
def protos (t : Transit) : List Proto := (List.range t.flits).map (fun i => Proto.mk t i)

/-- A flit's header and payload leave a link: numbered, kept for replay, counted (R344). -/
def Core.emitFlit (c : Core) (l kind tag hdr : Nat) (payload : List Byte) : Core :=
  let k := c.link l
  let b := flitBytes hdr k.txSeq payload
  let c1 := c.modLink l (fun k => { k with
    txSeq := (k.txSeq + 1) % 4096, slots := if kindClass kind = 0 then 0 else min 7 (k.slots + 1),
    replay := k.replay ++ [TxFlit.mk k.txSeq 0 kind tag b] })
  { c1 with out := c1.out ++ [Output.flit l b] }.bump (linkBase l + 0x410) 64 1

/-- One flit of a message leaves a link. With its first flit the message is sealed, so that nonces count messages in the order in
which they start on the link. -/
def Core.emitProto (acc : Core × KMap Nat (List Byte)) (l : Nat) (p : Proto) : Core × KMap Nat (List Byte) :=
  let c := acc.1
  let key := p.msg.src + 2 ^ 15 * p.msg.tag
  let w := if p.idx = 0 then c.wireBytes l p.msg else kgetD acc.2 key []
  let c1 := if p.idx = 0 ∧ p.msg.enc then c.modLink l (fun k => { k with keyMsgs := k.keyMsgs + 1 }) else c
  (c1.emitFlit l p.msg.kind p.msg.tag ((msgHdrs p.msg w.length).getD p.idx 0) ((w.drop (240 * p.idx)).take 240),
    if p.idx = 0 then kset acc.2 key w else acc.2)

/-- The order in which flits leave one output (R341): control first, but at most one slot in 8 while others wait. -/
def slotOrder : Nat → Nat → List Proto → List Proto → List Proto
  | 0, _, ctl, oth => ctl ++ oth
  | _ + 1, _, ctl, [] => ctl
  | _ + 1, _, [], oth => oth
  | fuel + 1, n, p :: ctl, q :: oth => if 7 ≤ n then p :: slotOrder fuel 0 ctl (q :: oth) else q :: slotOrder fuel (n + 1) (p :: ctl) oth

/-- The flits given to one output leave it. -/
def Core.emitAll (c : Core) (l : Nat) (ps : List Proto) : Core :=
  ((slotOrder ps.length (c.link l).slots (ps.filter (fun p => p.msg.cls = 0)) (ps.filter (fun p => p.msg.cls ≠ 0))).foldl
    (fun acc p => Core.emitProto acc l p) (c, [])).1

/-- A link-local flit (R335, R338, R344): ACK and NAK carry the next FL_LSEQ without taking it; the others are kept for replay as any
flit is, and wait while the replay buffer is full. -/
def Core.sendLocal (c : Core) (l kind : Nat) (payload : List Byte) : Core :=
  let own := if c.dnValid then c.devNum else 0
  let far := match (c.link l).far with | some f => if f.mapped then f.dev else 0 | none => 0
  let hdr := flitHdr 0 0 kind 0 false 0 true payload.length own far
  if kind = 1 then { c with out := c.out ++ [Output.flit l (flitBytes hdr (c.link l).txSeq payload)] }
  else if (c.link l).replay.length < 2048 then c.emitFlit l kind 0 hdr payload
  else c.modLink l (fun k => { k with local_ := k.local_ ++ [(kind, payload)] })

/-- The credits that a message spends on a link (R340). -/
def Core.spend (c : Core) (l : Nat) (t : Transit) : Core :=
  c.modLink l (fun k => { k with
    credReply := if t.cls = 1 then k.credReply - t.flits else k.credReply,
    credBulk := if t.cls = 2 then k.credBulk - t.flits else k.credBulk,
    credEscape := if t.cls = 3 then k.credEscape - t.flits else k.credEscape })

/-- A credit update sent to the far end of a link (R340); control flits took none. -/
def Core.sendCredit (c : Core) (l cls n : Nat) : Core := if cls = 0 then c else c.sendLocal l 2 (leBytes cls 1 ++ leBytes n 4)

/-- What one round of moves gives the outputs: flits by link, and credits to return by link, class and number. -/
structure Outs where
  flits : KMap Nat (List Proto)
  creds : List (Nat × Nat × Nat)
  deriving DecidableEq, Repr

/-- The buffer of a message that arrived on a link is freed. -/
def Outs.freed (o : Outs) (t : Transit) : Outs :=
  match t.arrived with
  | some a => { o with creds := o.creds ++ [(a, t.buf, t.flits)] }
  | none => o

/-- One attempt to give a waiting message an output (R350, R353): the state and the outputs after it, and the message if it still
waits. -/
def Core.tryMove (c : Core) (o : Outs) (t : Transit) : Core × Outs × Option Transit :=
  let entry := kgetD c.routes t.dst 0
  if bit entry 31 = false then
    (match t.arrived with | some l => c.bump (linkBase l + 0x43C) 32 t.flits | none => c, o.freed t, none)
  else
    let first := c.bestLink (c.outLinks entry t.cls) t.cls t.enc
    -- R350: a reply or bulk message with no usable candidate enters the escape class at once
    let t1 := if first.isNone ∧ (t.cls = 1 ∨ t.cls = 2) then { t with cls := 3 } else t
    match c.bestLink (c.outLinks entry t1.cls) t1.cls t1.enc with
    | none => (c, o, some t1)
    | some l =>
      if (c.link l).credits t1.cls < t1.flits ∨ 2048 < (c.link l).replay.length + (kgetD o.flits l []).length + t1.flits then
        (c, o, some t1)
      else (c.spend l t1, { o with flits := kset o.flits l (kgetD o.flits l [] ++ protos t1) }.freed t, none)

/-- Classes in the order a link output serves them (R341): control, reply, escape, bulk. -/
def classRank : Nat → Nat
  | 0 => 0 | 1 => 1 | 3 => 2 | _ => 3

/-- Every waiting message tried once, by class and then in order; then the outputs send their flits. -/
def Core.pump (c : Core) : Core :=
  let order := [0, 1, 2, 3].flatMap (fun r => c.transit.filter (fun t => classRank t.cls = r))
  let res := order.foldl (fun (acc : Core × Outs × List Transit) t =>
    match acc.1.tryMove acc.2.1 t with
    | (c1, o1, some t1) => (c1, o1, acc.2.2 ++ [t1])
    | (c1, o1, none) => (c1, o1, acc.2.2)) ({ c with transit := [] }, { flits := [], creds := [] }, [])
  res.2.1.creds.foldl (fun c q => c.sendCredit q.1 q.2.1 q.2.2)
    (res.2.1.flits.foldl (fun c e => c.emitAll e.1 e.2) { res.1 with transit := res.2.2 })

/-- Flits of a message by its payload bytes (R333, R337). -/
def flitsOf (len : Nat) : Nat := max 1 (cdiv len 240)

/-- A message of a context's job sent to a device: a fresh tag, its class, encryption by the job's flag (R337, R356). An
unmapped device sends none (R335). -/
def Core.send (c : Core) (n dst kind : Nat) (payload : List Byte) : Core :=
  match c.ctx? n with
  | none => c
  | some x =>
    match x.job with
    | none => c
    | some j =>
      if c.dnValid then
        let t : Transit := { src := c.devNum, dst := dst, job := j.job, kind := kind, cls := kindClass kind,
                             tag := c.nextTag % 2 ^ 20, enc := j.enc,
                             flits := flitsOf (payload.length + (if j.enc then 16 else 0)), arrived := none, buf := 0,
                             payload := payload }
        ({ c with nextTag := (c.nextTag + 1) % 2 ^ 20, transit := c.transit ++ [t] }).pump
      else c

/-- A request sent and kept until its completion arrives (R347). -/
def Core.request (c : Core) (n dst kind : Nat) (payload : List Byte) (owner : UnitId) : Core :=
  let enc := match c.ctx? n with | some x => (match x.job with | some j => j.enc | none => false) | none => false
  let job := match c.ctx? n with | some x => (match x.job with | some j => j.job | none => 0) | none => 0
  let t : Transit := { src := c.devNum, dst := dst, job := job, kind := kind, cls := kindClass kind,
                       tag := c.nextTag % 2 ^ 20, enc := enc, flits := flitsOf (payload.length + (if enc then 16 else 0)), arrived := none, buf := 0,
                       payload := payload }
  let c1 := { c with requests := kset c.requests t.tag { msg := t, sends := 1, owner := owner, ctx := n } }
  c1.send n dst kind payload

/-- A completion or other answer carrying the tag it answers (R338). -/
def Core.answer (c : Core) (n dst kind tag : Nat) (payload : List Byte) : Core :=
  c.send n dst kind (leBytes tag 4 ++ payload)

end Sys2Proof.Machine
end

