-- ==== Sys2Proof/Machine/Numbers.lean ====
section
/-!
DEFINITION. Number formats, rounding, conversion and the arithmetic of the units, computed on exact binary values and
narrowed once at the end (R111 to R129, R306).
-/
namespace Sys2Proof.Machine
open Sys2Proof

/-- A floating format: exponent bits, mantissa bits, bias; `special` 0 with infinities and NaNs in the top exponent
(IEEE 754, loam16, silt8w), 1 with the all-ones magnitude as its only NaN (silt8n), 2 with neither (R112, R114). -/
structure FFmt where
  ew : Nat
  mw : Nat
  bias : Nat
  special : Nat
  deriving DecidableEq, Repr

/-- An exact value (−1)^neg × m × 2^e. -/
structure Dy where
  neg : Bool
  m : Nat
  e : Int
  deriving DecidableEq, Repr

/-- The value of an element: a NaN with its sign and its mantissa field aligned at the top of 52 bits, an infinity, or
an exact number. -/
inductive Num where
  | nan (neg : Bool) (pay : Nat)
  | inf (neg : Bool)
  | fin (d : Dy)
  deriving DecidableEq, Repr

/-- How a value is rounded: to nearest-even, or stochastically with 16 drawn bits (R124). -/
inductive Rnd where
  | ne
  | st (r : BitVec 16)
  deriving DecidableEq, Repr

def f32 : FFmt := { ew := 8, mw := 23, bias := 127, special := 0 }
def f64 : FFmt := { ew := 11, mw := 52, bias := 1023, special := 0 }
def fLoam : FFmt := { ew := 8, mw := 7, bias := 127, special := 0 }
def fSilt8n : FFmt := { ew := 4, mw := 3, bias := 7, special := 1 }
def fSilt8w : FFmt := { ew := 5, mw := 2, bias := 15, special := 0 }
def fGrit6 : FFmt := { ew := 3, mw := 2, bias := 3, special := 2 }
def fSand4 : FFmt := { ew := 2, mw := 1, bias := 1, special := 2 }

/-- The floating format of a format code of R91, if it names one. -/
def fmtOf : Nat → Option FFmt
  | 0 => some f32 | 1 => some fLoam | 2 => some fSilt8n | 3 => some fSilt8w | 4 => some fGrit6 | 5 => some fSand4
  | 10 => some f64 | _ => none

/-- Bits per element (R116). -/
def fmtBits : Nat → Nat
  | 0 => 32 | 1 => 16 | 2 => 8 | 3 => 8 | 4 => 6 | 5 => 4 | 6 => 8 | 7 => 8 | 8 => 4 | 9 => 4 | 10 => 64 | _ => 0

/-- Whether a format is grain-scaled (R91). -/
def grainScaled (f : Nat) : Bool := 2 ≤ f && f ≤ 9

/-- The product group of a format (R91): 0 wide, 1 16-bit, 2 8-bit float, 3 short float, 4 8-bit integer, 5 short
integer, 6 none. -/
def fmtGroup : Nat → Nat
  | 0 => 0 | 1 => 1 | 2 => 2 | 3 => 2 | 4 => 3 | 5 => 3 | 6 => 4 | 7 => 4 | 8 => 5 | 9 => 5 | _ => 6

/-- The ends of an integer format's range (R115). -/
def intRange : Nat → Int × Int
  | 6 => (-128, 127) | 7 => (0, 255) | 8 => (-8, 7) | _ => (0, 15)

/-- The exponent limit emax of a survey's target (R118). -/
def fmtEmax : Nat → Int
  | 2 => 8 | 3 => 15 | 4 => 4 | 5 => 2 | 6 => 6 | 7 => 7 | 8 => 2 | _ => 3

/-- m × 2^e with the exponent not above `to`, as a mantissa at exponent `to` where `to ≤ e`. -/
def shiftUp (m : Nat) (e q : Int) : Nat := m * 2 ^ (e - q).toNat

/-- Floor of log2 of a nonzero exact value. -/
def Dy.flog (d : Dy) : Int := (Nat.log2 d.m : Int) + d.e

/-- Comparison of magnitudes: |a| < |b|. -/
def Dy.magLt (a b : Dy) : Bool := let q := min a.e b.e; shiftUp a.m a.e q < shiftUp b.m b.e q

/-- The signed integer mantissa of an exact value at exponent `q ≤ e`. -/
def Dy.at (d : Dy) (q : Int) : Int := if d.neg then -(shiftUp d.m d.e q : Int) else shiftUp d.m d.e q

/-- Exact sum; an exact zero takes `negZero`. -/
def Dy.add (a b : Dy) (negZero : Bool) : Dy :=
  let q := min a.e b.e
  let s := a.at q + b.at q
  if s = 0 then { neg := negZero, m := 0, e := q } else { neg := s < 0, m := s.natAbs, e := q }

/-- Exact product. -/
def Dy.mul (a b : Dy) : Dy := { neg := a.neg != b.neg, m := a.m * b.m, e := a.e + b.e }

/-- A magnitude rounded at quantum 2^q (R120 step 2, R124): the multiple of the quantum. -/
def roundAt (r : Rnd) (neg : Bool) (m : Nat) (e q : Int) : Nat :=
  if q ≤ e then shiftUp m e q
  else
    let k := (q - e).toNat
    let n := m / 2 ^ k
    let rem := m % 2 ^ k
    if rem = 0 then n
    else match r with
      | .ne => if 2 * rem > 2 ^ k ∨ (2 * rem = 2 ^ k ∧ n % 2 = 1) then n + 1 else n
      | .st b =>
        if neg then (if b.toNat < 65536 * (2 ^ k - rem) / 2 ^ k then n else n + 1)
        else (if b.toNat < 65536 * rem / 2 ^ k then n + 1 else n)

/-- The largest finite magnitude of a format, as mantissa and exponent (R114). -/
def FFmt.maxFin (f : FFmt) : Dy :=
  let top : Int := (2 ^ f.ew - 1 : Nat)
  match f.special with
  | 0 => { neg := false, m := 2 ^ (f.mw + 1) - 1, e := top - 1 - f.bias - f.mw }
  | 1 => { neg := false, m := 2 ^ (f.mw + 1) - 2, e := top - f.bias - f.mw }
  | _ => { neg := false, m := 2 ^ (f.mw + 1) - 1, e := top - f.bias - f.mw }

/-- The code of a magnitude n × 2^q that lies on a format's grid, without its sign. -/
def FFmt.encodeMag (f : FFmt) (n : Nat) (q : Int) : Nat :=
  if n < 2 ^ f.mw then n
  else if n = 2 ^ (f.mw + 1) then ((q + 1 + f.mw + f.bias).toNat) * 2 ^ f.mw
  else ((q + f.mw + f.bias).toNat) * 2 ^ f.mw + (n - 2 ^ f.mw)

/-- The sign bit placed. -/
def FFmt.withSign (f : FFmt) (neg : Bool) (mag : Nat) : Nat := mag + b2n neg * 2 ^ (f.ew + f.mw)

/-- The code of an infinity, and of the NaN the device writes (R111, R114). -/
def FFmt.infCode (f : FFmt) (neg : Bool) : Nat := f.withSign neg ((2 ^ f.ew - 1) * 2 ^ f.mw)
def FFmt.nanCode (f : FFmt) : Nat :=
  if f.special = 1 then 2 ^ (f.ew + f.mw) - 1 else (2 ^ f.ew - 1) * 2 ^ f.mw + 2 ^ (f.mw - 1)

/-- An element's code read (R113, R114). -/
def FFmt.decode (f : FFmt) (w : Nat) : Num :=
  let neg := bit w (f.ew + f.mw)
  let e := w / 2 ^ f.mw % 2 ^ f.ew
  let m := w % 2 ^ f.mw
  if f.special = 0 ∧ e = 2 ^ f.ew - 1 then
    (if m = 0 then .inf neg else .nan neg (m * 2 ^ (52 - f.mw)))
  else if f.special = 1 ∧ e = 2 ^ f.ew - 1 ∧ m = 2 ^ f.mw - 1 then .nan neg (m * 2 ^ (52 - f.mw))
  else if e = 0 then .fin { neg := neg, m := m, e := 1 - (f.bias : Int) - f.mw }
  else .fin { neg := neg, m := 2 ^ f.mw + m, e := (e : Int) - f.bias - f.mw }

/-- The result of writing one value in a narrower or equal format: the code, and what the census counts (R120, R121). -/
structure Conv where
  code : Nat
  excess : Bool
  vanish : Bool
  deriving DecidableEq, Repr

/-- The NaN code with a propagated payload (R120): sign, mantissa aligned at the top and cut, quiet bit set. -/
def FFmt.nanWith (f : FFmt) (neg : Bool) (pay : Nat) : Nat :=
  if f.special = 0 ∧ f.ew ≥ 8 then
    f.withSign neg ((2 ^ f.ew - 1) * 2 ^ f.mw + (pay / 2 ^ (52 - f.mw)) ||| (2 ^ (f.mw - 1)))
  else f.nanCode

/-- A nonzero exact value rounded into a floating format (R120 steps 2 to 5, R124): overflow gives an infinity in binary64,
binary32 and loam16 and saturates in the others; `flush` turns a subnormal result into a zero. -/
def FFmt.round (f : FFmt) (r : Rnd) (flush : Bool) (d : Dy) : Conv :=
  if d.m = 0 then { code := f.withSign d.neg 0, excess := false, vanish := false }
  else
    let q := max (d.flog - f.mw) (1 - (f.bias : Int) - f.mw)
    let n := roundAt r d.neg d.m d.e q
    let rounded : Dy := { neg := d.neg, m := n, e := q }
    let excess := match r with | .ne => f.maxFin.magLt rounded | .st _ => f.maxFin.magLt d
    if excess then
      { code := if f.ew ≥ 8 then f.infCode d.neg else f.withSign d.neg (f.encodeMag f.maxFin.m f.maxFin.e), excess := true,
        vanish := false }
    else
      let mag := f.encodeMag n q
      let mag' := if flush ∧ mag < 2 ^ f.mw then 0 else mag
      { code := f.withSign d.neg mag', excess := false, vanish := mag' = 0 }

/-- A value written in a floating format. -/
def FFmt.write (f : FFmt) (r : Rnd) (flush : Bool) : Num → Conv
  | .nan neg pay => { code := f.nanWith neg pay, excess := false, vanish := false }
  | .inf neg => { code := if f.special = 0 then f.infCode neg else f.nanCode, excess := false, vanish := false }
  | .fin d => f.round r flush d

/-- An exact value rounded into an integer format (R115, R120, R124). -/
def intRound (fmt : Nat) (r : Rnd) (d : Dy) : Conv :=
  let lo := (intRange fmt).1
  let hi := (intRange fmt).2
  let n : Int := let k := roundAt r d.neg d.m d.e 0; if d.neg then -(k : Int) else k
  let exactAbove : Bool := !d.neg && (Dy.magLt { neg := false, m := hi.natAbs, e := 0 } d)
  let exactBelow : Bool := d.neg && lo < 0 && (Dy.magLt { neg := true, m := lo.natAbs, e := 0 } d)
  let above := match r with | .ne => hi < n | .st _ => exactAbove
  let below := match r with | .ne => n < lo | .st _ => exactBelow || (lo = 0 && n < 0)
  let v := if above then hi else if below then lo else n
  { code := tc (fmtBits fmt) v, excess := above || below, vanish := !(above || below) && v = 0 && d.m ≠ 0 }

/-- An element of any format read, its grain scale applied: scale code 0xFF makes it a NaN (R115, R117). -/
def readElem (fmt scale code : Nat) : Num :=
  if grainScaled fmt ∧ scale = 255 then .nan false (2 ^ 51)
  else
    let s : Int := if grainScaled fmt then (scale : Int) - 127 else 0
    match fmtOf fmt with
    | some f => (match f.decode code with | .fin d => .fin { d with e := d.e + s } | x => x)
    | none =>
      let v : Int := if fmt = 6 ∨ fmt = 8 then sext (fmtBits fmt) code else (code % 2 ^ fmtBits fmt : Nat)
      .fin { neg := v < 0, m := v.natAbs, e := s }

/-- A value written in any format under its grain scale (R119, R120): the conversion and the NaN-event cause it forms, if any.
The code of a non-finite value in a format without one, under a scale other than 0xFF, is unstated (a free value). -/
def writeElem (fmt scale : Nat) (r : Rnd) (flush : Bool) (v : Num) : Conv × Option Nat :=
  if grainScaled fmt ∧ scale = 255 then ({ code := 0, excess := false, vanish := false }, none)
  else
    let down (d : Dy) : Dy := if grainScaled fmt then { d with e := d.e - ((scale : Int) - 127) } else d
    match fmtOf fmt, v with
    | some f, .fin d => (f.write r (flush && fmt = 1) (.fin (down d)), none)
    | some f, .inf n =>
      if f.special = 2 then ({ code := Config.unstated 1 fmt % 2 ^ fmtBits fmt, excess := false, vanish := false }, some 7)
      else (f.write r flush (.inf n), if f.special = 0 then none else some 7)
    | some f, .nan n p =>
      if f.special = 2 then ({ code := Config.unstated 1 fmt % 2 ^ fmtBits fmt, excess := false, vanish := false }, none)
      else (f.write r flush (.nan n p), none)
    | none, .fin d => (intRound fmt r (down d), none)
    | none, .inf _ => ({ code := Config.unstated 1 fmt % 2 ^ fmtBits fmt, excess := false, vanish := false }, some 7)
    | none, .nan _ _ => ({ code := Config.unstated 1 fmt % 2 ^ fmtBits fmt, excess := false, vanish := false }, none)

/-- The grain scale that a survey sets for 32 values (R118, R119). -/
def surveyScale (fmt : Nat) (vs : List Num) : Nat :=
  let nonfin := vs.any (fun v => match v with | .fin _ => false | _ => true)
  let hasSpecial := fmt = 2 || fmt = 3
  if nonfin && !hasSpecial then 255
  else
    let amax := vs.foldl (fun (a : Dy) v => match v with | .fin d => if a.magLt d then d else a | _ => a)
      { neg := false, m := 0, e := 0 }
    if amax.m = 0 then 0
    else (max (-127) (min 127 (amax.flog - fmtEmax fmt)) + 127).toNat

/-! ## Arithmetic of one format, to nearest-even (R111) -/

/-- Whether a code is a NaN. -/
def FFmt.isNan (f : FFmt) (a : Nat) : Bool := match f.decode a with | .nan _ _ => true | _ => false
/-- Whether a code is finite. -/
def FFmt.isFin (f : FFmt) (a : Nat) : Bool := match f.decode a with | .fin _ => true | _ => false

/-- A sum rounded by `r`: the result and the cause of an invalid operation (0x2, infinity minus infinity). -/
def FFmt.addR (f : FFmt) (r : Rnd) (a b : Nat) : Nat × Option Nat :=
  match f.decode a, f.decode b with
  | .nan n p, _ => (f.nanWith n p, none)
  | _, .nan n p => (f.nanWith n p, none)
  | .inf n, .inf n' => if n = n' then (f.infCode n, none) else (f.nanCode, some 2)
  | .inf n, _ => (f.infCode n, none)
  | _, .inf n => (f.infCode n, none)
  | .fin x, .fin y => ((f.round r false (x.add y (x.neg && y.neg && x.m = 0 && y.m = 0))).code, none)

/-- Sum to nearest-even. -/
def FFmt.add (f : FFmt) (a b : Nat) : Nat := (f.addR .ne a b).1

/-- The code with its sign changed. -/
def FFmt.neg (f : FFmt) (a : Nat) : Nat :=
  if bit a (f.ew + f.mw) then a - 2 ^ (f.ew + f.mw) else a + 2 ^ (f.ew + f.mw)

/-- Difference. -/
def FFmt.sub (f : FFmt) (a b : Nat) : Nat := if f.isNan b then (if f.isNan a then f.add a b else f.add b b) else f.add a (f.neg b)

/-- A product: the result and the cause 0x1 of zero times infinity (R135). -/
def FFmt.mulC (f : FFmt) (a b : Nat) : Nat × Option Nat :=
  match f.decode a, f.decode b with
  | .nan n p, _ => (f.nanWith n p, none)
  | _, .nan n p => (f.nanWith n p, none)
  | .inf n, .inf n' => (f.infCode (n != n'), none)
  | .inf n, .fin d => if d.m = 0 then (f.nanCode, some 1) else (f.infCode (n != d.neg), none)
  | .fin d, .inf n => if d.m = 0 then (f.nanCode, some 1) else (f.infCode (n != d.neg), none)
  | .fin x, .fin y => ((f.round .ne false (x.mul y)).code, none)

def FFmt.mul (f : FFmt) (a b : Nat) : Nat := (f.mulC a b).1

/-- num / den × 2^e as a value with a sticky bit, good for one rounding to nearest-even in up to 60 bits. -/
def ratDy (neg : Bool) (num den : Nat) (e : Int) : Dy :=
  if num = 0 ∨ den = 0 then { neg := neg, m := 0, e := e }
  else
    let s := 64 + Nat.log2 den
    let q := num * 2 ^ s / den
    { neg := neg, m := 2 * q + (if num * 2 ^ s % den = 0 then 0 else 1), e := e - s - 1 }

/-- Quotient to nearest-even. -/
def FFmt.div (f : FFmt) (a b : Nat) : Nat :=
  match f.decode a, f.decode b with
  | .nan n p, _ => f.nanWith n p
  | _, .nan n p => f.nanWith n p
  | .inf _, .inf _ => f.nanCode
  | .inf n, .fin d => f.infCode (n != d.neg)
  | .fin d, .inf n => f.withSign (n != d.neg) 0
  | .fin x, .fin y =>
    if y.m = 0 then (if x.m = 0 then f.nanCode else f.infCode (x.neg != y.neg))
    else (f.round .ne false (ratDy (x.neg != y.neg) x.m y.m (x.e - y.e))).code

/-- Square root, correctly rounded; a negative argument gives the NaN the device writes (R136 cause 0x5 or 0x7). -/
def FFmt.sqrt (f : FFmt) (a : Nat) : Nat :=
  match f.decode a with
  | .nan n p => f.nanWith n p
  | .inf n => if n then f.nanCode else a
  | .fin d =>
    if d.m = 0 then a
    else if d.neg then f.nanCode
    else
      let par := d.e % 2
      let m1 := d.m * 2 ^ (128 + par.toNat)
      let r := Nat.sqrt m1
      (f.round .ne false { neg := false, m := 2 * r + (if r * r = m1 then 0 else 1), e := (d.e - par) / 2 - 64 - 1 }).code

/-- Order of two codes that are not NaN, −0 below +0 (R161). -/
def FFmt.lt (f : FFmt) (a b : Nat) : Bool :=
  match f.decode a, f.decode b with
  | .inf n, .inf n' => n && !n'
  | .inf n, .fin _ => n
  | .fin _, .inf n => !n
  | .fin x, .fin y =>
    let q := min x.e y.e
    x.at q < y.at q
  | _, _ => false

/-- IEEE maximum and minimum: a NaN operand gives NaN; −0 orders below +0 (R161). -/
def FFmt.max (f : FFmt) (a b : Nat) : Nat :=
  if f.isNan a then f.add a a else if f.isNan b then f.add b b
  else if f.lt a b then b else if f.lt b a then a else if bit a (f.ew + f.mw) then b else a
def FFmt.min (f : FFmt) (a b : Nat) : Nat :=
  if f.isNan a then f.add a a else if f.isNan b then f.add b b
  else if f.lt a b then a else if f.lt b a then b else if bit a (f.ew + f.mw) then a else b

/-- An integer as an exact value. -/
def Dy.ofInt (i : Int) : Dy := { neg := i < 0, m := i.natAbs, e := 0 }
/-- A natural number in binary64, nearest-even. -/
def f64ofNat (n : Nat) : Nat := (f64.round .ne false (Dy.ofInt n)).code
/-- binary32 1.0 and binary64 1.0. -/
def one32 : Nat := 0x3F800000
def one64 : Nat := 0x3FF0000000000000
/-- A code of one format written in another, nearest-even, with the census's view of it. -/
def FFmt.conv (f g : FFmt) (a : Nat) : Conv := g.write .ne false (f.decode a)
/-- loam16 read exactly as binary32 (every loam16 value is a binary32 value). -/
def loamTo32 (a : Nat) : Nat := (a % 65536) * 65536
/-! ## Vector functions (R159, R160) -/

/-- A code moved by a free −1, 0 or +1 places, upward or downward only where that stays within one unit in the last place of the
exact value (R159). -/
def nudge (fn : Nat) (x code : Nat) (up down : Bool) : Nat :=
  match f32.decode code with
  | .fin d =>
    if d.m = 0 then code
    else match Config.ulpOff fn (BitVec.ofNat 32 x) % 3 with
      | 0 => code
      | 1 => if up ∧ code % 2 ^ 31 + 1 < 0x7F800000 then code + 1 else code
      | _ => if down then code - 1 else code
  | _ => code

/-! exp and ln in fixed point of 200 fraction bits, far finer than the bound of R159. -/

/-- One in fixed point. -/
def fx1 : Nat := 2 ^ 200
/-- Product in fixed point. -/
def fxMul (a b : Nat) : Nat := a * b / fx1
/-- exp of a fixed-point number below 128: Taylor terms of x / 256, squared eight times. -/
def fxExp (x : Nat) : Nat :=
  let y := x / 256
  let t := (List.range 60).foldl (fun (st : Nat × Nat) k => let u := fxMul st.2 y / (k + 1); (st.1 + u, u)) (fx1, fx1)
  (List.range 8).foldl (fun v _ => fxMul v v) t.1
/-- 2 artanh of a fixed-point number of at most 1/3. -/
def fxLog (z : Nat) : Nat :=
  let z2 := fxMul z z
  2 * ((List.range 130).foldl (fun (st : Nat × Nat) k => (st.1 + st.2 / (2 * k + 1), fxMul st.2 z2)) (0, z)).1
/-- ln 2 in fixed point. -/
def fxLn2 : Nat := fxLog (fx1 / 3)
/-- The binary32 magnitude just at or below a fixed-point number. -/
def fxTrunc (v : Nat) : Nat :=
  if v = 0 then 0
  else
    let q := max (((Nat.log2 v : Nat) : Int) - 200 - 23) (-149)
    f32.encodeMag (v / 2 ^ (q + 200).toNat) q
/-- A magnitude moved by a free −1, 0, +1 or +2 places: every binary32 within 2 units in the last place of an exact value that
lies at it or just above it. -/
def within2 (fn x mag : Nat) : Nat := min 0x7F800000 (mag + (Config.transc fn (BitVec.ofNat 32 x)).toNat % 4 - 1)

/-- exp (R160): exact at zeros (R207), the special results, else free within 2 units in the last place (R159). -/
def exp32 (x : Nat) : Nat :=
  match f32.decode x with
  | .nan n p => f32.nanWith n p
  | .inf n => if n then 0 else 0x7F800000
  | .fin d => if d.m = 0 then one32 else if f32.lt 0x42B17218 x then 0x7F800000
      else
        let v := shiftUp d.m d.e (-200)
        if d.neg then (if 128 * fx1 ≤ v then within2 0 x 0 else within2 0 x (fxTrunc (fx1 * fx1 / fxExp v)))
        else within2 0 x (fxTrunc (fxExp v))

/-- Natural logarithm (R160); exact at 1 (R207), else free within 2 units in the last place (R159). -/
def ln32 (x : Nat) : Nat :=
  match f32.decode x with
  | .nan n p => f32.nanWith n p
  | .inf n => if n then f32.nanCode else x
  | .fin d => if d.m = 0 then 0xFF800000 else if d.neg then f32.nanCode else if x = one32 then 0
      else
        let k := Nat.log2 d.m
        let e : Int := k + d.e
        let l := fxLog ((d.m - 2 ^ k) * fx1 / (d.m + 2 ^ k))
        let v : Int := l + e * fxLn2
        f32.withSign (v < 0) (within2 1 x (fxTrunc v.natAbs))

/-- Comparison of a product of magnitudes with 1: at most, and at least. -/
def unitCmp (m : Nat) (e : Int) : Bool × Bool :=
  let one : Dy := { neg := false, m := 1, e := 0 }
  let p : Dy := { neg := false, m := m, e := e }
  (!(one.magLt p), !(p.magLt one))

/-- Reciprocal (R160): the correctly rounded code, moved by a free place (R159). -/
def recip32 (x : Nat) : Nat :=
  match f32.decode x with
  | .fin d => if d.m = 0 then f32.infCode d.neg
    else
      let code := f32.div one32 x
      (match f32.decode code with
       | .fin y => let k := unitCmp (y.m * d.m) (y.e + d.e); nudge 2 x code k.1 k.2
       | _ => code)
  | .inf n => f32.withSign n 0
  | .nan n p => f32.nanWith n p

/-- The square of a binary32 code times a number, compared with 1: at most, and at least. -/
def sqCmp (x : Dy) (c : Nat) : Bool × Bool :=
  match f32.decode c with
  | .fin y => unitCmp (y.m * y.m * x.m) (y.e + y.e + x.e)
  | _ => (false, true)

/-- Reciprocal square root (R160): the binary32 just at or below the exact value, moved by a free place (R159). -/
def rsqrt32 (x : Nat) : Nat :=
  match f32.decode x with
  | .fin d => if d.m = 0 then f32.infCode d.neg else if d.neg then f32.nanCode
      else
        let code := (List.range 31).reverse.foldl (fun c i => if (sqCmp d (c + 2 ^ i)).1 then c + 2 ^ i else c) 0
        nudge 3 x code true (sqCmp d code).2
  | .inf n => if n then f32.nanCode else 0
  | .nan n p => f32.nanWith n p

/-! ## Functions of the schedule (R304, R305) -/

/-- The magnitude of a format just at or below a fixed-point number. -/
def fxDown (f : FFmt) (v : Nat) : Nat :=
  if v = 0 then 0
  else
    let q := max (((Nat.log2 v : Nat) : Int) - 200 - f.mw) (1 - (f.bias : Int) - f.mw)
    f.encodeMag (v / 2 ^ (q + 200).toNat) q

/-- arctan (1/k) in fixed point, and pi by Machin's formula. -/
def fxAtanInv (k : Nat) : Nat :=
  let st := (List.range 60).foldl (fun (st : Nat × Nat × Nat) i =>
    let pos := st.1 + st.2.2 / (4 * i + 1)
    let u := st.2.2 / (k * k)
    (pos, st.2.1 + u / (4 * i + 3), u / (k * k))) (0, 0, fx1 / k)
  st.1 - st.2.1
def fxPi : Nat := 16 * fxAtanInv 5 - 4 * fxAtanInv 239

/-- cos of a fixed-point number of at most pi. -/
def fxCos (x : Nat) : Int :=
  let x2 := fxMul x x
  let st := (List.range 40).foldl (fun (st : Int × Nat) i =>
    (if i % 2 = 0 then st.1 + st.2 else st.1 - st.2, fxMul st.2 x2 / ((2 * i + 1) * (2 * i + 2)))) ((0 : Int), fx1)
  st.1

/-- A binary64 magnitude moved by a free number of places: −2 to +2 from an exact value, −1 to +2 from the last one below it, so
that what comes out lies within 2 units in the last place of the value (R304). -/
def near64 (exact : Bool) (free : BitVec 64) (mag : Nat) : Nat :=
  min 0x7FF0000000000000 (if exact then mag + free.toNat % 5 - 2 else mag + free.toNat % 4 - 1)

/-- cos (pi q / p) in binary64, free within 2 units in the last place (R304). -/
def cosPi64 (q p : Nat) : Nat :=
  if 2 * q = p then 0
  else
    let v := fxCos (fxPi * q / max 1 p)
    let free := Config.cosPi q p
    -- the rational values of the cosine: ±1 and ±1/2
    let mag := if q = 0 ∨ q = p then near64 true free one64
      else if 3 * q = p ∨ 3 * q = 2 * p then near64 true free 0x3FE0000000000000
      else near64 false free (fxDown f64 v.natAbs)
    f64.withSign (v < 0) mag

/-- Whether the d-th power of a binary64 code is at most the n-th power of a number. -/
def powLe (x : Dy) (n d c : Nat) : Bool :=
  match f64.decode c with
  | .fin y => !(Dy.magLt { neg := false, m := x.m ^ n, e := x.e * n } { neg := false, m := y.m ^ d, e := y.e * d })
  | _ => false

/-- Whether the d-th power of a binary64 code is the n-th power of a number. -/
def powEq (x : Dy) (n d c : Nat) : Bool :=
  match f64.decode c with
  | .fin y => powLe x n d c && !(Dy.magLt { neg := false, m := y.m ^ d, e := y.e * d } { neg := false, m := x.m ^ n, e := x.e * n })
  | _ => false

/-- x to the power n/d in binary64 for a code that is not negative, free within 2 units in the last place (R304). -/
def pow64 (x n d : Nat) : Nat :=
  match f64.decode x with
  | .fin a =>
    if a.m = 0 then (if n = 0 then one64 else 0)
    else
      let down := (List.range 63).reverse.foldl (fun c i => if powLe a n d (c + 2 ^ i) then c + 2 ^ i else c) 0
      near64 (powEq a n d down) (Config.pow64 (BitVec.ofNat 64 x) n d) down
  | .inf _ => if n = 0 then one64 else f64.infCode false
  | .nan s p => f64.nanWith s p

end Sys2Proof.Machine
end

