-- ==== Sys2Proof/Machine/HostCmd.lean ====
section
/-!
DEFINITION. Taking and beginning a command packet: the order of R410, the limits of R411, and the checks that apply to
every command (R404, R409, R414, R418). Every host-command row runs through `hostCmd` or `hostCmdDev`.
-/
namespace Sys2Proof.Machine
open Sys2Proof

/-- A command as its owner's table gives it: opcode, whether it names a context, the widths in bits of its fixed
parameters, and the least and most elements of its list, if it has one (R409, R416). -/
structure Cmd where
  op : Nat
  ctxv : Bool
  widths : List Nat
  list : Option (Nat × Nat)
  deriving DecidableEq, Repr

/-- A command without a list. -/
def Cmd.plain (op : Nat) (ctxv : Bool) (widths : List Nat) : Cmd := { op := op, ctxv := ctxv, widths := widths, list := none }

/-- The opcodes of R416. -/
def opcodeKnown (op : Nat) : Bool :=
  (0x101 ≤ op && op ≤ 0x104) || (0x201 ≤ op && op ≤ 0x204) || (0x210 ≤ op && op ≤ 0x21A) || (0x230 ≤ op && op ≤ 0x237) ||
  (0x301 ≤ op && op ≤ 0x30A) || (0x401 ≤ op && op ≤ 0x408) || (0x440 ≤ op && op ≤ 0x444) || (0x501 ≤ op && op ≤ 0x505) ||
  (0x510 ≤ op && op ≤ 0x515) || (0x601 ≤ op && op ≤ 0x606) || (0x701 ≤ op && op ≤ 0x703) || (0x801 ≤ op && op ≤ 0x804) ||
  (0x810 ≤ op && op ≤ 0x812) || op = 0x820 || op = 0x821 || (0x830 ≤ op && op ≤ 0x833)

/-- Waiting commands (R410); OBJ_HINT is one with the pin hint. -/
def waitingOp (p : Packet) : Bool :=
  p.opcode.toNat ∈ [0x302, 0x303, 0x403, 0x404, 0x214, 0x215, 0x202, 0x505, 0x602, 0x603, 0x604] ||
  (p.opcode.toNat = 0x213 && p.arg 1 = 4)

/-- Whether a begun command that waits holds later ones of its group: every command but those of R410's list. -/
def WaitKind.holds : WaitKind → Bool
  | .alloc => true
  | .floor => true
  | .free _ => true
  | .bist _ _ _ => true
  | _ => false

/-- Whether two packets are ordered against each other (R410). -/
def sameGroup (p q : Packet) : Bool := p.ctxv = q.ctxv && (!p.ctxv || p.ctxNum = q.ctxNum)

/-- Whether the host port works: core rails good and PERST# deasserted (R481, R483). -/
def Dev.portUp (d : Dev) : Bool := d.pw.coreGood && d.pw.perstHigh

/-- Commands taken and standing without a reply (R411, R426). -/
def Core.inflight (c : Core) : Nat := c.taken.length + c.waiting.length + (c.chains.filter (fun x => x.held.isSome)).length

/-- Whether a packet must still wait for an earlier command of its group (R410). -/
def Core.blocked (c : Core) (p : Packet) : Bool :=
  (c.taken.takeWhile (fun q => q ≠ p)).any (sameGroup p) || c.waiting.any (fun w => w.kind.holds && sameGroup p w.pkt) ||
  c.chains.any (fun x => x.held.isSome && sameGroup p x.pkt && !waitingOp x.pkt)

/-- A packet counted in CMD_TAKEN, its chain's fetch begun (R408, R426). -/
def Core.arrive (c : Core) (p : Packet) : Core :=
  let c1 := c.bump 0x540 64 1
  if p.chain && !p.badNext then { c1 with chains := c1.chains ++ [{ pkt := p, held := none, ended := false }] } else c1

/-- The device takes a packet that lands sealed or fetched (R406, R408, R411, R418): at the limit it replies at once, and
an opcode that names no command is answered at once. -/
def Core.takePkt (c : Core) (p : Packet) : Core :=
  if c.devState = .stopped ∧ p.opcode.toNat ≠ 0x103 then c
  else
    let c1 := c.arrive p
    if 1024 ≤ c.inflight then c1.finish p 5 []
    else if opcodeKnown p.opcode.toNat then { c1 with taken := c1.taken ++ [p] }
    else c1.finish p 1 []

/-- Whether the header is valid (R404, R413). -/
def headerOk (p : Packet) : Bool :=
  !p.rsv && p.flags.toNat < 8 && p.ctx.toNat < 16 &&
  (if p.wantsVec then 1 ≤ p.vec.toNat && p.vec.toNat ≤ 15 else p.vec = 0) &&
  p.reply.toNat % 64 = 0 && (if p.chain then p.nxt.toNat % 64 = 0 else p.nxt = 0)

/-- Whether H_PLEN matches the command (R409). -/
def Cmd.lenOk (k : Cmd) (p : Packet) : Bool :=
  match k.list with
  | none => p.plen.toNat = 8 * k.widths.length
  | some (lo, hi) => p.plen.toNat % 8 = 0 && 8 * (k.widths.length + lo) ≤ p.plen.toNat &&
      p.plen.toNat ≤ min 4096 (8 * (k.widths.length + hi))

/-- Whether every fixed parameter fits its width (R409, R414). -/
def Cmd.widthsOk (k : Cmd) (p : Packet) : Bool :=
  (List.range k.widths.length).all (fun i => p.arg i < 2 ^ (k.widths.getD i 64))

/-- Whether the device state accepts a command (R418); without a firmware slot that verifies DEV_RESET is none of them (R451). -/
def Core.accepts (c : Core) (op : Nat) : Bool :=
  match c.devState with
  | .ready => true
  | .starting => op / 256 = 1 && (op ≠ 0x103 || (2 ≤ c.stage && !c.noImage))
  | .testing => op / 256 = 1 || op / 256 = 6 || op / 256 = 8
  | .stopped => op = 0x103

/-- The status of the first check of R414 that fails, in the table's order; none for a command that may act. -/
def Core.check (c : Core) (k : Cmd) (p : Packet) : Option Nat :=
  if !headerOk p then some 2
  else if !k.lenOk p then some 3
  else if p.ctxv ≠ k.ctxv ∨ (!k.ctxv ∧ p.ctx ≠ 0) then some 4
  else if k.ctxv ∧ k.op ≠ 0x201 ∧ c.devState ≠ .starting ∧ (c.ctx? p.ctxNum).isNone then some 4
  else if !c.accepts k.op then some 6
  else if !k.widthsOk p then some 8
  else none

/-- What beginning a command comes to: it waits behind others, it fails a check and has replied, or it acts. -/
inductive Begun where
  | later (c : Core)
  | no (c : Core)
  | go (c : Core)
  deriving DecidableEq, Repr

/-- A command row begins its command. A packet not yet taken is taken now. -/
def Dev.begin (d : Dev) (k : Cmd) (p : Packet) : Begun :=
  if p ∈ d.c.taken then
    if d.c.blocked p then .later d.c
    else
      let c := { d.c with taken := d.c.taken.erase p }
      match c.check k p with
      | some st => .no (c.finish p st [])
      | none => .go c
  else if !d.portUp || (d.c.devState = .stopped && k.op ≠ 0x103) then .later d.c
  else if 1024 ≤ d.c.inflight then .no ((d.c.arrive p).finish p 5 [])
  else if d.c.blocked p then .later { d.c.arrive p with taken := d.c.taken ++ [p] }
  else
    match d.c.check k p with
    | some st => .no ((d.c.arrive p).finish p st [])
    | none => .go (d.c.arrive p)

/-- A host-command row whose effect is on the core. -/
def hostCmd (k : Cmd) (p : Packet) (s : State) (body : Dev → Core) : Host.Outcome State Fault Refusal :=
  if p.opcode.toNat = k.op then
    s.onCore (fun d => match d.begin k p with
      | .later c => c
      | .no c => c
      | .go c => body { d with c := c })
  else .fault .badOperand

/-- A host-command row whose effect may reach the governor or the security engine. -/
def hostCmdDev (k : Cmd) (p : Packet) (s : State) (body : Dev → Dev) : Host.Outcome State Fault Refusal :=
  if p.opcode.toNat = k.op then
    s.onDev (fun d => match d.begin k p with
      | .later c => { d with c := c }
      | .no c => { d with c := c }
      | .go c => body { d with c := c })
  else .fault .badOperand

/-- A command that writes one record at the host address in parameter `i` (R419). -/
def Core.recordCmd (c : Core) (p : Packet) (i : Nat) (r : List Byte) (vals : List Nat) : Core :=
  if p.arg i % 64 ≠ 0 then c.finish p 8 []
  else match c.hostRecord (p.arg i) r with
    | some c1 => c1.finish p 0 vals
    | none => c.finish p 0x102 []

/-- A begun command that has not replied. -/
def Core.wait (c : Core) (p : Packet) (k : WaitKind) : Core := { c with waiting := c.waiting ++ [{ pkt := p, kind := k }] }

end Sys2Proof.Machine
end

