-- ==== Sys2Proof/Machine/PoolOps.lean ====
section
/-!
DEFINITION. The memory pool's operations: which physical plots are used, floors and the shared part, allocation, eviction
for need, promotion, table placement, retirement of plots, and what a stack's fence does to the pool (R223 to R250, R492).
-/
namespace Sys2Proof.Machine
open Sys2Proof

/-! ## Who holds which plot -/

/-- Stack of plot `i` of an object. -/
def Obj.stackOf (o : Obj) (i : Nat) : Nat := (o.base / plotBytes + i) / 32768

/-- Whether a plot entry occupies a physical plot (R240). -/
def PlotEnt.occupies (e : PlotEnt) : Bool := match e.st with
  | .resident => true | .arriving => true | .leaving => true | .host => false | .empty => false

/-- A host plot without a frame: nothing held anywhere. -/
def PlotEnt.blank : PlotEnt := { st := .empty, phys := 0, frame := none, poison := false, nonce := 0, tag := [] }

/-- The indices of an object's plots that a test admits. -/
def Obj.plotsWhere (o : Obj) (p : Nat → PlotEnt → Bool) : List Nat :=
  (List.range o.plots.length).filter (fun i => match o.plots[i]? with | some e => p i e | none => false)

/-- Physical plots of a stack that an object occupies. -/
def Obj.occIn (o : Obj) (m : Nat) : Nat := (o.plotsWhere (fun i e => e.occupies && o.stackOf i = m)).length

/-- Whether a physical plot of a stack is in use, retired, or being filled by a retirement copy. -/
def Core.usesPhys (c : Core) (m p : Nat) : Bool :=
  p < 16 || (m, p) ∈ c.retired || c.retireCopy.any (fun e => e.1.1 = m && e.2 = p) ||
  c.ctxs.any (fun x =>
    x.2.tabPlots.any (fun t => t.stack = m && t.phys = p) ||
    x.2.progs.any (fun g => (m, p) ∈ g.2.area) ||
    x.2.objs.any (fun o => !o.2.window &&
      !(o.2.plotsWhere (fun i e => e.occupies && e.phys = p && o.2.stackOf i = m)).isEmpty))

/-- A free physical plot of a stack: the device's choice. -/
def Core.freePhys (c : Core) (m : Nat) : Option Nat := c.pick 32768 (fun p => !c.usesPhys m p)

/-- Plots of a context's floor in a stack (R230, R466). -/
def Ctx.floorIn (x : Ctx) (m : Nat) : Nat := x.floorF - kgetD x.floorLost m 0

/-- Plots of a context's floor in a stack that its tables, programs and floor objects occupy (R231, R232). -/
def Ctx.floorUsed (x : Ctx) (m : Nat) : Nat :=
  (x.tabPlots.filter (fun t => t.stack = m)).length +
  (x.progs.map (fun g => (g.2.area.filter (fun a => a.1 = m)).length)).sum +
  (x.objs.map (fun o => if o.2.floor && !o.2.window then o.2.occIn m else 0)).sum

/-- The shared part of a stack (R233): poolable plots not retired, less every floor; 0 outside service. -/
def Core.sharedTotal (c : Core) (m : Nat) : Nat :=
  if c.stackOk m then
    32752 - (c.retired.filter (fun r => r.1 = m && 16 ≤ r.2)).length - (c.ctxs.map (fun x => x.2.floorIn m)).sum
  else 0

/-- The context whose floor a used plot belongs to; none for a shared plot. -/
def Core.floorOwner (c : Core) (m p : Nat) : Option Nat :=
  (c.ctxs.find? (fun x =>
    x.2.tabPlots.any (fun t => t.stack = m && t.phys = p) || x.2.progs.any (fun g => (m, p) ∈ g.2.area) ||
    x.2.objs.any (fun o => o.2.floor && !(o.2.plotsWhere (fun i e => e.occupies && e.phys = p && o.2.stackOf i = m)).isEmpty))).map
      Prod.fst

/-- Shared plots of a stack that non-floor objects hold (U of R233). -/
def Core.sharedHeld (c : Core) (m : Nat) : Nat :=
  if c.stackOk m then
    (c.ctxs.map (fun x => (x.2.objs.map (fun o => if !o.2.floor && !o.2.window then o.2.occIn m else 0)).sum)).sum
  else 0

/-- Shared plots of a stack in use: those, and the targets of retirement copies of shared plots. -/
def Core.sharedUsed (c : Core) (m : Nat) : Nat :=
  if c.stackOk m then
    c.sharedHeld m +
    (c.retireCopy.filter (fun e => e.1.1 = m && (c.floorOwner m e.1.2).isNone)).length
  else 0

/-- Free shared plots of a stack (R236). -/
def Core.freeShared (c : Core) (m : Nat) : Nat := c.sharedTotal m - c.sharedUsed m

/-- S and U of R233, and the pool pressure a fork reads. -/
def Core.poolS (c : Core) : Nat := ((List.range 24).map c.sharedTotal).sum
def Core.poolU (c : Core) : Nat := ((List.range 24).map c.sharedHeld).sum
def Core.pressure (c : Core) : Nat := if c.poolS = 0 then 255 else min 255 (256 * c.poolU / c.poolS)

/-- Free spill frames of a context, lowest first (R244). -/
def Core.freeFrames (c : Core) (n : Nat) : List Nat :=
  ((c.frames.filter (fun e => e.2.ctx = n && e.2.spill && !e.2.holds)).map Prod.fst).mergeSort (fun a b => decide (a ≤ b))

/-- A spill frame marked as holding a plot, or free. -/
def Core.holdFrame (c : Core) (f : Nat) (b : Bool) : Core := { c with frames := kmod c.frames f (fun x => { x with holds := b }) }

/-- An object changed. -/
def Core.modObj (c : Core) (n i : Nat) (f : Obj → Obj) : Core := c.modCtx n (fun x => { x with objs := kmod x.objs i f })

/-- One plot entry changed. -/
def Core.modPlot (c : Core) (n i k : Nat) (f : PlotEnt → PlotEnt) : Core :=
  c.modObj n i (fun o => { o with plots := modAt o.plots k f })

/-- The object of a context by index. -/
def Core.obj? (c : Core) (n i : Nat) : Option Obj := match c.ctx? n with | some x => kget x.objs i | none => none

/-- A physical plot's data and metadata as of a fresh allocation: every word zero, clean, tagged for its owner (R227). -/
def Core.zeroPlot (c : Core) (m p : Nat) : Core :=
  { c with hbm := mclear c.hbm (m * 2 ^ 36 + p * plotBytes) plotBytes,
           words := c.words.filter (fun w => ¬ (m * 2 ^ 30 + p * 32768 ≤ w.1 ∧ w.1 < m * 2 ^ 30 + (p + 1) * 32768)) }

/-- Whether a physical plot holds a poisoned word. -/
def Core.plotPoisoned (c : Core) (m p : Nat) : Bool :=
  c.words.any (fun w => m * 2 ^ 30 + p * 32768 ≤ w.1 && w.1 < m * 2 ^ 30 + (p + 1) * 32768 && w.2.pois)

/-- Every word of a physical plot written poisoned (R246, R250). -/
def Core.poisonPlot (c : Core) (m p : Nat) : Core :=
  (List.range 32768).foldl (fun c w => c.poison (m * 2 ^ 36 + p * plotBytes + 64 * w)) c

/-! ## Pool engine counters (R252) -/

/-- The pool engine window of a stack's port die. -/
def poolBase (m : Nat) : Nat := subBase (portDie m) 9 0

/-- Plots retired once nothing uses them (R466). -/
def Core.sweepRetire (c : Core) : Core :=
  let free := (c.retireWait ++ c.retireMove).filter (fun r => !(c.usesPhys r.1 r.2))
  if free.isEmpty then c
  else { c with
    retired := c.retired ++ free, retireWait := c.retireWait.filter (fun r => !(free.contains r)),
    retireMove := c.retireMove.filter (fun r => !(free.contains r)), failDirty := true }

/-! ## Eviction (R236 to R238) -/

/-- Eviction class by hint (R234); a failed pin stands in class 2. -/
def Obj.evClass (o : Obj) : Nat := match o.hint with | 2 => 0 | 3 => 0 | 1 => 2 | 4 => 2 | _ => 1

/-- Plots of an object that are resident. -/
def Obj.residentPlots (o : Obj) : List Nat := o.plotsWhere (fun _ e => e.st = .resident)

/-- Candidates for eviction from a stack (R237), and R439's exclusion of a confidential context without its key. An object
is none while a promotion that OBJ_HINT started runs (R234), and once it is freed. -/
def Core.candidates (c : Core) (m : Nat) : List (Nat × Nat × Obj) :=
  c.ctxs.flatMap (fun x => (x.2.objs.filter (fun o =>
    !o.2.floor && !o.2.window && !o.2.freeing && o.2.st ≠ .pinned && o.2.st ≠ .evicting &&
    !(o.2.st = .promoting && c.waiting.any (fun w => w.pkt.ctxNum = x.1 && w.kind = .pin o.1)) &&
    1 ≤ o.2.age && o.2.residentPlots.any (fun i => o.2.stackOf i = m) &&
    o.2.residentPlots.length ≤ (c.freeFrames x.1).length && (!x.2.conf || x.2.dataKey.isSome))).map
      (fun o => (x.1, o.1, o.2)))

/-- R237's order of candidates. -/
def rankBefore (a b : Nat × Nat × Obj) : Bool :=
  if a.2.2.evClass ≠ b.2.2.evClass then a.2.2.evClass < b.2.2.evClass
  else if a.2.2.age ≠ b.2.2.age then b.2.2.age < a.2.2.age
  else if a.1 ≠ b.1 then a.1 < b.1 else a.2.1 < b.2.1

/-- The first candidate. -/
def firstCandidate (l : List (Nat × Nat × Obj)) : Option (Nat × Nat × Obj) :=
  l.foldl (fun b x => match b with | none => some x | some y => if rankBefore x y then some x else some y) none

/-- An object begins to be evicted, for a need of the pool or not: every resident plot leaves, each with the lowest free spill
frame (R240, R244). -/
def Core.startEvict (c : Core) (n i : Nat) (o : Obj) (forNeed : Bool) : Core :=
  let c1 := ((o.residentPlots).zip (c.freeFrames n)).foldl (fun c kf =>
    (c.holdFrame kf.2 true).modPlot n i kf.1 (fun e => { e with st := .leaving, frame := some kf.2 })) c
  c1.modObj n i (fun o => { o with st := .evicting, need := forNeed })

/-- Plots leaving in a stack: freed when their copies end. -/
def Core.leavingIn (c : Core) (m : Nat) : Nat :=
  (c.ctxs.map (fun x => (x.2.objs.map (fun o => (o.2.plotsWhere (fun i e => e.st = .leaving && o.2.stackOf i = m)).length)).sum)).sum

/-- Eviction from a stack until free and leaving plots reach a goal or no candidate remains, for a need or to the high mark (R236);
a promoting object, or one that holds state of a shard being swept (R314), is deferred and re-aged (R238). The bound is one round per
object and deferral. No plot of a stack outside service meets a need. -/
def Core.evictFor (c : Core) (m need : Nat) (forNeed : Bool) : Nat → Core × Bool
  | 0 => (c, need = 0 || (c.stackOk m && need ≤ c.freeShared m + c.leavingIn m))
  | fuel + 1 =>
    if need = 0 then (c, true)
    else if !c.stackOk m then (c, false)
    else if need ≤ c.freeShared m + c.leavingIn m then (c, true)
    else match firstCandidate (c.candidates m) with
      | none => (c, false)
      | some (n, i, o) =>
        if o.st = .promoting || c.sweeps.any (fun w => w.2.ctx = n && w.2.hold.contains i) then
          ((c.modObj n i (fun o => { o with age := 0, defers := min 65535 (o.defers + 1) })).bump (poolBase m + 0x428) 32 1).evictFor
            m need forNeed fuel
        else (c.startEvict n i o forNeed).evictFor m need forNeed fuel

/-- Bound on the rounds of an eviction: objects there are, twice. -/
def Core.evictFuel (c : Core) : Nat := 2 * (c.ctxs.map (fun x => x.2.objs.length)).sum + 1

/-- Plots for a need of a stack obtained under R236 and R237; answers whether the need is met or will be. -/
def Core.obtain (c : Core) (m need : Nat) : Core × Bool := c.evictFor m need true c.evictFuel

/-- Needs of several stacks obtained; answers whether each is met. -/
def Core.obtainAll (c : Core) (ms : List Nat) (need : Core → Nat → Nat) : Core × Bool :=
  ms.foldl (fun (acc : Core × Bool) m =>
    let r := acc.1.obtain m (need acc.1 m)
    (r.1, acc.2 && r.2)) (c, true)

/-- The plots of an object that a promotion under way wants and that have not begun to arrive: one that leaves counts, since its
physical plot counts among those that become free. -/
def Obj.unmet (o : Obj) : List Nat :=
  o.want.filter (fun i => match o.plots[i]? with | some e => e.st ≠ .resident && e.st ≠ .arriving | none => false)

/-- Plots that promotions under way still need in a stack. -/
def Core.wanted (c : Core) (m : Nat) : Nat :=
  (c.ctxs.map (fun x => (x.2.objs.map (fun o => (o.2.unmet.filter (fun i => o.2.stackOf i = m)).length)).sum)).sum

/-! ## Promotion (R241) -/

/-- Address plots that parked passes of a context name. -/
def Core.cursorPlots (c : Core) (n : Nat) : List Nat :=
  c.engines.filterMap (fun e => match e.2.pass with
    | some p => if p.ctx = n ∧ (p.parked = some 1 ∨ p.parked = some 2) then some (p.faultAddr / plotBytes) else none
    | none => none)

/-- The state an object rests in when no move is in progress (R239, R241). -/
def Obj.rest (o : Obj) : ObjSt :=
  if o.plots.all (fun e => e.st = .resident) then (if o.hint = 4 then .pinned else .resident) else .host

/-- Wanted plots of one object begin to arrive where their stack has a free shared plot. -/
def Core.arrivals (c : Core) (n i : Nat) : Core :=
  match c.obj? n i with
  | none => c
  | some o => o.want.foldl (fun c k =>
      match (c.obj? n i).bind (fun o => o.plots[k]?) with
      | some e =>
        if (e.st = .host ∨ e.st = .empty) ∧ c.stackOk (o.stackOf k) ∧ 1 ≤ c.freeShared (o.stackOf k) then
          match c.freePhys (o.stackOf k) with
          | some p => c.drawn.modPlot n i k (fun e => { e with st := .arriving, phys := p })
          | none => c
        else c
      | none => c) c

/-- The plots of every promotion under way that can begin to arrive, begin. -/
def Core.allArrivals (c : Core) : Core :=
  c.ctxs.foldl (fun c x => x.2.objs.foldl (fun c o => if o.2.want.isEmpty then c else c.arrivals x.1 o.1) c) c

/-- The stacks on which an object lacks plots. -/
def Obj.stacks (o : Obj) : List Nat := ((List.range o.plots.length).map o.stackOf).eraseDups

/-- Waiting promotions of an object whose own range is now resident reply (R241, R242), with 0x0249 where a plot of the range
was poisoned during the move; a pin replies once no promotion runs. -/
def Core.replyPromotions (c : Core) (n i : Nat) (o : Obj) : Core :=
  let inRange (first count : Nat) : Bool := (List.range count).all (fun k =>
    o.promBad.contains (first + k) || (match o.plots[first + k]? with | some e => e.st = .resident | none => false))
  let bad (first count : Nat) : Bool := o.promBad.any (fun k => first ≤ k && k < first + count)
  let due (b : Bool) (w : Waiting) : Bool := w.pkt.ctxNum = n && (match w.kind with
    | .promote j first count => j = i && inRange first count && bad first count = b
    | .pin j => j = i && o.st ≠ .promoting && o.promBad.isEmpty != b
    | _ => false)
  (c.replyWaiting (due true) 0x249 []).replyWaiting (due false) 0 []

/-- A promotion with no plot left to move ends (R241): the object comes to rest. Where it moved plots and none failed, it is
counted as completed and the object is touched (R229, R235). -/
def Core.endPromotion (c : Core) (n i : Nat) (moved : Bool) : Core :=
  match c.obj? n i with
  | none => c
  | some o =>
    if o.want.isEmpty ∧ o.st = .promoting then
      let c1 := c.modObj n i (fun o => { o with st := o.rest })
      let c2 := if moved && o.promBad.isEmpty then
          (c1.modObj n i (fun o => { o with promotes := (o.promotes + 1) % 2 ^ 32 })).touch n i else c1
      (c2.replyPromotions n i ((c2.obj? n i).getD o)).modObj n i (fun o => { o with promBad := [] })
    else c

/-- A promotion of the plots `news` fails for want of free plots (R237): those not on their way are given up, and the commands
whose range names one of them reply; others of the object go on. -/
def Core.failPromotion (c : Core) (n i status : Nat) (news : List Nat) : Core :=
  match c.obj? n i with
  | none => c
  | some o =>
    let lost := news.filter (fun k => match o.plots[k]? with | some e => !e.occupies | none => true)
    let c1 := c.modObj n i (fun o => { o with want := o.want.filter (fun k => !(lost.contains k)) })
    (c1.replyWaiting (fun w => w.pkt.ctxNum = n && (match w.kind with
      | .promote j first count => j = i && lost.any (fun k => first ≤ k && k < first + count)
      | .pin j => j = i
      | _ => false)) status []).endPromotion n i false

/-- An eviction stopped by a promotion (R242): the plot being copied finishes, the other leaving plots stay resident and
give their frames back; a waiting OBJ_EVICT replies 0x0244. -/
def Core.stopEvict (c : Core) (n i : Nat) (o : Obj) : Core :=
  let leaving := o.plotsWhere (fun _ e => e.st = .leaving)
  let c1 := (leaving.drop 1).foldl (fun c k =>
    let f := ((o.plots[k]?).bind (fun e => e.frame)).getD 0
    (c.holdFrame f false).modPlot n i k (fun e => { e with st := .resident, frame := none })) c
  c1.replyWaiting (fun w => w.pkt.ctxNum = n && (match w.kind with | .evict j => j = i | _ => false)) 0x244 []

/-- A promotion of plots of an object begins (R241, R242): those in a fenced stack are poisoned, the rest are wanted in
order, cursor-named plots first, and plots are evicted for the need. On a pinned object it only shows in O_FLAGS[4] (R229). A stack
that a command disabled has no plot to give (R237). -/
def Core.promote (c : Core) (n i first count : Nat) : Core :=
  match c.obj? n i with
  | none => c
  | some o =>
   if o.st = .pinned then (c.modObj n i (fun o => { o with pinReq := true })).replyPromotions n i o
   else
    let c0 := if o.st = .evicting then c.stopEvict n i o else c
    let o := (c0.obj? n i).getD o
    let range := (List.range count).map (fun k => first + k)
    let absent := range.filter (fun k => match o.plots[k]? with | some e => e.st ≠ .resident && e.st ≠ .arriving | none => false)
    let dead := absent.filter (fun k => c0.isFenced (.stack (o.stackOf k)))
    let live := absent.filter (fun k => !(c0.isFenced (.stack (o.stackOf k))) && !(o.want.contains k))
    let cur := c0.cursorPlots n
    let named := live.filter (fun k => cur.contains (o.base / plotBytes + k))
    let c1 := c0.modObj n i (fun o => { o with
      st := .promoting, want := o.want ++ named ++ live.filter (fun k => !(named.contains k)),
      promBad := o.promBad ++ dead, poisoned := o.poisoned || !dead.isEmpty })
    let res := c1.obtainAll (live.map o.stackOf).eraseDups (fun c m => c.wanted m)
    if res.2 then (match (res.1.arrivals n i).obj? n i with
      | some o1 => ((res.1.arrivals n i).replyPromotions n i o1).endPromotion n i false
      | none => res.1)
    else (res.1.arrivals n i).failPromotion n i 0x242 live

/-! ## Allocation and freeing (R226 to R228, R232) -/

/-- The plots of a new object in a stack. -/
def countIn (base plots m : Nat) : Nat :=
  let lo := base / plotBytes
  min (lo + plots) (32768 * (m + 1)) - max lo (32768 * m)

/-- An index for a new object: free and unretired (R226). -/
def Core.freeIndex (c : Core) (n : Nat) : Option Nat :=
  c.pick 65536 (fun i => i ≠ 0 && (c.obj? n i).isNone && !(c.deadIdx.contains (n, i)))

/-- The check of an allocation (R227, R232, R233, R255): the status that refuses it, or none. A stack that a command disabled refuses
no range: it has no floor to give, and no shared plot (`tryAlloc`). -/
def Core.allocRefusal (c : Core) (n base plots hint floorFlag : Nat) : Option Nat :=
  match c.ctx? n with
  | none => some 4
  | some x =>
    let last := base + plots * plotBytes
    let window := winLo ≤ base
    if 5 ≤ hint ∨ 2 ≤ floorFlag ∨ plots = 0 then some 0x24A
    else if base % plotBytes ≠ 0 ∨ 2 ^ 45 ≤ base ∨ ¬ (last ≤ hbmEnd ∨ (window ∧ last ≤ winEnd)) then some 0x241
    else if x.objs.any (fun o => !o.2.freeing && overlaps base (plots * plotBytes) o.2.base o.2.size) then some 0x241
    else if window then
      (if hint ≠ 0 ∨ floorFlag ≠ 0 then some 0x241
       else if (List.range plots).all (fun k => match kget c.frames ((base - winLo) / plotBytes + k) with
          | some f => f.ctx = n && !f.spill | none => false) then none else some 0x241)
    else if (List.range 24).any (fun m => 0 < countIn base plots m && c.isFenced (.stack m)) then some 0x241
    else if floorFlag = 1 then
      (if (List.range 24).any (fun m => 0 < countIn base plots m && (!c.stackOk m || x.floorIn m < x.floorUsed m + countIn base plots m))
       then some 0x243 else none)
    else if hint = 4 ∧ (List.range 24).any (fun m => 0 < countIn base plots m && x.floorQ <
        countIn base plots m + (x.objs.map (fun o => if !o.2.floor && o.2.hint = 4 then countIn o.2.base o.2.plots.length m else 0)).sum)
      then some 0x243
    else none

/-- A new object's plots taken one by one: each a free physical plot of its stack, zeroed. -/
def Core.takePlots (c : Core) (base : Nat) : Nat → Core × List PlotEnt
  | 0 => (c, [])
  | k + 1 =>
    let r := c.takePlots base k
    let m := (base / plotBytes + k) / 32768
    -- a plot already taken for this object counts as used
    let taken := r.2.map (fun e => e.phys)
    let ok (p : Nat) : Bool := !r.1.usesPhys m p && !((List.range k).any (fun j => (base / plotBytes + j) / 32768 = m && taken[j]? = some p))
    match r.1.pick 32768 ok with
    | some p => ((r.1.drawn).zeroPlot m p, r.2 ++ [{ PlotEnt.blank with st := .resident, phys := p }])
    | none => (r.1, r.2 ++ [PlotEnt.blank])

/-- The object created, and its handle (R226, R227). -/
def Core.allocNow (c : Core) (n base plots hint floorFlag idx : Nat) : Core × Nat :=
  let gen := kgetD c.gens (n, idx) 0
  let window := decide (winLo ≤ base)
  let r := if window then (c, []) else if hint = 2 ∧ floorFlag = 0 then (c, List.replicate plots PlotEnt.blank)
    else c.takePlots base plots
  let o : Obj := { gen := gen, base := base, plots := r.2, hint := hint, floor := floorFlag = 1, window := window,
                   nwin := if window then plots else 0, poisoned := false,
                   st := if window ∨ (hint = 2 ∧ floorFlag = 0) then .host else if floorFlag = 1 ∨ hint = 4 then .pinned else .resident,
                   want := [], promBad := [], pinReq := false, age := 0, touch := 0, defers := 0, evicts := 0, promotes := 0,
                   freeAtSettle := false, need := false, freeing := false }
  ((r.1.drawn.modCtx n (fun x => { x with objs := kset x.objs idx o })).touch n idx, handleOf n idx gen)

/-- An object is free (R226, R228): plots and spill frames free, the generation counted, a last generation retired; an OBJ_FREE that
waited for a move's plot replies. -/
def Core.freeNow (c : Core) (n i : Nat) : Core :=
  match c.obj? n i with
  | none => c
  | some o =>
    let c1 := o.plots.foldl (fun c e => match e.frame with | some f => c.holdFrame f false | none => c) c
    let c2 := { c1 with
      gens := kset c1.gens (n, i) ((o.gen + 1) % 4096),
      deadIdx := if o.gen = 0xFFF then c1.deadIdx ++ [(n, i)] else c1.deadIdx }
    let c3 := c2.modCtx n (fun x => { x with objs := kdel x.objs i })
    ((c3.replyWaiting (fun w => w.pkt.ctxNum = n && (match w.kind with
      | .promote j _ _ => j = i | .evict j => j = i | .pin j => j = i | _ => false)) 0x245 []).replyWaiting
        (fun w => w.pkt.ctxNum = n && w.kind = .free i) 0 []).sweepRetire

/-- Whether a plot of an object is in motion. -/
def Obj.moving (o : Obj) : Bool := o.plots.any (fun e => e.st = .arriving || e.st = .leaving)

/-- The plots of a freed object whose copies have not begun stop where they stand (R228): of those that leave, and of those that
arrive, only the first is being copied. -/
def Core.cutMoves (c : Core) (n i : Nat) (o : Obj) : Core :=
  let leaving := (o.plotsWhere (fun _ e => e.st = .leaving)).drop 1
  let coming := o.plotsWhere (fun _ e => e.st = .arriving)
  let first := (o.want.filter (fun k => coming.contains k)).head?.or coming.head?
  let c1 := leaving.foldl (fun c k =>
    let f := ((o.plots[k]?).bind (fun e => e.frame)).getD 0
    (c.holdFrame f false).modPlot n i k (fun e => { e with st := .resident, frame := none })) c
  (coming.filter (fun k => some k ≠ first)).foldl (fun c k =>
    c.modPlot n i k (fun e => { e with st := if e.frame.isSome then .host else .empty, phys := 0 })) c1

/-- OBJ_FREE takes effect (R228, R242): a move in progress stops at its next plot boundary, and the object is free then; its waiting
moves reply at once. -/
def Core.freeObj (c : Core) (n i : Nat) : Core :=
  match c.obj? n i with
  | none => c
  | some o =>
    if o.moving then
      ((c.cutMoves n i o).modObj n i (fun o => { o with freeing := true, want := [], need := false })).replyWaiting
        (fun w => w.pkt.ctxNum = n && (match w.kind with
          | .promote j _ _ => j = i | .evict j => j = i | .pin j => j = i | _ => false)) 0x245 []
    else c.freeNow n i

/-- A freed object with no plot left in motion is free. -/
def Core.endFree (c : Core) (n i : Nat) : Core :=
  match c.obj? n i with
  | some o => if o.freeing ∧ o.moving = false then c.freeNow n i else c
  | none => c

/-! ## Tables in the floor (R231) -/

/-- One more plot for a table, on a usable stack whose floor has room. -/
def Core.placePlot (c : Core) (n : Nat) : Option (Nat × Nat) :=
  match c.ctx? n with
  | none => none
  | some x =>
    match c.pick 24 (fun m => c.stackOk m && x.floorUsed m < x.floorIn m && (c.freePhys m).isSome) with
    | some m => (c.freePhys m).map (fun p => (m, p))
    | none => none

/-- A table of `k` plots placed; none where the floor has no room. -/
def Core.placeTable (c : Core) (n table : Nat) : Nat → Option Core
  | 0 => some c
  | k + 1 =>
    match c.placePlot n with
    | none => none
    | some (m, p) => ((c.drawn.modCtx n (fun x => { x with tabPlots := x.tabPlots ++ [{ table := table, stack := m, phys := p }] })).zeroPlot
        m p).placeTable n table k

/-- A table that a command writes: in place, or placed now where it never was; none where there is no room, or where a
fence lost it and it is absent (R231, R492). -/
def Core.needTable (c : Core) (n table plots : Nat) : Option Core :=
  match c.ctx? n with
  | none => none
  | some x =>
    if table ∈ x.absent then none
    else if x.tabPlots.any (fun t => t.table = table) then some c
    else c.placeTable n table plots

/-- The image's bytes that lie in plot `k` of a program's area (R74). -/
def Prog.bytesIn (g : Prog) (k : Nat) : List Byte := ((g.units.drop (k * 131072)).take 131072).flatMap (fun u => leBytes u 16)

/-- The load copy (R74): each plot of the area as of a fresh allocation, then the image's bytes, whole words written clean (R248). -/
def Core.copyImage (c : Core) (g : Prog) : Core :=
  (List.range g.area.length).foldl (fun c k => match g.area[k]? with
    | some (m, p) => (c.zeroPlot m p).putHbm (m * 2 ^ 36 + p * plotBytes) (g.bytesIn k)
    | none => c) c

/-- Plots for a program's area (R74); none where the floor has no room. -/
def Core.placeArea (c : Core) (n slot : Nat) (g : Prog) : Nat → Option Core
  | 0 => some ((c.modCtx n (fun x => { x with progs := kset x.progs slot g })).copyImage g)
  | k + 1 =>
    match c.placePlot n with
    | none => none
    | some (m, p) =>
      let g1 := { g with area := g.area ++ [(m, p)] }
      (c.drawn.modCtx n (fun x => { x with progs := kset x.progs slot g1 })).placeArea n slot g1 k

/-! ## Retirement (R466) -/

/-- Whether a physical plot is the source or target of a move. -/
def Core.moving (c : Core) (m p : Nat) : Bool :=
  c.retireCopy.any (fun e => e.1.1 = m && (e.1.2 = p || e.2 = p)) ||
  c.ctxs.any (fun x => x.2.objs.any (fun o =>
    !(o.2.plotsWhere (fun i e => (e.st = .arriving || e.st = .leaving) && e.phys = p && o.2.stackOf i = m)).isEmpty))

/-- A physical plot is retired: at once when free, after a copy when in use and a target is found, else when freed. -/
def Core.retire (c : Core) (m p : Nat) : Core :=
  if (m, p) ∈ c.retired ∨ (m, p) ∈ c.retireWait ∨ (kget c.retireCopy (m, p)).isSome then c
  else if !c.usesPhys m p then { c with retired := c.retired ++ [(m, p)], failDirty := true }
  else if c.moving m p then { c with retireMove := c.retireMove ++ [(m, p)] }
  else if p < 16 then { c with retireWait := c.retireWait ++ [(m, p)] }
  else
    let room := match c.floorOwner m p with
      | some n => (match c.ctx? n with | some x => (c, decide (x.floorUsed m < x.floorIn m)) | none => (c, false))
      | none =>
        let r := c.obtain m (c.wanted m + 1)
        (r.1, decide (1 ≤ r.1.freeShared m))
    match room.2, room.1.freePhys m with
    | true, some t => { room.1.drawn with retireCopy := kset room.1.retireCopy (m, p) t }
    | _, _ => { room.1 with retireWait := room.1.retireWait ++ [(m, p)] }

/-- The copy of a retiring plot ends: data and metadata moved, the map repointed, the plot retired; a floor plot's floor
stays one smaller. -/
def Core.retireDone (c : Core) (m p : Nat) : Core :=
  match kget c.retireCopy (m, p) with
  | none => c
  | some t =>
    let src := m * 2 ^ 36 + p * plotBytes
    let dst := m * 2 ^ 36 + t * plotBytes
    let owner := c.floorOwner m p
    let c1 := { c.zeroPlot m t with retireCopy := kdel c.retireCopy (m, p) }
    let c2 := { c1 with
      hbm := mputsZ c1.hbm dst (mreadZ c1.hbm src plotBytes),
      words := c1.words ++ (c1.words.filter (fun (w : Nat × WordMeta) => src / 64 ≤ w.1 && w.1 < src / 64 + 32768)).map
        (fun (w : Nat × WordMeta) => (w.1 - src / 64 + dst / 64, w.2)) }
    let c3 := { c2 with ctxs := c2.ctxs.map (fun (x : Nat × Ctx) => (x.1, { x.2 with
      tabPlots := x.2.tabPlots.map (fun (t' : TabPlot) => if t'.stack = m ∧ t'.phys = p then { t' with phys := t } else t'),
      progs := x.2.progs.map (fun (g : Nat × Prog) => (g.1, { g.2 with area := g.2.area.map (fun a => if a = (m, p) then (m, t) else a) })),
      objs := x.2.objs.map (fun (o : Nat × Obj) => (o.1, { o.2 with plots := (List.range o.2.plots.length).filterMap (fun i =>
        (o.2.plots[i]?).map (fun (e : PlotEnt) => if e.occupies ∧ e.phys = p ∧ o.2.stackOf i = m then { e with phys := t } else e)) })),
      floorLost := if owner = some x.1 then kset x.2.floorLost m (kgetD x.2.floorLost m 0 + 1) else x.2.floorLost })) }
    { c3 with retired := c3.retired ++ [(m, p)], failDirty := true }

/-! ## A stack's fence (R250, R492) -/

/-- Every table of a context with a plot in the stack is lost, emptied and placed again, or is absent. -/
def Core.replaceTables (c : Core) (n m : Nat) : Core :=
  match c.ctx? n with
  | none => c
  | some x =>
    let lost := ((x.tabPlots.filter (fun t => t.stack = m)).map (fun t => t.table)).eraseDups
    let c1 := lost.foldl (fun c t =>
      let k := (x.tabPlots.filter (fun q => q.table = t)).length
      let c1 := c.modCtx n (fun x => { x with
        tabPlots := x.tabPlots.filter (fun q => q.table ≠ t), tables := x.tables.filter (fun e => e.1.1 ≠ t && !(t = 4 && e.1.1 = 5)),
        pages := if t = 8 then [] else x.pages, freeLists := if t = 8 then [] else x.freeLists })
      match c1.placeTable n t k with
      | some c2 => c2
      | none => c1.modCtx n (fun x => { x with absent := x.absent ++ [t] })) c
    c1.modCtx n (fun x => { x with progs := x.progs.filter (fun g => g.2.area.all (fun a => a.1 ≠ m)) })

/-- Moves with no plot left to move end: a promotion as R242 says for a fenced stack, an eviction with its object at rest, a freed
object free. -/
def Core.endMoves (c : Core) : Core :=
  c.ctxs.foldl (fun c (x : Nat × Ctx) => x.2.objs.foldl (fun c (o : Nat × Obj) =>
    if o.2.freeing then c.endFree x.1 o.1
    else if o.2.st = .evicting && o.2.plots.all (fun e => e.st ≠ .leaving) then
      (c.modObj x.1 o.1 (fun o => { o with st := o.rest, need := false })).replyWaiting
        (fun w => w.pkt.ctxNum = x.1 && w.kind = .evict o.1) 0x249 []
    else c.endPromotion x.1 o.1 true) c) c

/-- What the pool loses when a stack is fenced: its objects' plots are poisoned and host copies discarded, floors and
tables move off it, the moves on it end. -/
def Core.poolFence (c : Core) (m : Nat) : Core :=
  let frames := c.ctxs.flatMap (fun x => x.2.objs.flatMap (fun o =>
    (o.2.plotsWhere (fun i e => o.2.stackOf i = m && e.frame.isSome)).filterMap (fun i => (o.2.plots[i]?).bind (fun e => e.frame))))
  let c1 := frames.foldl (fun c f => c.holdFrame f false) c
  let c2 : Core := { c1 with
    retireCopy := c1.retireCopy.filter (fun e => e.1.1 ≠ m), retireWait := c1.retireWait.filter (fun r => r.1 ≠ m),
    retireMove := c1.retireMove.filter (fun r => r.1 ≠ m),
    ctxs := c1.ctxs.map (fun (x : Nat × Ctx) => (x.1, { x.2 with objs := x.2.objs.map (fun (o : Nat × Obj) =>
      if o.2.window || (o.2.plotsWhere (fun i _ => o.2.stackOf i = m)).isEmpty then o
      else (o.1, { o.2 with
        poisoned := true, want := o.2.want.filter (fun i => o.2.stackOf i ≠ m),
        promBad := o.2.promBad ++ o.2.want.filter (fun i => o.2.stackOf i = m),
        st := if o.2.floor || o.2.st = .promoting || o.2.st = .evicting then o.2.st else .host,
        plots := (List.range o.2.plots.length).filterMap (fun i => (o.2.plots[i]?).map (fun (e : PlotEnt) =>
          if o.2.stackOf i = m then { PlotEnt.blank with st := .host, poison := true } else e)) })) })) }
  ((keys c2.ctxs).foldl (fun (c : Core) n => c.replaceTables n m) c2).endMoves

/-! ## Waiting needs served -/

/-- A waiting allocation tried again (R236): it replies with its handle, waits on, or fails. It waits too while a freed object of the
range still has a plot in motion (R242). -/
def Core.tryAlloc (c : Core) (w : Waiting) : Core × Bool :=
  let p := w.pkt
  let n := p.ctxNum
  match c.allocRefusal n (p.arg 0) (p.arg 1) (p.arg 2) (p.arg 3) with
  | some st => (c.finish p st [], true)
  | none =>
    match c.freeIndex n with
    | none => (c.finish p 0x24B [], true)
    | some idx =>
      let shared := p.arg 0 < winLo ∧ p.arg 3 = 0 ∧ p.arg 2 ≠ 2
      let needs := (List.range 24).filter (fun m => 0 < countIn (p.arg 0) (p.arg 1) m)
      let r := if shared then c.obtainAll needs (fun c m => c.wanted m + countIn (p.arg 0) (p.arg 1) m) else (c, true)
      if (match c.ctx? n with
          | some x => x.objs.any (fun o => overlaps (p.arg 0) (p.arg 1 * plotBytes) o.2.base o.2.size)
          | none => false) then (c, false)
      else if !r.2 then (r.1.finish p 0x242 [], true)
      else if shared ∧ needs.any (fun m => r.1.freeShared m < countIn (p.arg 0) (p.arg 1) m) then (r.1, false)
      else
        let a := r.1.allocNow n (p.arg 0) (p.arg 1) (p.arg 2) (p.arg 3) idx
        (a.1.finish p 0 [a.2], true)

/-- A waiting FLOOR_SET tried again (R230). -/
def Core.tryFloor (c : Core) (w : Waiting) : Core × Bool :=
  let p := w.pkt
  let n := p.ctxNum
  match c.ctx? n with
  | none => (c.finish p 4 [], true)
  | some x =>
    let ms := (List.range 24).filter c.stackOk
    let more (m : Nat) : Nat := p.arg 0 - x.floorIn m
    let r := c.obtainAll ms (fun c m => c.wanted m + more m)
    if !r.2 then (r.1.finish p 0x242 [], true)
    else if ms.any (fun m => r.1.freeShared m < more m) then (r.1, false)
    else ((r.1.modCtx n (fun x => { x with floorF := p.arg 0, floorQ := p.arg 1, floorLost := [] })).finish p 0 [], true)

/-- The spill object of a context (R267). -/
def Ctx.isSpill (x : Ctx) (n i : Nat) (o : Obj) : Bool := x.spill ≠ 0 && x.spill = handleOf n i o.gen

/-- The needs of promotions under way served again: one that no candidate can meet any more fails (R237). The stash's own moves
answer to `resolveSpill`. -/
def Core.needAgain (c : Core) : Core :=
  c.ctxs.foldl (fun c (x : Nat × Ctx) => x.2.objs.foldl (fun c (q : Nat × Obj) =>
    match c.obj? x.1 q.1 with
    | none => c
    | some o =>
      if o.unmet.isEmpty || o.st ≠ .promoting || x.2.isSpill x.1 q.1 o then c
      else
        let r := c.obtainAll (o.unmet.map o.stackOf).eraseDups (fun c m => c.wanted m)
        if r.2 then r.1 else r.1.failPromotion x.1 q.1 0x242 o.unmet) c) c

/-- Everything that waits for plots tried again, after plots have become free: promotions, then allocations and floors in
the order they were taken. -/
def Core.servePool (c : Core) : Core :=
  let ws := c.waiting.filter (fun w => w.kind = .alloc || w.kind = .floor)
  ws.foldl (fun c w =>
    let c0 := { c with waiting := c.waiting.erase w }
    let r := if w.kind = .alloc then c0.tryAlloc w else c0.tryFloor w
    if r.2 then r.1 else { r.1 with waiting := r.1.waiting ++ [w] }) c.sweepRetire.needAgain.allArrivals

/-- Whether HBM and its port dies have power: a thermal trip takes it while the device is stopped (R385, R481). -/
def Dev.stacksUp (d : Dev) : Bool := d.pw.coreOn && !(d.c.devState = .stopped && d.c.tripWait)

end Sys2Proof.Machine
end

