-- ==== Sys2Proof/Machine/PageOps.lean ====
section
/-!
DEFINITION. KV pages: descriptors, free lists, pins, copies and reclamation (R208 to R220).
-/
namespace Sys2Proof.Machine
open Sys2Proof

/-- The count of failed authentications, SEC_AUTHFAIL (R441, R452). -/
def Core.authFail (c : Core) : Core := c.bump (subBase 0 5 0 + 0x418) 32 1

/-- The local address of a global one that names this device (R34). -/
def Core.localOf (c : Core) (g : Nat) : Option Nat :=
  if g < 2 ^ 60 ∧ g / 2 ^ 45 = c.devNum then some (g % 2 ^ 45) else none

/-! ## Descriptors (R208, R213, R214) -/

/-- An unused page. -/
def Page.unused : Page :=
  { mem := false, addr := 0, st := .free, cls := 0, gen := 0, refs := 0, pins := 0, link := none, seqn := 0, tok0 := 0,
    tokn := 0, layer := 0, from_ := 0 }

/-- Bytes of a page of a class. -/
def pageSize (k : Nat) : Nat := 0x4000 * 2 ^ k

/-- A context's page descriptor. -/
def Ctx.page (x : Ctx) (p : Nat) : Page := kgetD x.pages p Page.unused

/-- The same by context number. -/
def Core.page (c : Core) (n p : Nat) : Page := match c.ctx? n with | some x => x.page p | none => Page.unused

/-- A descriptor changed. -/
def Core.modPage (c : Core) (n p : Nat) (f : Page → Page) : Core :=
  c.modCtx n (fun x => { x with pages := kset x.pages p (f (x.page p)) })

/-- The state that a page with memory takes from its references (R214). -/
def Page.settled (g : Page) : Page := { g with st := if 2 ≤ g.refs then .shared else .live }

/-- The free list of a class, head first. -/
def Ctx.freeList (x : Ctx) (k : Nat) : List Nat := kgetD x.freeLists k []

/-- A page joins the head of its class's free list. -/
def Core.joinHead (c : Core) (n k p : Nat) : Core :=
  c.modCtx n (fun x => { x with freeLists := kset x.freeLists k (p :: x.freeList k) })

/-- A page leaves its class's free list. -/
def Core.leaveList (c : Core) (n k p : Nat) : Core :=
  c.modCtx n (fun x => { x with freeLists := kset x.freeLists k ((x.freeList k).filter (· ≠ p)) })

/-- The first page of a class's free list. -/
def Core.firstFree (c : Core) (n k : Nat) : Option Nat := match c.ctx? n with | some x => (x.freeList k).head? | none => none

/-! ## Reclamation and pins (R215, R217) -/

/-- A page made free: its generation counts, its recipe is cleared, with memory it joins its list. -/
def Core.freePage (c : Core) (n p : Nat) : Core :=
  let g := c.page n p
  let c1 := c.modPage n p (fun g => { Page.unused with
    mem := g.mem, addr := g.addr, cls := g.cls, gen := (g.gen + 1) % 2 ^ 16 })
  if g.mem then c1.joinHead n g.cls p else c1

/-- R217 applied to a page. -/
def Core.reclaim (c : Core) (n p : Nat) : Core :=
  let g := c.page n p
  match g.st with
  | .free => c
  | .copying => c
  | .fallow => if g.refs = 0 then c.freePage n p else c
  | .live => if g.refs = 0 ∧ g.pins = 0 then c.freePage n p else c
  | .shared => if g.refs = 0 ∧ g.pins = 0 then c.freePage n p else c

/-- A read pin taken, and one given back. -/
def Core.pinPage (c : Core) (n p : Nat) : Core := c.modPage n p (fun g => { g with pins := g.pins + 1 })
def Core.unpinPage (c : Core) (n p : Nat) : Core := (c.modPage n p (fun g => { g with pins := g.pins - 1 })).reclaim n p

/-- One reference fewer, with its state and R217. -/
def Core.unrefPage (c : Core) (n p : Nat) : Core :=
  (c.modPage n p (fun g =>
    let h := { g with refs := g.refs - 1 }
    if g.st = .fallow then h else h.settled)).reclaim n p

/-! ## Copies on write and regeneration (R216, R219) -/

/-- Memory of one page copied within HBM: whole words keep their poison (R248), and both objects are touched (R235). -/
def Core.copyPage (c : Core) (n src dst size : Nat) : Core :=
  match c.locate n src, c.locate n dst with
  | .hbm p i, .hbm q _ =>
    let g := match c.obj? n i with | some o => o.gen | none => 0
    let c1 := { c with
      hbm := mputsZ c.hbm q (mreadZ c.hbm p size),
      words := c.words.filter (fun w => ¬ (q / 64 ≤ w.1 ∧ w.1 < (q + size) / 64)) }
    ((List.range (size / 64)).foldl (fun c1 k => if c.wordBad (p + 64 * k) n g i then c1.poison (q + 64 * k) else c1)
      ((c1.touchAt n src).touchAt n dst))
  | _, _ => c

/-- A copy begins (R216 steps 1 and 2): the first page of the source's class is taken, and the source pinned. It is kept with the
global address of the entry that the pass read and the pass's engine, whatever becomes of the pass (R220). -/
def Core.startCopy (c : Core) (n p entry : Nat) (u : UnitId) : Option (Core × Nat) :=
  let g := c.page n p
  match c.firstFree n g.cls with
  | none => none
  | some q =>
    let c1 := ((c.leaveList n g.cls q).modPage n q (fun h => { h with st := .copying, link := some p })).pinPage n p
    some ({ c1 with copies := c1.copies ++ [PageCopy.mk n q entry u] }, q)

/-- A copy ends (R216 step 4, without the entry's rewrite): the target is live, the source loses its pin and a reference. -/
def Core.endCopy (c : Core) (n q p : Nat) : Core :=
  let c1 := c.copyPage n (c.page n p).addr (c.page n q).addr (pageSize (c.page n p).cls)
  let c2 := c1.modPage n q (fun h => { h with st := .live, refs := 1, link := none })
  (c2.modPage n p (fun g =>
    let h := { g with pins := g.pins - 1, refs := g.refs - 1 }
    if g.st = .fallow then h else h.settled)).reclaim n p

/-- A fallow page without memory takes the first free page's (R219); none where the list is empty. -/
def Core.giveMemory (c : Core) (n p : Nat) : Option Core :=
  let g := c.page n p
  if g.mem then some c
  else match c.firstFree n g.cls with
    | none => none
    | some q =>
      let a := (c.page n q).addr
      some (((c.leaveList n g.cls q).modPage n p (fun g => { g with mem := true, addr := a })).modPage n q
        (fun h => { Page.unused with gen := h.gen }))

/-- The read pins of a stopped context are given back, but for those of copies in progress (R215, R217, R220). -/
def Core.dropPins (c : Core) (n : Nat) : Core :=
  match c.ctx? n with
  | none => c
  | some x =>
    let held (p : Nat) : Nat := (c.copies.filter (fun k => k.ctx = n && (x.page k.page).link = some p)).length
    (x.pages.filter (fun e => held e.1 < e.2.pins)).foldl (fun c e =>
      (c.modPage n e.1 (fun g => { g with pins := held e.1 })).reclaim n e.1) c

end Sys2Proof.Machine
end

