-- ==== Sys2Proof/Machine/StepOps.lean ====
section
/-!
DEFINITION. What happens to a training step from outside one action's arithmetic: host rings, the abandon flag, action
faults and detections, verdict contributions and records (R90, R134, R138, R274 to R287, R456 to R464).
-/
namespace Sys2Proof.Machine
open Sys2Proof

/-! ## Host rings (R140, R195, R294) -/

/-- A record written to a context's ring entry and its vector sent, while the ring is enabled. -/
def Core.ringWrite (c : Core) (r : Ring) (seq vec : Nat) (rec : List Byte) : Core :=
  if r.enabled then
    let a := r.base + rec.length * (seq % r.entries)
    (if c.reach a rec.length then c.dma a rec else c).msix vec
  else c

/-! ## The running step -/

/-- The run of a context. -/
def Core.run? (c : Core) (n : Nat) : Option Run := match c.ctx? n with | some x => x.run | none => none

/-- The step flags of a context's run, those of a fresh step without one. -/
def Core.stepSt (c : Core) (n : Nat) : StepSt := match c.run? n with | some r => r.step | none => StepSt.fresh

/-- The step a context's run is in; the last one reached without a run. -/
def Core.stepOf (c : Core) (n : Nat) : Nat :=
  match c.ctx? n with
  | some x => (match x.run with | some r => stepMod r.stepNo | none => stepMod x.lastStep)
  | none => 0

/-- The running action of a unit. -/
def Core.running (c : Core) (u : UnitId) : Option RunAct := match kget c.cols u with | some col => col.run | none => none

/-- A unit's running action changed. -/
def Core.modRunning (c : Core) (u : UnitId) (f : RunAct → RunAct) : Core :=
  { c with cols := kmod c.cols u (fun col => { col with run := col.run.map f }) }

/-- A unit's running action has reached its completion point (R83). -/
def Core.actDone (c : Core) (u : UnitId) : Core := c.modRunning u (fun r => { r with done := true })

/-- The opcode of an action word (R83). -/
def ActionInst.op (a : ActionInst) : Nat := a.bits % 256

/-- The running action of a unit, if it has the opcode and has not reached its completion point. -/
def Core.active (c : Core) (u : UnitId) (op : Nat) : Option RunAct :=
  match c.running u with
  | some r => if r.a.op = op ∧ ¬ r.done then some r else none
  | none => none

/-- Fields of a silt packet's header (R193). -/
def Silt.seq (q : Silt) : Nat := bits q.hdr 63 48
def Silt.route (q : Silt) : Nat := bits q.hdr 47 36
def Silt.ctx (q : Silt) : Nat := bits q.hdr 35 32
def Silt.src (q : Silt) : Nat := bits q.hdr 23 14

/-- Whether a window is one that an action of a cell unit opened. -/
def Win.isOf (w : Win) (n : Nat) (k : CellUnit) (a : ActionInst) : Bool :=
  w.by_ = n && w.owner = k && w.inst = a.inst && w.word = a.nth

/-- The windows that one action opened close, but for that of a packet still in flight (R177). -/
def Core.closeWins (c : Core) (u : UnitId) (a : ActionInst) : Core :=
  match u with
  | .cell n k =>
    if c.silt.any (fun q => q.src = n && q.inst = a.inst && q.word = a.nth) then c
    else { c with wins := c.wins.filter (fun w => !w.isOf n k a) }
  | _ => c

/-! ## Abandon (R286, R287) -/

/-- Actions that the abandon ends at once: ports, REDUCE, DISPATCH, COMBINE, SWEEP and PUSH, and stream passes (R287). -/
def endsOnAbandon (op : Nat) : Bool :=
  op ∈ [0x42, 0x52, 0x53, 0x81, 0x91, 0x92, 0x71, 0x72, 0x61, 0x62, 0x63]

/-- Actions issued but not begun that stay under the abandon, each to complete as soon as it begins, a VERDICT when the record is
there (R287); of the others none begins (R69). -/
def keptOnAbandon (op : Nat) : Bool := op ∈ [0x42, 0x52, 0x53, 0x81, 0x82, 0x91, 0x92, 0x71, 0x72]

/-- A pass gives back its read pins (R215). -/
def Core.releasePins (c : Core) (p : Pass) : Core := p.pinned.foldl (fun c q => c.unpinPage p.ctx q) c

/-- The abandon flag set, with what R287 does to work in progress; nothing is sent. -/
def Core.markAbandon (c : Core) (n cause : Nat) : Core :=
  match c.run? n with
  | none => c
  | some r =>
    if r.step.abandon.isSome then c
    else
      let c1 := c.modStep n (fun s => { s with abandon := some cause })
      let c2 := (c1.modCtx n (fun x => { x with nodes := [], cbuf := [], disps := [] }))
      if c.cur = some n then
        let c3 := c2.engines.foldl (fun c e => match e.2.pass with | some p => c.releasePins p | none => c) c2
        { c3 with
          cols := c3.cols.map (fun (e : UnitId × Column) => (e.1, { e.2 with
            queue := e.2.queue.filter (fun a => keptOnAbandon a.op),
            run := e.2.run.map (fun q => if endsOnAbandon q.a.op then { q with done := true } else q) })),
          wins := [], sweeps := [], pushTags := [], landing := [], intake := [],
          engines := c3.engines.map (fun (e : (Nat × Nat) × Engine) => (e.1, { e.2 with
            pass := none, armed := [] })) }
      else c2

/-- A verdict contribution's bytes; the spec gives no layout (assumption log). -/
def vcBytes (v : VContrib) : List Byte :=
  leBytes v.step 5 ++ leBytes (b2n v.nonfinite + 2 * b2n v.absurd + 4 * b2n v.abandon) 1 ++ leBytes v.cause 1 ++
  leBytes v.origin 2 ++ leBytes v.normSq.toNat 8 ++ leBytes v.late 8 ++ leBytes v.empty 4 ++ leBytes v.devices 4

/-- A verdict record's 64 bytes (R285). -/
def vrBytes (r : VRecord) (seq : Nat) : List Byte :=
  leBytes (stepMod r.step) 8 ++ leBytes r.decision 1 ++ leBytes r.flags.toNat 1 ++ leBytes r.cause 1 ++ zeros 1 ++
  leBytes r.origin.toNat 2 ++ leBytes (r.root % 2 ^ 15) 2 ++ leBytes r.normSq.toNat 8 ++ leBytes r.devices 4 ++
  leBytes r.empty 4 ++ leBytes r.late 8 ++ leBytes seq 4 ++ zeros 20

/-- The job of a context. -/
def Core.job? (c : Core) (n : Nat) : Option Job := match c.ctx? n with | some x => x.job | none => none

/-- A context's verdict node. -/
def Core.vnode (c : Core) (n : Nat) : VNode :=
  match c.ctx? n with
  | some x => x.vnode
  | none => { got := [], later := [], decided := none, latest := none, polling := none, polled := none }

/-- A context's verdict node changed. -/
def Core.modVnode (c : Core) (n : Nat) (f : VNode → VNode) : Core := c.modCtx n (fun x => { x with vnode := f x.vnode })

/-- A record reaches a context (R284, R285): ring, node, and the step it decides; contributions of steps up to it count no more. -/
def Core.deliverRecord (c : Core) (n : Nat) (r : VRecord) : Core :=
  match c.ctx? n with
  | none => c
  | some x =>
    let c1 := c.ringWrite x.verdictRing x.vSeq (17 + 3 * n) (vrBytes r x.vSeq)
    let c2 := if x.verdictRing.enabled then c1.modCtx n (fun x => { x with vSeq := (x.vSeq + 1) % 2 ^ 32 }) else c1
    let c3 := c2.modVnode n (fun v => { v with latest := some r, got := v.got.filter (fun e => r.step < e.2.step) })
    match x.run with
    | none => c3
    | some run =>
      if stepMod run.stepNo = stepMod r.step ∧ run.step.verdict.isNone then
        let c4 := c3.modStep n (fun s => { s with verdict := some r })
        let c5 := if c.cur = some n then
            { c4 with cols := c4.cols.map (fun (e : UnitId × Column) => (e.1, { e.2 with run := e.2.run.map (fun q =>
                if q.a.op = 0x82 then { q with done := true } else q) })) }
          else c4
        if r.decision = 2 then c5.markAbandon n r.cause else c5
      else c3

/-- The live devices of a job other than this one. -/
def Job.live (j : Job) (self : Nat) : List Nat := j.devs.filter (fun d => d ≠ self && !(j.lost.contains d))

/-- A record sent onward (R278): to the tree children, or after a loss to every live device. -/
def Core.spreadRecord (c : Core) (n : Nat) (r : VRecord) : Core :=
  match c.job? n with
  | none => c
  | some j => (if j.anyLoss then j.live c.devNum else j.children.filter (fun d => !(j.lost.contains d))).foldl
      (fun c d => c.send n d kVerdRecord (vrBytes r 0)) c

/-- Whether this device acts as the job's root (R277, R281). -/
def Job.rootHere (j : Job) : Bool := j.isRoot || j.actingRoot

/-- The first live successor of the root (R281). -/
def Job.heir (j : Job) : Option Nat := j.succ.find? (fun d => !(j.lost.contains d))

/-- Where a contribution goes up: the parent, or the acting root once the parent or the root is lost (R279, R281). -/
def Job.up (j : Job) (self : Nat) : Nat :=
  if j.lost.contains j.root then (match j.heir with | some d => if d = self then j.parent else d | none => j.parent)
  else if j.lost.contains j.parent then j.root else j.parent

/-- Control-class traffic from a verdict-tree neighbour renews its liveness (R279), on the timer of region 0. -/
def Core.hear (c : Core) (n dev : Nat) : Core :=
  c.modCtx n (fun x => { x with job := x.job.map (fun j =>
    if (!j.isRoot && j.parent = dev) || j.children.contains dev then { j with heard := kset j.heard dev (c.now 0) } else j) })

/-- The children of this node that still count, and itself. -/
def Core.expected (c : Core) (j : Job) : List Nat := c.devNum :: j.children.filter (fun d => !(j.lost.contains d))

/-- Contributions combined (R276). -/
def vcCombine (a b : VContrib) : VContrib :=
  { a with
    nonfinite := a.nonfinite || b.nonfinite, absurd := a.absurd || b.absurd,
    normSq := BitVec.ofNat 64 (f64.add a.normSq.toNat b.normSq.toNat), late := a.late + b.late,
    empty := min (a.empty + b.empty) (2 ^ 32 - 1), devices := a.devices + b.devices }

/-- Whether a node has decided, forwarded or had the record of a step: no contribution for it counts any more (R277, R284). -/
def VNode.past (v : VNode) (step : Nat) : Bool :=
  (match v.decided with | some d => decide (step ≤ d) | none => false) ||
  (match v.latest with | some r => decide (step ≤ r.step) | none => false)

/-- The root decides a step once, in ascending order (R277). -/
def Core.rootDecide (c : Core) (n : Nat) (r : VRecord) : Core :=
  let done := match (c.vnode n).decided with | some d => decide (r.step ≤ d) | none => false
  if done then c
  else
    let c1 := c.modVnode n (fun v => { v with decided := some r.step })
    (c1.spreadRecord n r).deliverRecord n r

/-- An abandon record (R277, R285, R286): its origin is valid where an abandon contribution or a lost device gives one; V_FLAGS[5]
where `had` devices of the job, and not all, have contributed. -/
def Core.abandonRecord (c : Core) (n step cause : Nat) (origin : Option Nat) (lossFlag : Bool) (had : Nat) : VRecord :=
  let succ := match c.job? n with | some j => j.actingRoot | none => false
  let early := match c.job? n with | some j => decide (had < j.ndev) | none => false
  { step := step, decision := 2, flags := BitVec.ofNat 8 (2 + 8 * b2n lossFlag + 16 * b2n succ + 32 * b2n early),
    cause := cause, origin := BitVec.ofNat 16 (match origin with | some d => 2 ^ 15 + d % 2 ^ 15 | none => 0), root := c.devNum,
    normSq := 0, devices := 0, empty := 0, late := 0 }

/-- The devices whose contributions for a step stand at a node. -/
def VNode.had (v : VNode) (step : Nat) : Nat := ((v.got.filter (fun e => e.2.step = step)).map (fun e => e.2.devices)).sum

/-- The record of a combined contribution of every device (R277). -/
def Core.decideRecord (c : Core) (n : Nat) (v : VContrib) : VRecord :=
  let succ := match c.job? n with | some j => j.actingRoot | none => false
  { step := v.step, decision := if v.nonfinite || v.absurd then 1 else 0,
    flags := BitVec.ofNat 8 (b2n v.nonfinite + 4 * b2n v.absurd + 16 * b2n succ),
    cause := 0, origin := 0, root := c.devNum, normSq := v.normSq, devices := v.devices, empty := v.empty, late := v.late }

/-- One complete set of contributions at a node: decided at the root, else forwarded to the parent (R276, R277). All are of one
step (`takeOne`). -/
def Core.tryCombine (c : Core) (n : Nat) (j : Job) : Core :=
  let got := (c.vnode n).got
  match (c.expected j).map (fun d => kget got d) with
  | [] => c
  | first :: rest =>
    match first with
    | none => c
    | some v =>
      if rest.any (fun o => o.isNone) then c
      else
        let total := rest.foldl (fun (acc : VContrib) o => match o with | some w => vcCombine acc w | none => acc) v
        let c1 := c.modVnode n (fun q => { q with got := [] })
        if j.rootHere then c1.rootDecide n (c1.decideRecord n total)
        else (c1.modVnode n (fun q => { q with decided := some v.step })).send n (j.up c.devNum) kVerdContrib (vcBytes total)

/-- A step whose contributions do not agree is abandoned with cause 0x09 (R282): by the root's record, which no abandon contribution
or loss began; another node sends the root an abandon contribution of its own (DESIGN CHOICE, assumption log). -/
def Core.mismatch (c : Core) (n : Nat) (j : Job) (step : Nat) : Core :=
  if j.rootHere then c.rootDecide n (c.abandonRecord n step 0x09 none false ((c.vnode n).had step))
  else
    (c.modVnode n (fun q => { q with decided := some step, got := q.got.filter (fun e => step < e.2.step) })).send n (j.up c.devNum) kVerdContrib
      (vcBytes { step := step, nonfinite := false, absurd := false, abandon := true, cause := 0x09, origin := c.devNum, normSq := 0,
                 late := 0, empty := 0, devices := 1 })

/-- The contributions held for later steps leave the node, to be taken again. -/
def Core.takeLater (c : Core) (n : Nat) : Core × List (Nat × VContrib) :=
  (c.modVnode n (fun q => { q with later := [] }), (c.vnode n).later)

/-- A contribution for a step still open reaches a node from a child or from the device itself (R276, R277, R282): answers with those
to be taken again. In a job in recovery the root abandons the step at once with cause 0x08 (R476). -/
def Core.takeOpen (c : Core) (n : Nat) (j : Job) (child : Nat) (v : VContrib) : Core × List (Nat × VContrib) :=
  let node := c.vnode n
  let s := (node.got.map (fun e => e.2.step)).foldl min v.step
  let had := node.had v.step + v.devices
  if j.rootHere && j.recovery then (c.rootDecide n (c.abandonRecord n v.step 0x08 j.lost.head? true had)).takeLater n
  else if s < v.step then
    if (kget node.got child).isSome then (c.modVnode n (fun q => { q with later := kset q.later child v }), [])
    else
      let r := (c.mismatch n j s).takeLater n
      (r.1, (child, v) :: r.2)
  else if v.abandon then
    if j.rootHere then (c.rootDecide n (c.abandonRecord n v.step v.cause (some v.origin) false had)).takeLater n
    else (c.send n (j.up c.devNum) kVerdContrib (vcBytes v), [])
  else if node.got.any (fun e => v.step < e.2.step) then (c.mismatch n j v.step).takeLater n
  else if (kget node.got child).isSome then (c, [])
  else
    let c1 := (c.modVnode n (fun q => { q with got := kset q.got child v })).tryCombine n j
    if ((c1.vnode n).past v.step) then c1.takeLater n else (c1, [])

/-- A contribution reaches a node: one for a step that is over is discarded, one at a successor that settles a step waits (R281). -/
def Core.takeOne (c : Core) (n child : Nat) (v : VContrib) : Core × List (Nat × VContrib) :=
  match c.job? n with
  | none => (c, [])
  | some j =>
    if (c.vnode n).polling.isSome then
      (c.modVnode n (fun q => { q with later := kset q.later child v, polling := q.polling.map (fun l => l.erase child) }), [])
    else if (c.vnode n).past v.step then (c, [])
    else c.takeOpen n j child v

/-- Contributions taken in order, with those that a decided step sets free; the number bounds how often one is taken. -/
def Core.takeContribs (c : Core) (n : Nat) : Nat → List (Nat × VContrib) → Core
  | 0, _ => c
  | _, [] => c
  | k + 1, e :: l =>
    let r := c.takeOne n e.1 e.2
    r.1.takeContribs n k (r.2 ++ l)

/-- A bound on the contributions taken for one that arrives: each decided step sets at most those held free again. -/
def VNode.fuel (v : VNode) : Nat := (v.got.length + v.later.length + 3) * (v.got.length + v.later.length + 3)

/-- A contribution reaches a node from one of its children or from the device itself (R276, R277, R282). `child` is the
device it came from. -/
def Core.contribute (c : Core) (n child : Nat) (v : VContrib) : Core :=
  c.takeContribs n (c.vnode n).fuel [(child, v)]

/-- The contributions held for later steps are taken again, once a record has ended a step. -/
def Core.contributeLater (c : Core) (n : Nat) : Core :=
  let r := c.takeLater n
  r.1.takeContribs n (c.vnode n).fuel r.2

/-- The abandon contribution of this device (R286): one contribution per step. -/
def Core.sendAbandon (c : Core) (n cause : Nat) : Core :=
  let s := c.stepSt n
  if s.contributed ∨ s.abandonSent then c
  else (c.modStep n (fun s => { s with abandonSent := true })).contribute n c.devNum
    { step := c.stepOf n, nonfinite := false, absurd := false, abandon := true, cause := cause, origin := c.devNum,
      normSq := 0, late := 0, empty := 0, devices := 1 }

/-- The abandon flag set with a cause that no contribution holds off (R286, R292). -/
def Core.forceAbandon (c : Core) (n cause : Nat) : Core :=
  match c.run? n with
  | none => c
  | some r => if r.step.abandon.isSome then c else (c.markAbandon n cause).sendAbandon n cause

/-- A local cause sets the abandon flag (R286); once the device has contributed it is a late cause of the next step (R283), kept with
the context. -/
def Core.setAbandon (c : Core) (n cause : Nat) : Core :=
  match c.run? n with
  | none => c
  | some r =>
    if r.step.contributed then
      (if r.step.abandon.isSome then c else c.modCtx n (fun x => { x with lateCause := some (stepMod (r.stepNo + 1)) }))
    else c.forceAbandon n cause

/-- The record instance of the running VERDICT. -/
def Core.verdictInst (c : Core) (n : Nat) : Option Nat :=
  (c.cols.findSome? (fun e => e.2.run.bind (fun r => if r.a.op = 0x82 ∧ r.a.ctx = n then some r.a.inst else none)))

/-- Whether a REDUCE issued before the running VERDICT has not reached its completion point. -/
def Core.reduceOpen (c : Core) (n : Nat) : Bool :=
  let v := (c.verdictInst n).getD 0
  c.cols.any (fun e =>
    (match e.2.run with | some r => decide (r.a.op = 0x81 ∧ ¬ r.done ∧ r.a.inst < v) | none => false) ||
    e.2.queue.any (fun a => decide (a.op = 0x81 ∧ a.inst < v)))

/-- The device's own contribution (R275): when VERDICT has begun and every REDUCE issued before it is complete. -/
def Core.tryContribute (c : Core) (n : Nat) : Core :=
  let s := c.stepSt n
  if (c.job? n).isSome ∧ s.contribPending ∧ ¬ s.contributed ∧ ¬ s.abandonSent ∧ ¬ c.reduceOpen n then
    let absurd := match c.ctx? n with | some x => x.absurdNext | none => false
    let late := match c.ctx? n with | some x => x.lateNonfinite | none => false
    let c1 := (c.modStep n (fun s => { s with contributed := true })).modCtx n (fun x => { x with absurdNext := false, lateNonfinite := false })
    c1.contribute n c.devNum
      { step := c.stepOf n, nonfinite := s.nonfinite || late, absurd := absurd, abandon := false, cause := 0, origin := 0,
        normSq := s.normSq, late := s.lateTiles, empty := s.emptyTiles, devices := 1 }
  else c

/-- The step's non-finite flag raised (R274); after the contribution it joins the device's next one (R275). -/
def Core.raiseNonfinite (c : Core) (n : Nat) : Core :=
  if (c.stepSt n).contributed then c.modCtx n (fun x => { x with lateNonfinite := true })
  else c.modStep n (fun s => { s with nonfinite := true })

/-! ## Census and traps (R130 to R138) -/

/-- The place number of a unit: a cell, or a die with bit 15 (R137, R462). -/
def placeNum : UnitId → Nat
  | .cell c _ => c
  | u => 2 ^ 15 + u.die

/-- The stream engine number of a unit. -/
def engOf : UnitId → Option Nat
  | .se _ e => some e
  | _ => none

/-- A census counter raised, saturating in 48 bits (R130); the key is its offset in the snapshot. -/
def Core.censusAdd (c : Core) (n off k : Nat) : Core :=
  if k = 0 then c
  else c.modCtx n (fun x => { x with census := kset x.census off (min (kgetD x.census off 0 + k) (2 ^ 48 - 1)) })

/-- The slot of a conversion count (R132). -/
def convSlot (fmt cls kind : Nat) : Nat := 0x40 + 8 * (15 * fmt + 3 * cls + kind)

/-- The trap record of an event (R137). A confidential context's record carries no operand (R442). -/
def trapRecord (conf : Bool) (step : Nat) (u : UnitId) (a : ActionInst) (halted : Bool) (cause row col kpos opa opb : Nat) : Trap :=
  { step := step, pc := a.addr, slotGroup := a.slotGroup, word := a.word, opcode := a.op, cause := cause,
    isDie := (match u with | .cell _ _ => false | _ => true), place := placeNum u % 2 ^ 15, ctx := a.ctx, halted := halted,
    eng := engOf u, loops := a.loops, row := row, col := col, kpos := if cause = 1 then kpos else 0xFFFFFFFF,
    opa := if cause = 1 ∧ ¬ conf then opa else 0, opb := if cause = 1 ∧ ¬ conf then opb else 0,
    unnamed := if a.op = 0x81 ∧ a.addr = 0 then some (bits a.bits 127 116) else none }

/-- The 64 bytes of a trap record (R137). -/
def Trap.bytes (t : Trap) : List Byte :=
  leBytes (stepMod t.step) 8 ++ leBytes (t.pc % 2 ^ 24) 4 ++ leBytes (t.slotGroup % 256 * 256 + t.word % 256) 2 ++
  leBytes t.opcode 1 ++ leBytes t.cause 1 ++ leBytes (t.place % 1024 + 2 ^ 15 * b2n t.isDie) 2 ++ leBytes t.ctx 1 ++
  leBytes (1 + 2 * b2n t.halted + (match t.eng with | some e => 4 + 8 * e | none => 0)) 1 ++ zeros 4 ++
  ((List.range 8).flatMap (fun i => leBytes (t.loops.getD i 0) 2)) ++
  leBytes t.row 4 ++ leBytes t.col 4 ++ leBytes t.kpos 4 ++ zeros 4 ++ leBytes t.opa 4 ++ leBytes t.opb 4

/-- A NaN event reaches the trap register (R134, R138): it counts; the step's first one is recorded, raises the non-finite
flag, and halts the run under the halt action. -/
def Core.nanEvent (c : Core) (u : UnitId) (a : ActionInst) (cause row col kpos opa opb : Nat) : Core :=
  match c.ctx? a.ctx with
  | none => c
  | some x =>
    let c1 := c.censusAdd a.ctx 0x558 1
    if x.trap.isSome then c1
    else
      let halt := x.haltOnTrap && (match x.run with | some r => !r.halted | none => false)
      let t := trapRecord x.conf (c.stepOf a.ctx) u a halt cause row col kpos opa opb
      let c2 := (c1.modCtx a.ctx (fun x => { x with trap := some t })).raiseNonfinite a.ctx
      if halt then
        (c2.modRun a.ctx (fun r => { r with halted := true })).replyWaiting
          (fun w => w.pkt.ctxNum = a.ctx && (w.kind = .run || w.kind = .resume)) 0x543 [c.stepOf a.ctx]
      else c2

/-- The NaN events that an action has formed reach the trap register: each counts, and one of them is reported, unless the action has
reported one before (R134). -/
def Core.reportEvs (c : Core) (u : UnitId) (a : ActionInst) (e : ActEvs) : Core :=
  match e.best with
  | none => c
  | some b =>
    if e.told then c.censusAdd a.ctx 0x558 (e.count + b2n e.input)
    else (c.censusAdd a.ctx 0x558 (e.count + b2n e.input - 1)).nanEvent u a b.cause b.row b.col b.kpos b.opa b.opb

/-- The events of an update unit's sweep reach the trap register as its action ends: one report per action (R134). -/
def Core.sweepEvents (c : Core) (d : Nat) (a : ActionInst) : Core :=
  match kget c.sweeps d with
  | none => c
  | some w =>
    let c1 := { c with sweeps := kdel c.sweeps d }
    match w.best with
    | none => c1
    | some (k, row, col, opa, opb) =>
      (c1.censusAdd a.ctx 0x558 (w.evs + b2n w.input - 1)).nanEvent (.uu d) a k row col 0 opa opb

/-! ## Action faults and detections (R90, R456 to R464) -/

/-- The action check record (R462): written when not valid, else one more in AR_COUNT. -/
def Core.actionRecord (c : Core) (u : UnitId) (a : ActionInst) (reason detail : Nat) : Core :=
  let b := u.sunit.base
  if bit (c.rget (b + 0x140)) 63 then
    let w := c.rget (b + 0x158)
    c.rset (b + 0x158) (min (w % 2 ^ 32 + 1) (2 ^ 32 - 1) + w / 2 ^ 32 * 2 ^ 32)
  else
    let eng := match engOf u with | some e => 2 ^ 7 + e | none => 0
    (((c.rset (b + 0x148) (a.addr % 2 ^ 24 + 2 ^ 32 * (a.slotGroup % 256 * 256 + a.word % 256) + 2 ^ 48 * a.op + 2 ^ 56 * reason)).rset
      (b + 0x150) (placeNum u + 2 ^ 16 * eng + 2 ^ 32 * (detail % 2 ^ 32))).rset (b + 0x158) 0).rset
      (b + 0x140) (c.stepOf a.ctx + 2 ^ 40 * a.ctx + 2 ^ 63)

/-- The running action stops and completes at once; its pass ends and its windows close. -/
def Core.stopAction (c : Core) (u : UnitId) (a : ActionInst) : Core :=
  let c1 := (c.actDone u).closeWins u a
  match u with
  | .se d e =>
    let c2 := match (kget c1.engines (d, e)).bind (fun g => g.pass) with | some p => c1.releasePins p | none => c1
    { c2 with engines := kmod c2.engines (d, e) (fun g => { g with pass := none }) }
  | .uu d => { c1 with pushTags := kdel c1.pushTags d }.sweepEvents d a
  | _ => c1

/-- An action fault (R90, R457, R460, R462): the action stops and completes, the action check records it, and the abandon
flag is set. A reason other than 0x09 is an error of detector 0 itself, which owes a self-test except in a cell. -/
def Core.actionFault (c : Core) (u : UnitId) (reason detail : Nat) : Core :=
  match c.running u with
  | none => c
  | some r =>
    let owes := match u with | .cell _ _ => false | _ => true
    let c1 := if reason = 9 then c.rset (u.sunit.base + 0x100) (c.rget (u.sunit.base + 0x100) ||| 1)
      else c.error u.sunit 0 0 (Config.syndrome c.freeCtr % 2 ^ 32) false false owes
    ((c1.actionRecord u r.a reason detail).stopAction u r.a).setAbandon r.a.ctx 0x01

/-- Detectors whose error stops the chip (R457, R459). -/
def chipDetector (u : SUnit) (det : Nat) : Bool :=
  match u with
  | .chip => det ≤ 1
  | .sub d k _ => d = 0 && (k = 4 || k = 5) && det = 0
  | _ => false

/-- Every running action of the units that a test selects faults on a hardware error. -/
def Core.faultAll (c : Core) (sel : UnitId → Bool) (detail : Nat) : Core :=
  ((c.cols.filter (fun e => sel e.1 && (match e.2.run with | some r => !r.done | none => false))).map Prod.fst).foldl
    (fun c u => c.actionFault u 9 detail) c

/-- An error of a detector with the effect that R457's table gives it, met while an action of `u` runs. -/
def Core.errorAt (c : Core) (u : UnitId) (blk : SUnit) (det wher synd : Nat) (injected : Bool) : Core :=
  if chipDetector blk det then
    let c1 := c.error blk det wher synd false injected false
    { c1 with failCnt := kset c1.failCnt (.die 0) (min 255 (kgetD c1.failCnt (.die 0) 0 + 1)), failDirty := true }.chipStop true
  else match blk, det with
    | .cell _, 0 => (c.error blk 0 wher synd false injected false).actionFault u 9 wher
    | .die d, 1 => (c.error blk 1 wher synd false injected true).faultAll (fun v => v.die = d) wher
    | .region r, 1 => (c.error blk 1 wher synd false injected true).faultAll (fun v => dieRegion v.die = r) wher
    | .stack m, 0 => ((c.error blk 0 wher synd false injected false).poison (m * 2 ^ 36 + wher)).owe blk 0 (some (wher / 64 * 64))
    | .stack m, 1 => (c.error blk 1 wher synd false injected true).poison (m * 2 ^ 36 + wher)
    | .sub _ 6 _, _ => { c.error blk det wher synd false injected true with out := c.out ++ [.aer] }
    | _, _ => (c.error blk det wher synd false injected true).actionFault u 9 wher

/-- A miscorrected HBM word is written back with the data and metadata that the decoder took for the true ones (R247). -/
def Core.miscorrect (c : Core) (p : Nat) (w : List Byte) : Core :=
  let t := fieldAt w 64 4
  { c with
    hbm := mputsZ c.hbm (p / 64 * 64) (padTo 64 (w.take 64)),
    words := kset c.words (p / 64) { ctx := bits t 31 28, gen := bits t 27 24, idx := bits t 23 8, pois := t % 256 ≠ 0 } }

/-- A correction of a detector, with the word that an HBM decoder took wrongly (R247, R456). -/
def Core.corrected (c : Core) (blk : SUnit) (up : Upset) : Core :=
  let c1 := c.correction blk up.det 1
  match blk, up.wrong with
  | .stack m, some w => c1.miscorrect (m * 2 ^ 36 + up.wher) w
  | _, _ => c1

/-- A detection made while an action runs (R456, R457): a correction counts, an error has its effect. -/
def Core.detect (c : Core) (u : UnitId) (blk : SUnit) (up : Upset) (injected : Bool) : Core :=
  if up.corrected then c.corrected blk up else c.errorAt u blk up.det up.wher up.synd injected

/-- Whether a detector of R457 corrects. -/
def corrects (u : SUnit) (det : Nat) : Bool :=
  match u with
  | .cell _ => det = 1 || det = 2
  | .die d => det = 0 || (isLinkDie d && det = 2)
  | .region _ => det = 0
  | .stack _ => det = 0
  | .link _ => det = 0 || det = 1
  | _ => false

/-- Whether R457's table lists a detector of a block or window. -/
def detExists (u : SUnit) (det : Nat) : Bool :=
  match u with
  | .cell _ => det ≤ 4
  | .die d => det ≤ 1 || (isLinkDie d && det = 2)
  | .region _ => det ≤ 1
  | .stack _ => det ≤ 2
  | .link _ => det ≤ 2
  | .sub d k _ => (k = 7 && det ≤ 1) || (k = 8 && det ≤ 1) || (k = 11 && det ≤ 1) || (k = 12 && det ≤ 1) ||
      (d = 0 && 4 ≤ k && k ≤ 6 && det = 0)
  | .chip => det ≤ 1

/-- The injections that an armed control makes in `n` checks of a detector (R464): correctable patterns count and go on,
an error ends them. Answers whether an error was injected. -/
def Core.injections (c : Core) (u : SUnit) (det : Nat) : Nat → Core × Bool
  | 0 => (c, false)
  | n + 1 =>
    match c.inject u det with
    | (none, c1) => (c1, false)
    | (some mode, c1) =>
      if mode = 0 ∧ corrects u det then (c1.correction u det 1).injections u det n
      else (c1, true)

/-! ## Checks of an HBM read (R247, R248, R457, R464) -/

/-- An uncorrectable word found in a stack (R248, R457): poisoned, recorded, and its self-test owed. -/
def Core.badWord (c : Core) (m a : Nat) (injected : Bool) : Core :=
  (((c.error (.stack m) 0 (a % 2 ^ 36) (Config.syndrome c.freeCtr % 2 ^ 32) false injected false).drawn).poison (m * 2 ^ 36 + a)).owe
    (.stack m) 0 (some (a / 64 * 64))

/-- A word whose tag is not its owner's: recorded and poisoned (R248). -/
def Core.badTag (c : Core) (p : Nat) (injected : Bool) : Core :=
  ((c.error (.stack (p / 2 ^ 36)) 1 (p % 2 ^ 36) (Config.syndrome c.freeCtr % 2 ^ 32) false injected true).drawn).poison p

/-- Whether a clean word carries another tag than its owner's. -/
def Core.mistagged (c : Core) (p ctx gen idx : Nat) : Bool :=
  match kget c.words (p / 64) with
  | none => false
  | some w => !w.pois && (w.ctx ≠ ctx || w.gen ≠ gen % 16 || w.idx ≠ idx)

/-- One HBM word read, through a plot map where an owner (context, generation, index) is given: the controller's parity, the code and
the tag are checked, armed controls included. Answers whether the parity failed the access. -/
def Core.wordRead (c : Core) (p : Nat) (owner : Option (Nat × Nat × Nat)) : Core × Bool :=
  let m := p / 2 ^ 36
  let synd (c : Core) : Nat := Config.syndrome c.freeCtr % 2 ^ 32
  match c.inject (.stack m) 2 with
  | (some _, c1) => ((c1.error (.stack m) 2 0 (synd c1) false true true).drawn, true)
  | (none, c1) =>
    let c2 := match c1.inject (.stack m) 0 with
      | (some 0, c2) => c2.correction (.stack m) 0 1
      | (some 2, c2) => ((c2.error (.stack m) 0 (p % 2 ^ 36) (synd c2) false true false).drawn).owe (.stack m) 0 (some (p % 2 ^ 36 / 64 * 64))
      | (some _, c2) => c2.badWord m (p % 2 ^ 36) true
      | (none, c2) => c2
    match owner with
    | none => (c2, false)
    | some (n, g, i) =>
      match c2.inject (.stack m) 1 with
      | (some 2, c3) => ((c3.error (.stack m) 1 (p % 2 ^ 36) (synd c3) false true true).drawn, false)
      | (some _, c3) => (c3.badTag p true, false)
      | (none, c3) => (if c3.mistagged p n g i then c3.badTag p false else c3, false)

/-- Whether no HBM word has metadata of its own and no control of a stack is armed: reads then change nothing. -/
def Core.hbmQuiet (c : Core) : Bool :=
  c.words.isEmpty && (List.range 24).all (fun m => (List.range 3).all (fun d => !bit (c.rget (injAddr (.stack m) d)) 63))

/-- The words of a physical stretch read. Answers whether the controller's parity failed. -/
def Core.physRead (c : Core) (p len : Nat) (owner : Option (Nat × Nat × Nat)) : Core × Bool :=
  if c.hbmQuiet then (c, false)
  else (chunks p (len + 1) len).foldl (fun acc k => if acc.2 then acc else acc.1.wordRead k.1 owner) (c, false)

/-- The HBM words of a stretch read through a context's plot map. Answers whether the controller's parity failed. -/
def Core.hbmRead (c : Core) (n a len : Nat) : Core × Bool :=
  if c.hbmQuiet then (c, false)
  else (chunks a (len + 1) len).foldl (fun acc k =>
    if acc.2 then acc
    else match acc.1.locate n k.1 with
      | .hbm p i => acc.1.wordRead p (some (n, (match acc.1.obj? n i with | some o => o.gen | none => 0), i))
      | _ => acc) (c, false)

/-- Several stretches read for an action of a unit: a parity failure faults it. Answers whether it did. -/
def Core.actionReads (c : Core) (u : UnitId) (n : Nat) (l : List (Nat × Nat)) : Core × Bool :=
  l.foldl (fun acc r =>
    if acc.2 then acc
    else match acc.1.hbmRead n r.1 r.2 with
      | (c1, true) => (c1.actionFault u 9 r.1, true)
      | (c1, false) => (c1, false)) (c, false)

/-- An action's checked accesses (R457, R464): real detections, then armed injections over `n` checks of each detector.
Answers whether the action was faulted. -/
def Core.checks (c : Core) (u : UnitId) (ups : List Upset) (dets : List (Nat × Nat)) : Core × Bool :=
  let blk := u.sunit
  let c1 := (ups.filter (fun x => x.corrected)).foldl (fun c x => c.detect u (x.blk.getD blk) x false) c
  match ups.find? (fun x => !x.corrected) with
  | some x => (c1.detect u (x.blk.getD blk) x false, true)
  | none =>
    dets.foldl (fun (acc : Core × Bool) dn =>
      if acc.2 then acc
      else match acc.1.injections blk dn.1 (min dn.2 255) with
        | (c2, true) => (c2.detect u blk (Upset.mk none dn.1 false 0 (Config.syndrome c2.freeCtr % 2 ^ 32) none) true, true)
        | (c2, false) => (c2, false)) (c1, false)

/-- One transfer over a CRC-checked path (R457, R464): every attempt is a check, and up to three retries repair it. Answers whether
the transfer failed; `k` attempts are left. -/
def Core.transfer (c : Core) (blk : SUnit) : Nat → Core × Bool
  | 0 => (c, true)
  | k + 1 =>
    match c.inject blk 0 with
    | (none, c1) => (if k = 3 then c1 else c1.correction blk 0 (3 - k), false)
    | (some _, c1) => c1.transfer blk k

/-- Armed controls of the die router, die controller, region crossbar and its arbiter take a transfer that an action of `u` makes
(R457, R464). Answers whether its action has faulted. -/
def Core.pathChecks (c : Core) (u : UnitId) : Core × Bool :=
  let d := u.die
  let hit (c : Core) (blk : SUnit) (det : Nat) : Core := (c.errorAt u blk det 0 (Config.syndrome c.freeCtr % 2 ^ 32) true).drawn
  match c.transfer (.die d) 4 with
  | (c1, true) => (hit c1 (.die d) 0, true)
  | (c1, false) =>
    match c1.injections (.die d) 1 1 with
    | (c2, true) => (hit c2 (.die d) 1, true)
    | (c2, false) =>
      match c2.transfer (.region (dieRegion d)) 4 with
      | (c3, true) => (hit c3 (.region (dieRegion d)) 0, true)
      | (c3, false) =>
        match c3.injections (.region (dieRegion d)) 1 1 with
        | (c4, true) => (hit c4 (.region (dieRegion d)) 1, true)
        | (c4, false) => (c4, false)

/-! ## Stream faults (R181 to R186) -/

/-- A field of a pass's descriptor: `len` bytes at byte `off` of the 128. -/
def Pass.field (p : Pass) (off len : Nat) : Nat := fieldN p.image off len

/-- A fault record (R186). `resolvable` and `unresolved` are F_FLAGS[0] and [3]. -/
def faultRecord (x : Ctx) (n step cause d e addr handle desc flags tile : Nat) (idx : List Nat) (ix : Nat) : List Byte :=
  leBytes step 8 ++ leBytes x.fSeq 4 ++ leBytes n 1 ++ leBytes cause 1 ++ leBytes d 1 ++ leBytes e 1 ++ leBytes addr 8 ++
  leBytes handle 4 ++ leBytes desc 2 ++ leBytes flags 2 ++ leBytes tile 8 ++
  ((List.range 5).flatMap (fun i => leBytes (idx.getD i 0) 4)) ++ leBytes ix 4

/-- A fault record written to the context's fault ring, when enabled (R182, R195). -/
def Core.writeFault (c : Core) (n d e cause addr handle desc flags tile : Nat) (idx : List Nat) (ix : Nat) : Core :=
  match c.ctx? n with
  | none => c
  | some x =>
    if x.faultRing.enabled then
      (c.ringWrite x.faultRing x.fSeq (16 + 3 * n) (faultRecord x n (c.stepOf n) cause d e addr handle desc flags tile idx ix)).modCtx n
        (fun x => { x with fSeq := (x.fSeq + 1) % 2 ^ 32 })
    else c

end Sys2Proof.Machine
end

