-- ==== Sys2Proof/Machine/Changes.lean ====
section
/-!
DEFINITION. The changes that wait for a context's settle point, and what they touch of its tables (R165, R294, R321, R329, R370, R373,
R491).
-/
namespace Sys2Proof.Machine
open Sys2Proof

/-- An entry of a context's table; 0 for an empty one. -/
def Ctx.entry (x : Ctx) (t e : Nat) : Nat := kgetD x.tables (t, e) 0
def Core.entry (c : Core) (n t e : Nat) : Nat := match c.ctx? n with | some x => x.entry t e | none => 0

/-- Table numbers. -/
def tDesc : Nat := 0
def tRoute : Nat := 1
def tLayer : Nat := 2
def tShard : Nat := 3
def tPlan : Nat := 4
def tSched : Nat := 5
def tTree : Nat := 6
def tDisp : Nat := 7

/-- Fields of an update plan and of its list's entries that the changes need (R297, R298). -/
def uCount (e : Nat) : Nat := fieldN e 8 4
def uList (e : Nat) : Nat := fieldN e 0x10 8
def slXacc (e : Nat) : Nat := fieldN e 0x38 8

/-- Fields of a tree-set entry and of its list's entries that relinking needs (R357, R358). -/
def tsCount (e : Nat) : Nat := fieldN e 0 4
def tsList (e : Nat) : Nat := fieldN e 8 8
def trLdie (e : Nat) : Nat := fieldN e 7 1

/-- The logical link dies that the list of a tree set names (R358); none where it cannot be read. -/
def Core.treeDies (c : Core) (n tset : Nat) : List Nat :=
  let e := c.entry n tTree tset
  match c.readBytes n (tsList e) (128 * tsCount e) with
  | .ok b => (List.range (tsCount e)).map (fun i => trLdie (ofLe ((b.drop (128 * i)).take 128)))
  | .error _ => []

/-- The shard list of a plan (R298); none where it cannot be read. -/
def Core.shardList (c : Core) (n p : Nat) : Except Nat (List Nat) :=
  match c.readBytes n (uList p) (128 * uCount p) with
  | .ok b => .ok ((List.range (uCount p)).map (fun i => ofLe ((b.drop (128 * i)).take 128)))
  | .error e => .error e

/-- A verdict node that has heard nothing. -/
def VNode.fresh : VNode := { got := [], later := [], decided := none, latest := none, polling := none, polled := none }

/-- A binding ends (R373): its JOB_BIND and any waiting JOB_UNBIND reply. -/
def Core.unbind (c : Core) (n : Nat) : Core :=
  ((c.modCtx n (fun x => { x with job := none, vnode := VNode.fresh })).replyWaiting
    (fun w => w.pkt.ctxNum = n && w.kind = .bind) 0 []).replyWaiting (fun w => w.pkt.ctxNum = n && w.kind = .unbind) 0 []

/-! ## Changes at the settle point (R165, R294, R329, R370, R491) -/

/-- Entries written from a first one on; a zero entry is an empty one. -/
def putWords (t : KMap (Nat × Nat) Nat) (tab first : Nat) (es : List Nat) : KMap (Nat × Nat) Nat :=
  (List.range es.length).foldl (fun m i =>
    let v := es.getD i 0
    if v = 0 then kdel m (tab, first + i) else kset m (tab, first + i) v) t

/-- The accumulators of a plan's shards (R321). -/
def Core.accumulators (c : Core) (n plan : Nat) : List Nat :=
  match c.shardList n (c.entry n tPlan plan) with
  | .ok l => (l.map slXacc).filter (· ≠ 0)
  | .error _ => []

/-- The control block's two offsets of a ring just set (R319, R329): by DMA, or by a WRITE to the peer device. -/
def Core.zeroOffsets (c : Core) (n : Nat) (x : Export) : Core :=
  if x.kind = 1 then (if c.reach x.base 16 then c.dma x.base (zeros 16) else c)
  else if x.kind = 2 then c.request n (x.base / 2 ^ 45) kWrite (leBytes (x.base % 2 ^ 45) 8 ++ zeros 16) (.uu (nthPortDie 0))
  else c

/-- A change that takes effect. -/
def Core.applyPend (c : Core) (n : Nat) (p : Pend) : Core :=
  match p with
  | .words t first es => c.modCtx n (fun x => { x with tables := putWords x.tables t first es })
  | .register es => c.modCtx n (fun x => { x with
      tables := putWords (x.tables.filter (fun e => e.1.1 ≠ tShard)) tShard 0 es })
  | .limits stall park => c.modCtx n (fun x => { x with stallMs := stall, parkMs := park })
  | .params d live stash spill => c.modCtx n (fun x => { x with deadline := d, liveMs := live, stash := stash, spill := spill })
  | .trap halt => c.modCtx n (fun x => { x with haltOnTrap := halt })
  | .loss l => c.modCtx n (fun x => { x with loss := l })
  | .exportEntry e xp =>
    let sets := match c.ctx? n with | some x => (match kget x.exports e with | some o => o.sets + 1 | none => 1) | none => 1
    (c.modCtx n (fun x => { x with exports := kset x.exports e { xp with sets := sets } })).zeroOffsets n xp
  | .bedrock plan =>
    let l := c.accumulators n plan
    c.modCtx n (fun x => { x with bedrock := (x.bedrock ++ l).eraseDups })
  | .ring k r => c.modCtx n (fun x => match k with
      | 0 => { x with faultRing := r }
      | 1 => { x with verdictRing := r }
      | _ => { x with censusRing := r })

/-- A change made now, or at the context's next settle point while a run is started (R491). -/
def Core.change (c : Core) (n : Nat) (p : Pend) : Core :=
  if c.runStarted n then c.modCtx n (fun x => { x with pend := x.pend ++ [p] }) else c.applyPend n p

/-- The changes that waited for the context's own settle point (R491); words for a table that a fence has lost are dropped. -/
def Core.settleCtx (c : Core) (n : Nat) : Core :=
  match c.ctx? n with
  | none => c
  | some x =>
    let c1 := x.pend.foldl (fun c q => match q with
      | .words t _ _ => if ((c.ctx? n).map (fun x => x.absent.contains t)).getD true then c else c.applyPend n q
      | .register _ => if ((c.ctx? n).map (fun x => x.absent.contains tShard)).getD true then c else c.applyPend n q
      | _ => c.applyPend n q) (c.modCtx n (fun x => { x with pend := [] }))
    let c2 := ((x.objs.filter (fun o => o.2.freeAtSettle)).map Prod.fst).foldl (fun c i => c.freeObj n i) c1
    if (match x.job with | some j => j.unbind | none => false) then c2.unbind n else c2

end Sys2Proof.Machine
end

