-- ==== Sys2Proof/Machine/Service.lean ====
section
/-!
DEFINITION. Units in and out of service: fences and their escalation, disables, relinking, targeted self-tests and the
failure counts, and the passing of the sequencer from one context to the next (R17 to R30, R71 to R77, R465 to R469).
-/
namespace Sys2Proof.Machine
open Sys2Proof

/-! ## The fence registers (R29, R30) -/

/-- Whether a unit's bit stands in the fence registers. -/
def Core.out_ (c : Core) (u : SUnit) : Bool := !(c.usable u)

/-- A mask of `n` bits from a test. -/
def mask (n : Nat) (f : Nat → Bool) : Nat := ((List.range n).map (fun i => if f i then 2 ^ i else 0)).sum

/-- FENCE_REGION, FENCE_DIE, FENCE_LINK, FENCE_STACK and the 18 FENCE_CELL registers. -/
def Core.fenceRegion (c : Core) : Nat := mask 4 (fun r => c.out_ (.region r))
def Core.fenceDie (c : Core) : Nat := mask 64 (fun d => c.out_ (.die d))
def Core.fenceLink (c : Core) : Nat := mask 36 (fun l => c.out_ (.link l))
def Core.fenceStack (c : Core) : Nat := mask 24 (fun m => c.out_ (.stack m))
def Core.fenceCell (c : Core) (i : Nat) : Nat := mask 32 (fun b => c.out_ (.cell (32 * i + b)))

/-- All of them, in the order of R29. -/
def Core.fenceRegs (c : Core) : List Nat :=
  [c.fenceRegion, c.fenceDie, c.fenceLink, c.fenceStack] ++ (List.range 18).map c.fenceCell

/-! ## Escalation (R19, R466) -/

/-- Units added to the fenced set. -/
def Core.addFences (c : Core) (us : List SUnit) : Core :=
  { c with fenced := us.foldl (fun l u => if l.contains u then l else l ++ [u]) c.fenced }

/-- What a lasting classification fences: a sub-unit's die, a hub's region, and the chip for D00 or region 0 (R17, R466). -/
def fenceTarget : SUnit → SUnit
  | .sub d _ _ => if isHub d then (if d = 0 then .chip else .region (dieRegion d)) else .die d
  | .die d => if isHub d then (if d = 0 then .chip else .region (dieRegion d)) else .die d
  | .region r => if r = 0 then .chip else .region r
  | u => u

/-- Dies to fence because more than 8 of their cells are, or both of their stacks are. -/
def Core.escDies (c : Core) : List SUnit :=
  ((List.range 64).filter (fun d => !(c.isFenced (.die d)) &&
    ((isTensor d && 8 < ((List.range 16).filter (fun i => c.isFenced (.cell (16 * tensorIdx d + i)))).length) ||
     (isPort d && c.isFenced (.stack (6 * dieRegion d + 2 * (dieLocal d - 10))) &&
        c.isFenced (.stack (6 * dieRegion d + 2 * (dieLocal d - 10) + 1)))))).map SUnit.die

/-- Regions to fence because no tensor die, no port die or no link die of theirs is usable. A region that is itself removed by
command stays disabled: its hub answers for it, and it can be enabled (R28, R469). -/
def Core.escRegions (c : Core) : List SUnit :=
  ((List.range 4).filter (fun r => !(c.isFenced (.region r)) && !(c.isDisabled (.region r)) &&
    ((List.range 9).all (fun i => !(c.usable (.die (16 * r + 1 + i)))) ||
     (List.range 3).all (fun i => !(c.usable (.die (16 * r + 10 + i)))) ||
     (List.range 3).all (fun i => !(c.usable (.die (16 * r + 13 + i))))))).map SUnit.region

/-- One pass of escalation from the dies up; the chip is fenced where region 0 would be or fewer than three regions are
usable. -/
def Core.escalate (c : Core) : Core :=
  let c1 := c.addFences c.escDies
  let rs := c1.escRegions
  let c2 := c1.addFences (rs.filter (fun r => r ≠ .region 0))
  if rs.contains (.region 0) || c2.usableRegions.length < 3 then c2.addFences [.chip] else c2

/-! ## Relinking (R71 to R73) -/

/-- A field of a program image's header: `len` bytes at byte `off`. -/
def hdrField (units : List Nat) (off len : Nat) : Nat :=
  ((units.getD (off / 16) 0) / 256 ^ (off % 16)) % 256 ^ len

/-- The class of a record by its header (R50). -/
def recClass (h : Nat) : Nat := bits h 7 0

/-- Physical die of a logical die: the region's is the q-th usable one, the local number stays (R72). -/
def Core.mapDie (c : Core) (q localNo : Nat) : Option Nat := (c.usableRegions[q]?).map (fun r => 16 * r + localNo)

/-- Whether a program fits the units in service (R73). -/
def Core.fits (c : Core) (units : List Nat) : Bool :=
  let q := hdrField units 0x06 1
  q ≤ c.usableRegions.length &&
  (List.range 12).all (fun n => !(bit (hdrField units 0x10 2) n) ||
    (match c.mapDie (n / 3) (10 + n % 3) with | some d => c.usable (.die d) | none => false)) &&
  (List.range 12).all (fun n => !(bit (hdrField units 0x12 2) n) ||
    (match c.mapDie (n / 3) (13 + n % 3) with | some d => c.usable (.die d) | none => false)) &&
  (List.range 36).all (fun t => hdrField units (0x40 + t) 1 = 0 ||
    (match c.mapDie (t / 9) (t % 9 + 1) with
     | some d => hdrField units (0x40 + t) 1 ≤ (c.usableCells (tensorIdx d)).length
     | none => false))

/-- Whether every link die that the lists of a program's tree sets name maps to a usable one (R362). -/
def Core.treesFit (c : Core) (n : Nat) (trees : List Nat) : Bool :=
  trees.all (fun t => (c.treeDies n t).all (fun k => match c.mapDie (k / 3) (13 + k % 3) with | some d => c.usable (.die d) | none => false))

/-! ## Context switch (R77) -/

/-- The next context with a run started, in ascending number with wrap-around after `n`. -/
def Core.nextCtx (c : Core) (n : Nat) : Option Nat :=
  ((List.range 16).map (fun k => (n + 1 + k) % 16)).find? (fun k => match c.ctx? k with
    | some x => !x.stopped && (match x.run with | some r => !r.halted | none => false)
    | none => false)

/-- Cells that the running context's program maps to; every other cell is power-gated and loses what its SRAM holds (R388). -/
def Core.gate (c : Core) : Core :=
  let used : List Nat := match c.cur.bind (fun n => c.ctx? n) with
    | some x => (match x.run.bind (fun r => kget x.progs r.slot) with
      | some g => (List.range 36).flatMap (fun t => match c.mapDie (t / 9) (t % 9 + 1) with
          | some d => (c.usableCells (tensorIdx d)).take (hdrField g.units (0x40 + t) 1)
          | none => [])
      | none => [])
    | none => []
  let off := (List.range 576).filter (fun k => !(used.contains k))
  if off = c.gated then c
  else { c with gated := off, sram := c.sram.filter (fun e => used.contains (e.1 / 2 ^ 22)), sramEpoch := c.sramEpoch + 1 }

/-- Whether a run stands at its end record: no further step of it begins (R68). -/
def Ctx.atEnd (x : Ctx) (r : Run) : Bool :=
  match kget x.progs r.slot with
  | some g => recClass (g.units.getD r.pc 0) = 5
  | none => false

/-- The late abandon of R283 and a record that came early, taken as a context's step begins: s + 1 is the step of that number,
whichever run begins it. -/
def Core.beginStep (c : Core) (n : Nat) : Core :=
  match c.ctx? n with
  | none => c
  | some x => match x.run with
   | none => c
   | some r =>
    if x.atEnd r then c else
    let late := x.lateCause = some (stepMod r.stepNo)
    let c1 := if late then c.modCtx n (fun x => { x with lateCause := none }) else c
    let c2 := if late then c1.setAbandon n 0x0C else c1
    match (c2.vnode n).latest with
    | some v => if stepMod v.step = c2.stepOf n ∧ (c2.stepSt n).verdict.isNone ∧ v.decision = 2 then
        (c2.modStep n (fun s => { s with verdict := some v })).markAbandon n v.cause
      else if stepMod v.step = c2.stepOf n then c2.modStep n (fun s => { s with verdict := some v })
      else c2
    | none => c2

/-- The sequencer passes to the next context with a run started, or idles. -/
def Core.switchFrom (c : Core) (n : Nat) : Core :=
  match c.nextCtx n with
  | some k => ({ c with cur := some k, seqErr := false }.gate).beginStep k
  | none => { c with cur := none }.gate

/-- A context is stopped: its run ends and replies with a status, its binding replies likewise, vector 18 + 3c is sent
(R20, R280, R425). What the units, the nodes and the census hold of its unfinished step is dropped with it, and its read pins; the
changes that waited for a settle point of it take effect, since no run is started any more (R491, assumption log). -/
def Core.stopCtx (c : Core) (n status : Nat) : Core :=
  match c.ctx? n with
  | none => c
  | some x =>
    let stepNo := match x.run with | some r => r.stepNo | none => x.lastStep
    let c1 := if c.cur = some n then
        { c.clearUnits with cur := none, lineCnt := [], sram := [], sramEpoch := c.sramEpoch + 1 }
      else c
    let c2 := ((c1.modCtx n (fun x => { x with
      stopped := true, run := none, lastStep := stepNo, job := none, census := [], trap := none, redEvs := [], nodes := [],
      cbuf := [], disps := [], ledger := [] })).dropPins n).settleCtx n
    let c3 := c2.replyWaiting (fun w => w.pkt.ctxNum = n && (w.kind = .run || w.kind = .resume)) status [stepNo]
    let c4 := c3.replyWaiting (fun w => w.pkt.ctxNum = n && w.kind = .bind) status []
    let c5 := c4.replyWaiting (fun w => w.pkt.ctxNum = n && w.kind = .stop) 0 [stepNo]
    let c6 := c5.replyWaiting (fun w => w.pkt.ctxNum = n && w.kind = .unbind) 0 []
    c6.msix (18 + 3 * n)

/-- A context stops and, if it was running, the sequencer passes on; with no context to pass to it stands stopped on error (R81). -/
def Core.stopAndSwitch (c : Core) (n status : Nat) : Core :=
  let was := decide (c.cur = some n)
  let c1 := c.stopCtx n status
  if was then
    let c2 := c1.switchFrom n
    if c2.cur.isNone then { c2 with seqErr := true } else c2
  else c1

/-- Every loaded program linked anew: unfit marks set and cleared, contexts whose running program no longer fits stopped
(R20, R73). -/
def Core.relink (c : Core) : Core :=
  let c1 := { c with ctxs := c.ctxs.map (fun (x : Nat × Ctx) => (x.1, { x.2 with
    progs := x.2.progs.map (fun (g : Nat × Prog) => (g.1, { g.2 with
      unfit := !(c.fits g.2.units && c.treesFit x.1 g.2.trees) })) })) }
  (keys c1.ctxs).foldl (fun c n => match c.ctx? n with
    | some x => (match x.run with
      | some r => (match kget x.progs r.slot with
        | some g => if g.unfit then c.stopAndSwitch n 0x611 else c
        | none => c.stopAndSwitch n 0x611)
      | none => c)
    | none => c) c1

/-! ## Applying fences and disables (R17 to R20, R30, R250) -/

/-- Links whose unit has left service go down. -/
def Core.downLinks (c : Core) : Core :=
  (c.links.filter (fun e => !(c.usable (.link e.1)) && e.2.st ≠ .down && e.2.st ≠ .disabled)).foldl
    (fun c e => c.endLink e.1 .down) c

/-- Fences, disables and returns to service applied together: escalation, one change of the fence registers, the pool's
losses, relinking, and the chip stop where the chip itself is fenced. -/
def Core.applyService (c : Core) (fences disables enables : List SUnit) : Core :=
  let en : List SUnit := enables.flatMap disableSet
  let c1 : Core := { c.addFences (fences.map fenceTarget) with
    disabled := (c.disabled.filter (fun u => !(en.contains u))) ++
      (disables.flatMap disableSet).filter (fun u => !(c.disabled.contains u)) }
  let c2 := c1.escalate
  let lost := (List.range 24).filter (fun m => !(c.isFenced (.stack m)) && c2.isFenced (.stack m))
  let changed := decide (c2.fenceRegs ≠ c.fenceRegs)
  let c3 := if changed then { c2 with fenceGen := (c2.fenceGen + 1) % 2 ^ 32 }.downLinks else c2
  let c4 := lost.foldl (fun c m => c.poolFence m) c3
  if c4.isFenced .chip then c4.chipStop true
  else if changed then c4.relink.servePool else c4

/-! ## Failure counts (R468) -/

/-- The unit a classification counts for: a sub-unit window's die, D00 for the chip. -/
def countUnit : SUnit → SUnit
  | .sub d _ _ => .die d
  | .chip => .die 0
  | u => u

/-- One lasting classification counted, saturating in 8 bits. -/
def Core.countFail (c : Core) (u : SUnit) : Core :=
  { c with failCnt := kset c.failCnt (countUnit u) (min 255 (kgetD c.failCnt (countUnit u) 0 + 1)), failDirty := true }

/-! ## Self-tests (R465, R466, R473) -/

/-- Whether an owed self-test may run now: the device idle, or its settle point reached. -/
def Core.testable (c : Core) : Bool :=
  !c.anyRun || (match c.cur.bind c.run? with | some r => r.settling | none => false)

/-- The LASTING bit of any injection control of a unit (R463), and the controls with it cleared. -/
def Core.lasting (c : Core) (u : SUnit) : Bool := (List.range 16).any (fun i => bit (c.rget (injAddr u i)) 62)
def Core.clearLasting (c : Core) (u : SUnit) : Core :=
  (List.range 16).foldl (fun c i => if bit (c.rget (injAddr u i)) 62 then c.rset (injAddr u i) (c.rget (injAddr u i) - 2 ^ 62) else c) c

/-- The registers of a unit after a targeted self-test: counts, result, the last detector tested, nothing pending. -/
def Core.testRegs (c : Core) (u : SUnit) (pass : Bool) (det : Nat) : Core :=
  let c1 := c.bump (u.base + (if pass then 0x114 else 0x118)) 32 1
  let c2 := c1.bump (u.base + 0x208) 32 1
  (c2.rset (u.base + 0x104) 0).rset (u.base + 0x200) ((if pass then 16 else 32) + 256 * (det % 32))

/-- A fence decided now: applied at once with no run started, else at the settle point in progress (R18, R467). -/
def Core.decideFence (c : Core) (u : SUnit) : Core :=
  if c.anyRun then { c with stageFail := c.stageFail ++ [u] } else c.applyService [u] [] []

/-- Whether a stack has more than 512 retired plots (R466). -/
def Core.tooRetired (c : Core) (m : Nat) : Bool := 512 < (c.retired.filter (fun r => r.1 = m)).length

/-- The effect of a lasting classification (R466): an HBM word retires its plot, anything else is fenced. -/
def Core.classifyLasting (c : Core) (u : SUnit) (owed : List Owed) : Core :=
  match u with
  | .stack m =>
    let words := owed.filterMap (fun o => o.word)
    let c1 := words.foldl (fun c w => c.retire m (w / plotBytes)) c
    if owed.any (fun o => o.word.isNone) || c1.tooRetired m then c1.decideFence u else c1
  | _ => c.decideFence u

/-- A self-test owed by command (R469, R478): no detector's bit of ERR_PENDING. -/
def Core.oweTest (c : Core) (u : SUnit) : Core :=
  ({ c with owed := c.owed ++ [Owed.mk u 32 none] } : Core).rset (u.base + 0x200) (c.rget (u.base + 0x200) / 16 * 16 + 3)

/-- One targeted self-test of a unit has run. A LASTING bit makes it fail and is not counted in the failure counts;
nor is an HBM word's, which retires a plot and leaves the stack in service. An enable replies at the settle point while a run is
started (R410). -/
def Core.selftest (c : Core) (u : SUnit) (pass : Bool) : Core :=
  let owed := c.owed.filter (fun o => o.u = u)
  let inj := c.lasting u
  let ok := pass && !inj
  -- a test that a command owes follows no error: the detector of the last error tested stays
  let det := match owed.reverse.find? (fun o => o.det < 32) with
    | some o => o.det
    | none => bits (c.rget (u.base + 0x200)) 12 8
  let c1 := ({ c.clearLasting u with owed := c.owed.filter (fun o => o.u ≠ u) }).testRegs u ok det
  let c2 := if ok then c1
    else (if inj || (!owed.isEmpty && owed.all (fun o => o.word.isSome)) then c1 else c1.countFail u).classifyLasting u owed
  let en := c2.waiting.any (fun w => w.kind = .enable u)
  let c3 := if ok && en then
      (if c2.anyRun then { c2 with pendSvc := c2.pendSvc ++ [{ u := u, enable := true }] } else c2.applyService [] [] [u])
    else c2
  let c4 := c3.replyWaiting (fun w => w.kind = .selftest u) 0 [if ok then 1 else 2]
  if c4.anyRun then c4 else c4.replyWaiting (fun w => w.kind = .enable u) 0 []

end Sys2Proof.Machine
end

