-- ==== Sys2Proof/Machine/TrustOps.lean ====
section
/-!
DEFINITION. The checks of firmware images, measurements and keys that several commands share (R430 to R451).
-/
namespace Sys2Proof.Machine
open Sys2Proof

/-- A field of an image's header (R447). -/
def Image.field (i : Image) (off len : Nat) : Nat := fieldAt i.hdr off len

/-- Body length of an image. -/
def Image.ilen (i : Image) : Nat := i.field 0x08 4

/-- The body's bytes; a byte never written reads 0xFF (R449). -/
def Image.bytes (i : Image) : List Byte := mreadF i.body (fun _ => 0xFF) 0 i.ilen

/-- R448 check 4: magic, version, lengths, stepping, serial, minimum SVN, reserved fields. -/
def Trust.headerOk (t : Trust) (h : List Byte) : Bool :=
  let f := fieldAt h
  f 0 4 = 0x474E5746 && f 4 2 = 1 && f 6 2 = 0x200 && f 8 4 % 8 = 0 && 8 ≤ f 8 4 && f 8 4 ≤ 133693952 &&
  f 0x14 1 = 0xA1 && f 0x15 11 = 0 && (f 0xB0 8 = 0 || f 0xB0 8 = Config.serial) && f 0xB8 232 = 0 &&
  t.svnFloor ≤ f 0x0E 2 && f 0x0E 2 ≤ f 0x0C 2 && f 0x0E 2 ≤ 64

/-- R448 check 5: a known, unrevoked signing key, and its signature over +0x000 to +0x19F. -/
def Trust.signatureOk (t : Trust) (h : List Byte) : Bool :=
  let key := (h.drop 0x50).take 96
  (List.range 4).any (fun k => !(t.revoked.getLsbD k) && Config.sha384 key = Config.fwKeyHash k) &&
  Config.ecdsaVerify key (h.take 0x1A0) ((h.drop 0x1A0).take 96)

/-- R448 check 6. -/
def Trust.svnOk (t : Trust) (h : List Byte) : Bool := t.svnFloor ≤ fieldAt h 0x0C 2

/-- Whether an image's body matches its hash. -/
def Image.hashOk (i : Image) : Bool := Config.sha384 i.bytes = (i.hdr.drop 0x20).take 48

/-- Whether an image verifies: checks 4 to 6 and the body hash (R450). -/
def Trust.verifies (t : Trust) (i : Image) : Bool :=
  t.headerOk i.hdr && t.signatureOk i.hdr && t.svnOk i.hdr && i.hashOk

/-- Whether the image in a slot verifies. -/
def Trust.slotOk (t : Trust) (s : Option Image) : Bool := match s with | some i => t.verifies i | none => false

/-- The active and the other slot. -/
def Trust.active (t : Trust) : Option Image := if t.activeB then t.slotB else t.slotA
def Trust.spare (t : Trust) : Option Image := if t.activeB then t.slotA else t.slotB

/-- SVN and version of the running image (R447, R452). -/
def Trust.runSvn (t : Trust) : Nat := match t.runImage with | some i => i.field 0x0C 2 | none => 0
def Trust.fwVersion (t : Trust) : Nat := match t.runImage with | some i => i.field 0x10 4 | none => 0

/-- SEC_SVN (R452) and SEC_STATE (R453). -/
def Trust.secSvn (t : Trust) : Nat := t.svnFloor * 2 ^ 16 + t.runSvn
def Trust.updCode (t : Trust) : Nat := match t.upd with | .idle => 0 | .receiving => 1 | .staged => 2
def Trust.secState (t : Trust) : Nat :=
  b2n t.lock + 2 * b2n t.owner.isSome + 16 * t.updCode + 64 * b2n t.activeB + 128 * b2n t.fallback + 256 * min 3 t.fails

/-- The owner's fingerprint, zero without one (R431, R434). -/
def Trust.ownerPrint (t : Trust) : List Byte := match t.owner with | some k => Config.sha384 k | none => zeros 48

/-- The configuration measurement (R434): the record's fields in order, hashed. -/
def Dev.confMeasure (d : Dev) : List Byte :=
  Config.sha384 (leBytes d.tr.secSvn 4 ++ leBytes d.tr.revoked.toNat 1 ++ d.tr.ownerPrint ++
    leBytes (d.tr.secState % 4) 1 ++ leBytes (b2n d.tr.activeB) 1 ++
    leBytes d.c.fenceRegion 4 ++ leBytes d.c.fenceDie 8 ++ leBytes d.c.fenceLink 8 ++ leBytes d.c.fenceStack 4 ++
    leBytes d.c.fenceGen 4 ++ ((List.range 18).flatMap (fun i => leBytes (d.c.fenceCell i) 4)) ++
    (d.tr.ide.flatMap (fun e => leBytes e.1 1 ++ leBytes (b2n e.2.secure) 1)))

/-- Whether one IDE stream is Secure and covers what R422 asks. -/
def Trust.ideOk (t : Trust) : Bool := t.ide.any (fun e => e.2.secure && e.2.covers)

end Sys2Proof.Machine
end

