-- ==== Sys2Proof/Machine/Pool.lean ====
section
/-!
DEFINITION. The pool commands and the ends of plot moves (R227 to R255, R267, R268).
-/
namespace Sys2Proof.Machine
open Sys2Proof

/-- A pool command on an object named by handle in parameter 0: status 0x0245 where it names none (R255). -/
def Core.withObj (c : Core) (p : Packet) (f : Ctx → Nat → Obj → Core) : Core :=
  match c.ctx? p.ctxNum with
  | none => c.finish p 4 []
  | some x =>
    match x.objOf p.ctxNum (p.arg 0) with
    | some (i, o) => f x i o
    | none => c.finish p 0x245 []

/-! ## Floors, allocation, freeing -/

/-- FLOOR_SET (R230). -/
def execFloorSet (p : Packet) (s : State) : Host.Outcome State Fault Refusal :=
  hostCmd (Cmd.plain 0x210 true [64, 64]) p s (fun d =>
    match d.c.ctx? p.ctxNum with
    | none => d.c.finish p 4 []
    | some x =>
      let ms := (List.range 24).filter d.c.stackOk
      let others (m : Nat) : Nat := (d.c.ctxs.map (fun e => if e.1 = p.ctxNum then 0 else e.2.floorIn m)).sum
      let unreserved (m : Nat) : Nat := 32752 - (d.c.retired.filter (fun r => r.1 = m && 16 ≤ r.2)).length - others m
      if 8192 < p.arg 0 ∨ 8192 < p.arg 1 then d.c.finish p 0x24A []
      else if x.objs ≠ [] ∨ x.progs ≠ [] then d.c.finish p 0x240 []
      else if ms.any (fun m => unreserved m < p.arg 0 || p.arg 0 < x.floorUsed m) then d.c.finish p 0x240 []
      else
        let r := d.c.tryFloor { pkt := p, kind := .floor }
        if r.2 then r.1 else r.1.wait p .floor)

/-- OBJ_ALLOC (R226, R227, R232, R233): where plots must first be evicted, the command waits for them. -/
def execObjAlloc (p : Packet) (s : State) : Host.Outcome State Fault Refusal :=
  hostCmd (Cmd.plain 0x211 true [64, 64, 64, 64]) p s (fun d =>
    let r := d.c.tryAlloc { pkt := p, kind := .alloc }
    if r.2 then r.1 else r.1.wait p .alloc)

/-- Whether any page of a context has memory in an object (R213, R228). -/
def Ctx.pagesIn (x : Ctx) (o : Obj) : Bool :=
  x.pages.any (fun e => e.2.mem && o.base ≤ e.2.addr && e.2.addr < o.base + o.size)

/-- OBJ_FREE (R228): with no run started it replies once the object is free. -/
def execObjFree (p : Packet) (s : State) : Host.Outcome State Fault Refusal :=
  hostCmd (Cmd.plain 0x212 true [64]) p s (fun d =>
    d.c.withObj p (fun x i o =>
      if x.pagesIn o then d.c.finish p 0x246 []
      else if x.run.isSome then (d.c.modObj p.ctxNum i (fun o => { o with freeAtSettle := true })).finish p 0 []
      else if o.moving then ((d.c.wait p (.free i)).freeObj p.ctxNum i).servePool
      else ((d.c.freeObj p.ctxNum i).servePool).finish p 0 []))

/-! ## Hints and moves -/

/-- Whether pinning an object keeps to the quota in every stack that is not fenced (R233, R492). -/
def Core.pinFits (c : Core) (x : Ctx) (i : Nat) (o : Obj) : Bool :=
  (List.range 24).all (fun m =>
    let mine := countIn o.base o.plots.length m
    c.isFenced (.stack m) || mine = 0 || mine + (x.objs.map (fun q => if q.1 ≠ i && !q.2.floor && q.2.hint = 4 then countIn q.2.base q.2.plots.length m else 0)).sum
      ≤ x.floorQ)

/-- OBJ_HINT (R234). -/
def execObjHint (p : Packet) (s : State) : Host.Outcome State Fault Refusal :=
  hostCmd (Cmd.plain 0x213 true [64, 64]) p s (fun d =>
    d.c.withObj p (fun x i o =>
      if 5 ≤ p.arg 1 then d.c.finish p 0x24A []
      else if o.window ∨ x.isSpill p.ctxNum i o then d.c.finish p 0x246 []
      else if o.floor ∨ (p.arg 1 = 4 ∧ o.st = .pinned) then (d.c.modObj p.ctxNum i (fun o => { o with hint := p.arg 1 })).finish p 0 []
      else if p.arg 1 = 4 then
        (if d.c.pinFits x i o then
          ((d.c.wait p (.pin i)).modObj p.ctxNum i (fun o => { o with hint := 4 })).promote p.ctxNum i 0 o.plots.length
         else d.c.finish p 0x243 [])
      else
        (d.c.modObj p.ctxNum i (fun o => { o with
          hint := p.arg 1, st := if o.st = .pinned then .resident else o.st })).finish p 0 []))

/-- OBJ_PROMOTE (R241): the reply comes when the range is resident. -/
def execObjPromote (p : Packet) (s : State) : Host.Outcome State Fault Refusal :=
  hostCmd (Cmd.plain 0x214 true [64, 64, 64]) p s (fun d =>
    d.c.withObj p (fun x i o =>
      let count := if p.arg 2 = 0 then o.plots.length - p.arg 1 else p.arg 2
      if o.window ∨ x.isSpill p.ctxNum i o then d.c.finish p 0x246 []
      else if o.plots.length ≤ p.arg 1 ∨ o.plots.length < p.arg 1 + count then d.c.finish p 0x24A []
      else if o.floor then d.c.finish p (if (List.range count).any (fun k => d.c.isFenced (.stack (o.stackOf (p.arg 1 + k)))) then 0x249 else 0) []
      else (d.c.wait p (.promote i (p.arg 1) count)).promote p.ctxNum i (p.arg 1) count))

/-- OBJ_EVICT (R242): the reply comes when the object is host. A confidential context without its data key has no spill key
to evict under (assumption log). -/
def execObjEvict (p : Packet) (s : State) : Host.Outcome State Fault Refusal :=
  hostCmd (Cmd.plain 0x215 true [64]) p s (fun d =>
    d.c.withObj p (fun x i o =>
      if o.window ∨ o.floor ∨ o.st = .pinned ∨ x.isSpill p.ctxNum i o ∨ (x.conf ∧ x.dataKey.isNone) then d.c.finish p 0x246 []
      else if o.st = .promoting then (d.c.modObj p.ctxNum i (fun o => { o with age := 0 })).finish p 0x244 []
      else if o.st = .evicting then d.c.wait p (.evict i)
      else if o.residentPlots.isEmpty then d.c.finish p 0 []
      else if (d.c.freeFrames p.ctxNum).length < o.residentPlots.length then d.c.finish p 0x248 []
      else (d.c.startEvict p.ctxNum i o false).wait p (.evict i)))

/-- The O_STATE code (R239, R268). -/
def Obj.code (o : Obj) (spill : Bool) : Nat :=
  if spill then (if o.plots.any (fun e => e.st = .host || e.st = .empty) then 4 else 1)
  else if o.window then 4
  else match o.st with | .resident => 1 | .promoting => 2 | .evicting => 3 | .host => 4 | .pinned => 5

/-- The object record (R229). -/
def objRecord (conf spill : Bool) (n i : Nat) (o : Obj) : List Byte :=
  leBytes (handleOf n i o.gen) 4 ++ leBytes (o.code spill) 1 ++ leBytes o.hint 1 ++
  leBytes (b2n o.floor + 2 * b2n o.window + 4 * b2n o.poisoned + 8 * b2n conf + 16 * b2n o.pinReq) 2 ++
  leBytes o.base 8 ++ leBytes (if o.window then o.nwin else o.plots.length) 4 ++ leBytes o.residentPlots.length 4 ++
  leBytes o.age 4 ++ leBytes o.defers 2 ++ zeros 2 ++ leBytes o.touch 8 ++ leBytes o.evicts 4 ++ leBytes o.promotes 4 ++ zeros 16

/-- OBJ_QUERY. -/
def execObjQuery (p : Packet) (s : State) : Host.Outcome State Fault Refusal :=
  hostCmd (Cmd.plain 0x216 true [64, 64]) p s (fun d =>
    d.c.withObj p (fun x i o => d.c.recordCmd p 1 (objRecord x.conf (x.isSpill p.ctxNum i o) p.ctxNum i o) []))

/-! ## Host frames (R243, R244) -/

/-- Frames of the host-tier window. -/
def frameCount : Nat := 8388608

/-- HOST_MAP: first frame, count, kind, then one host address per frame. -/
def execHostMap (p : Packet) (s : State) : Host.Outcome State Fault Refusal :=
  hostCmd { op := 0x217, ctxv := true, widths := [64, 64, 64], list := some (0, 509) } p s (fun d =>
    let n := p.arg 1
    let addr (i : Nat) : Nat := p.arg (3 + i)
    if n = 0 ∨ 256 < n ∨ frameCount < p.arg 0 + n ∨ 2 ≤ p.arg 2 then d.c.finish p 0x24A []
    else if p.plen.toNat ≠ 8 * (3 + n) then d.c.finish p 3 []
    else if (List.range n).any (fun i => (kget d.c.frames (p.arg 0 + i)).isSome || addr i % plotBytes ≠ 0) then d.c.finish p 0x247 []
    else
      { d.c with frames := (List.range n).foldl (fun (fs : KMap Nat Frame) (i : Nat) =>
          kset fs (p.arg 0 + i) (Frame.mk p.ctxNum (p.arg 2 = 1) (addr i) false)) d.c.frames }.finish p 0 [])

/-- Whether a frame of a context may be unmapped: not in a window object, holding no plot. -/
def Ctx.frameFree (x : Ctx) (n f : Nat) (fr : Frame) : Bool :=
  fr.ctx = n && !fr.holds &&
  !(x.objs.any (fun o => o.2.window && o.2.base ≤ winLo + f * plotBytes && winLo + f * plotBytes < o.2.base + o.2.size))

/-- HOST_UNMAP: all of the frames or none. -/
def execHostUnmap (p : Packet) (s : State) : Host.Outcome State Fault Refusal :=
  hostCmd (Cmd.plain 0x218 true [64, 64]) p s (fun d =>
    match d.c.ctx? p.ctxNum with
    | none => d.c.finish p 4 []
    | some x =>
      let fs := (List.range (p.arg 1)).map (fun i => p.arg 0 + i)
      if frameCount < p.arg 0 + p.arg 1 then d.c.finish p 0x24A []
      else if fs.all (fun f => match kget d.c.frames f with | some fr => x.frameFree p.ctxNum f fr | none => false) then
        (({ d.c with frames := d.c.frames.filter (fun e => !(fs.contains e.1)) }).modCtx p.ctxNum
          (fun x => { x with sealArea := x.sealArea.filter (fun e => !(fs.contains e.1)) })).finish p 0 []
      else d.c.finish p 0x247 [])

/-! ## Pool status and marks (R236, R254) -/

/-- The pool status record. -/
def Core.poolRecord (c : Core) : List Byte :=
  leBytes c.pressure 1 ++ zeros 3 ++ leBytes (mask 24 c.stackOk) 4 ++ leBytes c.poolS 4 ++ leBytes c.poolU 4 ++
  leBytes c.settles 8 ++ zeros 8 ++ (List.range 24).flatMap (fun m => leBytes (c.freeShared m) 4)

/-- POOL_STATUS. -/
def execPoolStatus (p : Packet) (s : State) : Host.Outcome State Fault Refusal :=
  hostCmd (Cmd.plain 0x219 false [64]) p s (fun d => d.c.recordCmd p 0 d.c.poolRecord [])

/-- POOL_MARKS. -/
def execPoolMarks (p : Packet) (s : State) : Host.Outcome State Fault Refusal :=
  hostCmd (Cmd.plain 0x21A false [64, 64]) p s (fun d =>
    if 8192 < p.arg 0 ∨ 8192 < p.arg 1 ∨ p.arg 1 < p.arg 0 then d.c.finish p 0x24A []
    else { d.c with marks := (p.arg 0, p.arg 1) }.finish p 0 [])

/-! ## The ends of moves (R240, R245, R246, R250, R267) -/

/-- The object, plot index and entry at an address plot of a context. -/
def Core.entryAt (c : Core) (n plot : Nat) : Option (Nat × Nat × Obj × PlotEnt) :=
  match c.ctx? n with
  | none => none
  | some x =>
    match x.holderAt (plot * plotBytes) with
    | some (i, o) =>
      if o.window then none
      else (o.plots[plot - o.base / plotBytes]?).map (fun e => (i, plot - o.base / plotBytes, o, e))
    | none => none

/-- The spill key of a context (R246). -/
def spillKey (k : DataKey) (n : Nat) : List Byte := Config.hkdf [] k.key (spillInfo ++ leBytes n 1) 32

/-- The additional data of a spilled plot (R246). -/
def spillAad (n stack plot handle : Nat) : List Byte := leBytes n 1 ++ leBytes stack 1 ++ leBytes plot 4 ++ leBytes handle 4

/-- Host-tier data written by DMA in payloads of at most 512 bytes and of the set size, then the read of the last of them whose
completion shows that the writes are visible (R245, R395). -/
def Core.dmaMove (c : Core) (a : Nat) (b : List Byte) : Core :=
  let k := min 512 c.cfg.mps
  let last := (b.length - 1) / k * k
  { c with
    hostMem := mputs c.hostMem a b,
    out := c.out ++ (List.range ((b.length + k - 1) / k)).map (fun i => Output.dma (a + i * k) ((b.drop (i * k)).take k)) ++
      [Output.dmaRead (a + last) (b.length - last)] }

/-- Host-tier data read by DMA in requests of at most 4 KiB and of the set size (R245, R395). -/
def Core.dmaAsk (c : Core) (a len : Nat) : Core :=
  let k := min 4096 c.cfg.mrrs
  { c with out := c.out ++ (List.range ((len + k - 1) / k)).map (fun i => Output.dmaRead (a + i * k) (min k (len - i * k))) }

/-- A leaving plot's copy stands in its frame (R245, R246), its words checked as they are read (R248): sealed under the spill key in
a confidential context; the plot becomes host and its physical plot free. -/
def Core.plotOut (c : Core) (n plot i k : Nat) (o : Obj) (e : PlotEnt) : Core :=
  let m := o.stackOf k
  let c := (c.physRead (m * 2 ^ 36 + e.phys * plotBytes) plotBytes (some (n, o.gen, i))).1
  let data := mreadZ c.hbm (m * 2 ^ 36 + e.phys * plotBytes) plotBytes
  let x := (c.ctx? n).getD (Ctx.fresh false)
  let fr := (kget c.frames (e.frame.getD 0)).getD { ctx := n, spill := true, addr := 0, holds := true }
  let bad := c.plotPoisoned m e.phys
  let c1 := match x.conf, x.dataKey with
    | true, some key =>
      let sealed := Config.gcmSeal (spillKey key n) key.spillCtr (spillAad n m plot (handleOf n i o.gen)) data
      ((c.dmaMove fr.addr sealed.1).modCtx n (fun x => { x with
        dataKey := some { key with spillCtr := (key.spillCtr + 1) % 2 ^ 64 } })).modPlot n i k
        (fun e => { e with st := .host, poison := bad, nonce := key.spillCtr, tag := sealed.2 })
    | _, _ => (c.dmaMove fr.addr data).modPlot n i k (fun e => { e with st := .host, poison := bad })
  c1.bump (poolBase m + 0x418) 64 1

/-- A leaving plot of a confidential context whose data key is gone stays resident: clear data never leaves (R246; assumption log). -/
def Core.plotKept (c : Core) (n i k : Nat) (e : PlotEnt) : Core :=
  (c.holdFrame (e.frame.getD 0) false).modPlot n i k (fun e => { e with st := .resident, frame := none })

/-- Whether plots of a context may leave HBM: one that is confidential needs its key. -/
def Ctx.maySpill (x : Ctx) : Bool := !x.conf || x.dataKey.isSome

/-- An eviction with no plot left in motion ends (R239): its object is host, and counted as evicted where it left whole. -/
def Core.endEvict (c : Core) (n i : Nat) (left : Bool) : Core :=
  match c.obj? n i with
  | none => c
  | some o =>
    if o.plots.any (fun e => e.st = .leaving) then c
    else if o.st = .evicting then
      (c.modObj n i (fun o => { o with st := o.rest, need := false, evicts := if left then (o.evicts + 1) % 2 ^ 32 else o.evicts })).replyWaiting
        (fun w => w.pkt.ctxNum = n && w.kind = .evict i) (if left then 0 else 0x246) []
    else c.modObj n i (fun o => { o with need := false })

/-- Passes parked on a plot with cause 0x2 when it becomes host: a new fault record with cause 0x1 (R240). -/
def Core.reparks (c : Core) (n plot : Nat) : Core :=
  let h := match c.entryAt n plot with | some (i, _, o, _) => handleOf n i o.gen | none => 0
  c.engines.foldl (fun c e => match e.2.pass with
    | some q =>
      if q.ctx = n ∧ q.parked = some 2 ∧ q.faultAddr / plotBytes = plot then
        ({ c with engines := kmod c.engines e.1 (fun g => { g with pass := some { q with parked := some 1 } }) }).writeFault
          n e.1.1 e.1.2 1 (q.faultAddr + c.devNum * 2 ^ 45) h q.desc q.ff q.tile e.2.cursor q.faultIx
      else c
    | none => c) c

/-- PLOT_EVICT_DONE. -/
def execPlotEvictDone (ctx plot : Nat) (s : State) : Host.Outcome State Fault Refusal :=
  s.guard (ctx < 16) (fun d =>
    match d.c.entryAt ctx plot with
    | none => d.c
    | some (i, k, o, e) =>
      let spill : Bool := match d.c.ctx? ctx with | some x => x.isSpill ctx i o | none => false
      if e.st ≠ .leaving ∨ spill ∨ ¬ d.stacksUp then d.c
      else
        let may : Bool := match d.c.ctx? ctx with | some x => x.maySpill | none => false
        let c1 := if may then (d.c.plotOut ctx plot i k o e).reparks ctx plot else d.c.plotKept ctx i k e
        ((c1.endEvict ctx i may).endFree ctx i).servePool)

/-- A plot arrives (R240, R246, R250): zeros for an empty one, else its frame's copy, opened in a confidential context;
poisoned throughout where it was marked so or does not authenticate. -/
def Core.plotIn (c : Core) (n plot i k : Nat) (o : Obj) (e : PlotEnt) (authOk : Bool) : Core :=
  let m := o.stackOf k
  let x := (c.ctx? n).getD (Ctx.fresh false)
  let data : Option (List Byte) := match e.frame.bind (fun f => kget c.frames f) with
    | none => some []
    | some fr => match x.conf, x.dataKey with
      | true, some key => if authOk then Config.gcmOpen (spillKey key n) e.nonce (spillAad n m plot (handleOf n i o.gen))
          (c.hostRead fr.addr plotBytes) e.tag else none
      | true, none => none
      | false, _ => some (c.hostRead fr.addr plotBytes)
  let bad := data.isNone || e.poison
  let c := match e.frame.bind (fun f => kget c.frames f) with | some fr => c.dmaAsk fr.addr plotBytes | none => c
  let c1 := c.zeroPlot m e.phys
  let c2 := { c1 with hbm := mputsZ c1.hbm (m * 2 ^ 36 + e.phys * plotBytes) (data.getD []) }
  let c3 := if bad then c2.poisonPlot m e.phys else c2
  let c4 := match e.frame with | some f => c3.holdFrame f false | none => c3
  let c5 := c4.modPlot n i k (fun e => { e with st := .resident, frame := none, poison := false })
  (c5.modObj n i (fun o => { o with
    want := o.want.erase k, poisoned := o.poisoned || bad,
    promBad := if bad then o.promBad ++ [k] else o.promBad })).bump (poolBase m + 0x420) 64 1

/-- An arriving plot's copy has ended (R240): the object's moves and commands go on, and what waits for plots is served. -/
def Core.promoteDone (c : Core) (n plot : Nat) (authOk : Bool) : Core :=
  match c.entryAt n plot with
  | none => c
  | some (i, k, o, e) =>
    if e.st ≠ .arriving then c
    else
      let c1 := c.plotIn n plot i k o e authOk
      let spill : Bool := match c1.ctx? n with | some x => x.isSpill n i o | none => false
      if o.freeing then (c1.endFree n i).servePool
      else if spill then ((c1.modObj n i (fun o => { o with st := o.rest, promBad := [] })).touch n i).servePool
      else
        match c1.obj? n i with
        | some o1 => ((c1.replyPromotions n i o1).endPromotion n i true).servePool
        | none => c1.servePool

/-! ## The stash's own moves (R267) -/

/-- The device resolves a fault on plot k of the spill object: the plot is promoted, plots being evicted for it; with no
candidate the lowest resident plot of the spill object in the stack is demoted to the lowest free spill frame, but for plots
that parked cursors name. None where nothing can be demoted. -/
def Core.resolveSpill (c : Core) (n i k : Nat) : Option Core :=
  match c.obj? n i, c.ctx? n with
  | some o, some x =>
    let m := o.stackOf k
    match o.plots[k]? with
    | none => none
    | some e =>
      if e.st ≠ .host ∧ e.st ≠ .empty then some c
      else
        let c1 := c.modObj n i (fun o => { o with want := if o.want.contains k then o.want else o.want ++ [k] })
        let r := c1.obtain m (c1.wanted m)
        if r.2 then some (r.1.arrivals n i)
        else
          let cur := r.1.cursorPlots n
          let victims := o.plotsWhere (fun j e => e.st = .resident && o.stackOf j = m && !(cur.contains (o.base / plotBytes + j)))
          match victims, r.1.freeFrames n with
          | v :: _, f :: _ =>
            if !x.maySpill then none
            else some ((r.1.holdFrame f true).modPlot n i v (fun e => { e with st := .leaving, frame := some f }))
          | _, _ => none
  | _, _ => none

/-! ## Scrub and retirement (R247 to R249, R466) -/

/-- The words of a plot that an armed control of the code takes as a scrub reads them, from the first (R464): `k` words are left. -/
def Core.scrubInject (c : Core) (m : Nat) : Nat → Nat → Core
  | _, 0 => c
  | a, k + 1 =>
    match c.inject (.stack m) 0 with
    | (none, c1) => c1
    | (some 0, c1) => (c1.correction (.stack m) 0 1).scrubInject m (a + 64) k
    | (some 2, c1) => (((c1.error (.stack m) 0 a (Config.syndrome c1.freeCtr % 2 ^ 32) false true false).drawn).owe (.stack m) 0
        (some a)).scrubInject m (a + 64) k
    | (some _, c1) => (c1.badWord m a true).scrubInject m (a + 64) k

/-- SCRUB_TICK: the next physical plot is scrubbed, plot 0 first (R249); the words of it that the code corrects count, one that it
takes wrongly is written back so (R247), those it cannot correct are poisoned. -/
def execScrubTick (stack : Nat) (corrected : List (Nat × Option (List Byte))) (bad : List Nat) (s : State) :
    Host.Outcome State Fault Refusal :=
  s.guard (stack < 24) (fun d =>
    if !d.c.stackOk stack || d.c.stage < 5 || !d.pw.coreGood || !d.stacksUp then d.c
    else
      let p := match kget d.c.scrub stack with | some q => (q + 1) % 32768 | none => 0
      let c1 := { d.c with scrub := kset d.c.scrub stack p }
      let c2 := (corrected.filter (fun a => a.1 / plotBytes = p)).foldl (fun c a =>
        c.corrected (.stack stack) (Upset.mk none 0 true a.1 0 a.2)) c1
      let c3 := (bad.filter (fun a => a / plotBytes = p)).foldl (fun c a => c.badWord stack a false) c2
      c3.scrubInject stack (p * plotBytes) 255)

/-- PLOT_RETIRE_COPY_DONE. -/
def execPlotRetireCopyDone (stack plot : Nat) (s : State) : Host.Outcome State Fault Refusal :=
  s.guard (stack < 24 && plot < 32768) (fun d =>
    if !d.stacksUp then d.c
    else
      let c1 := d.c.retireDone stack plot
      (if c1.tooRetired stack then c1.decideFence (.stack stack) else c1).servePool)

end Sys2Proof.Machine
end

