-- ==== Sys2Proof/Machine/Pages.lean ====
section
/-!
DEFINITION. The commands on KV pages (R208 to R222).
-/
namespace Sys2Proof.Machine
open Sys2Proof

/-! ## Commands (R221, R222) -/

/-- A page command: 0x0250 without a table, 0x0251 for pages beyond it. One that would write a table that a fence has left absent
replies with 0x032C (R492), one that reads it with 0x0250. -/
def Core.withPages (c : Core) (p : Packet) (first count : Nat) (writes : Bool) (f : Ctx → Core) : Core :=
  match c.ctx? p.ctxNum with
  | none => c.finish p 4 []
  | some x =>
    match x.kvEntries with
    | none => c.finish p 0x250 []
    | some e => if 8 ∈ x.absent then c.finish p (if writes then 0x32C else 0x250) [] else if e < first + count then c.finish p 0x251 [] else f x

/-- KV_TABLE: the table is placed in the floor, every entry unused. -/
def execKvTable (p : Packet) (s : State) : Host.Outcome State Fault Refusal :=
  hostCmd (Cmd.plain 0x230 true [64]) p s (fun d =>
    match d.c.ctx? p.ctxNum with
    | none => d.c.finish p 4 []
    | some x =>
      if !isPow2 (p.arg 0) ∨ p.arg 0 < 1024 ∨ 1048576 < p.arg 0 then d.c.finish p 0x250 []
      else if x.run.isSome then d.c.finish p 0x257 []
      else
        let c1 := ({ d.c with copies := d.c.copies.filter (fun k => k.ctx ≠ p.ctxNum) } : Core).modCtx p.ctxNum (fun x => { x with
          tabPlots := x.tabPlots.filter (fun t => t.table ≠ 8), absent := x.absent.filter (fun t => t ≠ 8), pages := [],
          freeLists := [], kvEntries := some (p.arg 0) })
        match c1.placeTable p.ctxNum 8 (cdiv (32 * p.arg 0) plotBytes) with
        | some c2 => c2.sweepRetire.finish p 0 []
        | none => d.c.finish p 0x32C [])

/-- PAGE_ADD: unused pages take addresses in an object and join the end of their class's free list in ascending order. -/
def execPageAdd (p : Packet) (s : State) : Host.Outcome State Fault Refusal :=
  hostCmd (Cmd.plain 0x231 true [64, 64, 3, 64, 64]) p s (fun d =>
    d.c.withPages p (p.arg 0) (p.arg 1) true (fun x =>
      let n := p.ctxNum
      let size := pageSize (p.arg 2)
      match x.objOf n (p.arg 3) with
      | none => d.c.finish p 0x256 []
      | some (_, o) =>
        let ps := (List.range (p.arg 1)).map (fun i => p.arg 0 + i)
        if o.window ∨ (o.base + p.arg 4) % size ≠ 0 ∨ o.size < p.arg 4 + p.arg 1 * size then d.c.finish p 0x256 []
        else if ps.any (fun q => (x.page q).st ≠ .free || (x.page q).mem) then d.c.finish p 0x252 []
        else
          let c1 := ps.foldl (fun c q => c.modPage n q (fun g => { Page.unused with
            gen := g.gen, mem := true, addr := o.base + p.arg 4 + (q - p.arg 0) * size, cls := p.arg 2 })) d.c
          (c1.modCtx n (fun x => { x with freeLists := kset x.freeLists (p.arg 2) (x.freeList (p.arg 2) ++ ps) })).finish p 0 []))

/-- PAGE_MAP. -/
def execPageMap (p : Packet) (s : State) : Host.Outcome State Fault Refusal :=
  hostCmd (Cmd.plain 0x232 true [64]) p s (fun d =>
    d.c.withPages p (p.arg 0) 1 true (fun x =>
      let g := x.page (p.arg 0)
      if g.st = .free ∧ g.mem then
        ((d.c.leaveList p.ctxNum g.cls (p.arg 0)).modPage p.ctxNum (p.arg 0) (fun g => { g with st := .live, refs := 1 })).finish p 0 []
      else d.c.finish p 0x252 []))

/-- Whether a page holds references at all (R214). -/
def Page.inService (g : Page) : Bool := g.st = .live || g.st = .shared || g.st = .fallow

/-- PAGE_REF. -/
def execPageRef (p : Packet) (s : State) : Host.Outcome State Fault Refusal :=
  hostCmd (Cmd.plain 0x233 true [64]) p s (fun d =>
    d.c.withPages p (p.arg 0) 1 true (fun x =>
      let g := x.page (p.arg 0)
      if !g.inService then d.c.finish p 0x252 []
      else if 65535 ≤ g.refs then d.c.finish p 0x254 []
      else (d.c.modPage p.ctxNum (p.arg 0) (fun g =>
          let h := { g with refs := g.refs + 1 }
          if g.st = .fallow then h else h.settled)).finish p 0 []))

/-- PAGE_UNREF. -/
def execPageUnref (p : Packet) (s : State) : Host.Outcome State Fault Refusal :=
  hostCmd (Cmd.plain 0x234 true [64]) p s (fun d =>
    d.c.withPages p (p.arg 0) 1 true (fun x =>
      let g := x.page (p.arg 0)
      if !g.inService then d.c.finish p 0x252 []
      else if g.refs = 0 then d.c.finish p 0x254 []
      else (d.c.unrefPage p.ctxNum (p.arg 0)).finish p 0 []))

/-- PAGE_DROP. -/
def execPageDrop (p : Packet) (s : State) : Host.Outcome State Fault Refusal :=
  hostCmd (Cmd.plain 0x235 true [64, 64, 32, 32, 16, 8, 8]) p s (fun d =>
    d.c.withPages p (max (p.arg 0) (p.arg 1)) 1 true (fun x =>
      let n := p.ctxNum
      let g := x.page (p.arg 0)
      let r := x.page (p.arg 1)
      if (g.st ≠ .live ∧ g.st ≠ .shared) ∨ r.st ≠ .free ∨ r.mem then d.c.finish p 0x252 []
      else if g.pins ≠ 0 then d.c.finish p 0x253 []
      else
        let c1 := d.c.modPage n (p.arg 0) (fun g => { g with
          st := .fallow, mem := false, addr := 0, seqn := p.arg 2, tok0 := p.arg 3, tokn := p.arg 4, layer := p.arg 5,
          from_ := p.arg 6 })
        ((c1.modPage n (p.arg 1) (fun r => { r with mem := true, addr := g.addr, cls := g.cls })).joinHead n g.cls (p.arg 1)).finish
          p 0 []))

/-- PAGE_REVIVE: memory from the list if the page has none, one page's size copied from the source, then live or shared. The
source must be readable at this device; 0x0256 stands for one that is not. -/
def execPageRevive (p : Packet) (s : State) : Host.Outcome State Fault Refusal :=
  hostCmd (Cmd.plain 0x236 true [64, 64]) p s (fun d =>
    d.c.withPages p (p.arg 0) 1 true (fun x =>
      let n := p.ctxNum
      let g := x.page (p.arg 0)
      if g.st ≠ .fallow then d.c.finish p 0x252 []
      else match d.c.localOf (p.arg 1) with
        | none => d.c.finish p 0x256 []
        | some a =>
          if a % 256 ≠ 0 then d.c.finish p 0x256 []
          else
            let c0 := (d.c.hbmRead n a (pageSize g.cls)).1
            match c0.giveMemory n (p.arg 0) with
            | none => d.c.finish p 0x255 []
            | some c1 =>
              match c0.readBytes n a (pageSize g.cls) with
              | .error e => (if e = 7 then c0.authFail else c0).finish p 0x256 []
              | .ok b => match c1.writeBytes n (c1.page n (p.arg 0)).addr b with
                | .ok c2 => (((c2.touchAt n a).touchAt n (c1.page n (p.arg 0)).addr).modPage n (p.arg 0) Page.settled).finish p 0 []
                | .error _ => c0.finish p 0x256 []))

/-- P_LINK of a descriptor (R213): the next page of the free list, or a copy's source. -/
def Ctx.pageLink (x : Ctx) (p : Nat) (g : Page) : Nat :=
  match g.st with
  | .copying => g.link.getD 0xFFFFFFFF
  | .free =>
    if g.mem then (((x.freeList g.cls).dropWhile (· ≠ p)).drop 1).headD 0xFFFFFFFF else 0xFFFFFFFF
  | _ => 0xFFFFFFFF

/-- The P_STATE code (R214). -/
def PageSt.code : PageSt → Nat
  | .free => 0 | .live => 1 | .shared => 2 | .copying => 3 | .fallow => 4

/-- The 32 bytes of a descriptor (R213). -/
def Ctx.pageBytes (x : Ctx) (p : Nat) : List Byte :=
  let g := x.page p
  leBytes ((if g.mem then g.addr else 0) + 2 ^ 63 * b2n g.mem) 8 ++ leBytes g.st.code 1 ++ leBytes g.cls 1 ++ leBytes g.gen 2 ++
  leBytes g.refs 2 ++ leBytes g.pins 2 ++ leBytes (x.pageLink p g) 4 ++ leBytes g.seqn 4 ++ leBytes g.tok0 4 ++
  leBytes g.tokn 2 ++ leBytes g.layer 1 ++ leBytes g.from_ 1

/-- PAGE_READ. -/
def execPageRead (p : Packet) (s : State) : Host.Outcome State Fault Refusal :=
  hostCmd (Cmd.plain 0x237 true [64, 64, 64]) p s (fun d =>
    d.c.withPages p (p.arg 0) (p.arg 1) false (fun x =>
      if p.arg 2 % 64 ≠ 0 then d.c.finish p 0x256 []
      else d.c.recordCmd p 2 ((List.range (p.arg 1)).flatMap (fun i => x.pageBytes (p.arg 0 + i))) []))

end Sys2Proof.Machine
end

