-- ==== Sys2Proof/Machine/Operands.lean ====
section
/-!
DEFINITION. Every operand form of step code: record headers, selectors, fork words, the fields of action words, address
pointers and the places a slot group names (R50 to R63, R82 to R109).
-/
namespace Sys2Proof.Machine
open Sys2Proof

/-! ## Record headers and fork words (R50, R51, R62) -/

/-- Length of a record in 16-byte units. -/
def recLen (h : Nat) : Nat := bits h 15 8 + 1
def recLB (h : Nat) : Bool := bit h 16
def recLE (h : Nat) : Bool := bit h 17
def recLoopCount (h : Nat) : Nat := bits h 47 32
def recForkOperand (h : Nat) : Nat := bits h 127 96
/-- The enabled token fields of a word at the given low bits: each `(local, token)`. -/
def tokFields (w : Nat) (los : List Nat) : List (Bool × Nat) :=
  (los.filter (fun lo => bit w (lo + 7))).map (fun lo => (bit w (lo + 6), bits w (lo + 5) lo))
/-- The tokens a record header waits on, each once, and the one it signals (chip scope). -/
def recWaits (h : Nat) : List Nat := ((tokFields h [56, 64, 72, 80]).map Prod.snd).eraseDups
def recSig (h : Nat) : Option Nat := (tokFields h [48]).head?.map Prod.snd
/-- The tokens an action waits on, each once, and the one it signals (R58). -/
def actWaits (w : Nat) : List (Bool × Nat) := (tokFields w [16, 24, 32, 40]).eraseDups
def actSig (w : Nat) : Option (Bool × Nat) := (tokFields w [8]).head?
/-- Offset of fork variant v (R62): 2 for variant 0, 0 for an absent one. -/
def forkVar (w v : Nat) : Nat :=
  match v with | 0 => 2 | 1 => bits w 55 32 | 2 => bits w 79 56 | _ => bits w 103 80
def forkJoin (w : Nat) : Nat := bits w 127 104
def forkT (w i : Nat) : Nat := bits w (8 * i + 7) (8 * i)
def forkSource (w : Nat) : Nat := bits w 3 0

/-! ## Selectors (R55 to R57) -/

def selMode (w : Nat) : Nat := bits w 3 0
def selLevel (w : Nat) : Nat := bits w 7 4
def selNact (w : Nat) : Nat := bits w 15 8

/-- CELLS of logical tensor die t, and the masks of the image header (R71). -/
def hdrCells (us : List Nat) (t : Nat) : Nat := if t < 36 then hdrField us (0x40 + t) 1 else 0
def hdrPort (us : List Nat) (n : Nat) : Bool := n < 12 && bit (hdrField us 0x10 2) n
def hdrLink (us : List Nat) (n : Nat) : Bool := n < 12 && bit (hdrField us 0x12 2) n

/-- Whether the program uses a logical place of a level. -/
def placeUsed (us : List Nat) (level n : Nat) : Bool :=
  match level with
  | 0 => n % 16 < hdrCells us (n / 16)
  | 1 => n < 36 && 0 < hdrCells us n
  | 2 => hdrPort us n
  | _ => hdrLink us n

/-- Number of logical places of a level. -/
def levelSize (level : Nat) : Nat := if level = 0 then 576 else if level = 1 then 36 else 12

/-- The logical places that a selector names, ascending. -/
def selPlaces (us : List Nat) (w : Nat) : List Nat :=
  let lv := selLevel w
  match selMode w with
  | 0 => [bits w 31 16]
  | 1 => (List.range (if bits w 63 48 = 0 then 1 else (bits w 47 32 - bits w 31 16) / bits w 63 48 + 1)).map
      (fun i => bits w 31 16 + i * bits w 63 48)
  | 2 => if lv = 0 then (List.range 576).filter (fun n => bit w (80 + n / 16) && bit w (64 + n % 16))
      else (List.range 36).filter (fun n => bit w (80 + n))
  | _ => (List.range (levelSize lv)).filter (placeUsed us lv)

/-- A slot group of a record: where its selector stands among the groups, the selector, the action words. -/
structure SlotGroup where
  index : Nat
  sel : Nat
  words : List Nat
  deriving DecidableEq, Repr

/-- The slot groups in a record's body (R52). -/
def slotGroups (index : Nat) : List Nat → Nat → List SlotGroup
  | _, 0 => []
  | [], _ => []
  | w :: rest, fuel + 1 =>
    { index := index, sel := w, words := rest.take (selNact w) } :: slotGroups (index + 1) (rest.drop (selNact w)) fuel

/-- Units of a record at an offset. -/
def recUnits (us : List Nat) (o : Nat) : List Nat := (us.drop o).take (recLen (us.getD o 0))

/-- The slot groups of the action record at an offset. -/
def recGroups (us : List Nat) (o : Nat) : List SlotGroup := slotGroups 0 ((recUnits us o).drop 1) 256

/-! ## Units by logical and physical number (R57, R72, R82) -/

/-- An action word's unit kind and the stream engine it names. -/
def wordOp (w : Nat) : Nat := bits w 7 0
def wordKind (w : Nat) : Nat := bits w 7 4
def wordEng (w : Nat) : Nat := bits w 50 48

/-- Whether a unit kind exists at a selector level (R82). -/
def kindAt (kind level : Nat) : Bool :=
  match kind with
  | 6 => level = 1 || level = 2
  | 7 => level = 2
  | 8 => level = 3
  | 9 => level = 3
  | k => 1 ≤ k && k ≤ 5 && level = 0

/-- The cell unit of a kind number. -/
def cellKind : Nat → CellUnit
  | 1 => .f | 2 => .b | 3 => .v | 4 => .sin | _ => .sout

/-- The physical cell of a logical one (R72). -/
def Core.physCell (c : Core) (n : Nat) : Option Nat :=
  match c.mapDie (n / 16 / 9) (n / 16 % 9 + 1) with
  | some d => (c.usableCells (tensorIdx d))[n % 16]?
  | none => none

/-- The physical die of a logical place of level 1, 2 or 3. -/
def Core.physDie (c : Core) (level n : Nat) : Option Nat :=
  match level with
  | 1 => c.mapDie (n / 9) (n % 9 + 1)
  | 2 => c.mapDie (n / 3) (10 + n % 3)
  | _ => c.mapDie (n / 3) (13 + n % 3)

/-- The physical unit that executes an action word given to a logical place. -/
def Core.physUnit (c : Core) (level n w : Nat) : Option UnitId :=
  if level = 0 then (c.physCell n).map (fun q => UnitId.cell q (cellKind (wordKind w)))
  else (c.physDie level n).map (fun d => match wordKind w with
    | 6 => UnitId.se d (wordEng w) | 7 => UnitId.uu d | 8 => UnitId.ru d | _ => UnitId.de d)

/-! ## Fields of action words -/

/-- Pointer numbers and formats of PRODUCT (R93). -/
def pAPA (w : Nat) : Nat := bits w 127 124
def pAPB (w : Nat) : Nat := bits w 123 120
def pAPC (w : Nat) : Nat := bits w 119 116
def pAPM (w : Nat) : Nat := bits w 115 112
def pFMTA (w : Nat) : Nat := bits w 111 108
def pFMTB (w : Nat) : Nat := bits w 107 104
def pACC (w : Nat) : Nat := bits w 103 101
def pGCLASS (w : Nat) : Nat := bits w 100 99
def pTA (w : Nat) : Bool := bit w 98
def pTB (w : Nat) : Bool := bit w 97
def pMASK (w : Nat) : Nat := bits w 96 95
def pMT (w : Nat) : Nat := bits w 94 85
def pNT (w : Nat) : Nat := bits w 84 75
def pKT (w : Nat) : Nat := bits w 74 65

/-- Fields of a vector action (R98). -/
def vAPX (w : Nat) : Nat := bits w 127 124
def vAPY (w : Nat) : Nat := bits w 123 120
def vAPZ (w : Nat) : Nat := bits w 119 116
def vFMTX (w : Nat) : Nat := bits w 115 112
def vFMTZ (w : Nat) : Nat := bits w 111 108
def vFUNC (w : Nat) : Nat := bits w 107 104
def vROWS (w : Nat) : Nat := bits w 103 92
def vCOLT (w : Nat) : Nat := bits w 91 82
def vTCLASS (w : Nat) : Nat := bits w 81 79
def vRND (w : Nat) : Nat := bits w 78 77
def vIMM (w : Nat) : Nat := bits w 76 61

/-- Fields of the port actions (R101). -/
def sAP (w : Nat) : Nat := bits w 127 124
def sGRAN (w : Nat) : Nat := bits w 123 110
def sRing (w : Nat) : Bool := bits w 109 108 = 1
def sENG (w : Nat) : Nat := bits w 107 105
def sLEN (w : Nat) : Nat := bits w 123 116 + 1
def sDEST (w : Nat) : Nat := bits w 100 89

/-- Fields of the die-unit actions (R104 to R109): the table entry, REARM's base, DISPATCH's overflow rule. -/
def aEntry (w : Nat) : Nat := bits w 127 116
def aBase (w : Nat) : Nat := bits w 115 56
def aOVF (w : Nat) : Nat := bits w 115 114

/-- The pointer that SETAP writes (R86). -/
def setapPtr (w : Nat) : AddrPtr :=
  { base := bits w 61 48, step := bits w 75 62, n := bits w 85 76, km := bit w 86, lsel := bits w 89 87,
    ofs := bits w 103 94, isub := bit w 104 }
def setapAPN (w : Nat) : Nat := bits w 93 90

/-! ## Address pointers (R86 to R89) -/

/-- The iteration index a pointer uses for an action's record instance. -/
def loopIndex (a : ActionInst) (lsel : Nat) : Nat := a.loops.getD lsel 0

/-- The first granule that a pointer addresses for an action (R87); none where N is 0 (R88). -/
def AddrPtr.granule (p : AddrPtr) (a : ActionInst) : Option Nat :=
  if p.n = 0 then none
  else
    let i : Int := loopIndex a p.lsel
    let x : Int := (if p.km then (a.ordinal : Int) else 0) + (if p.isub then -i else i) + p.ofs
    some (p.base + (x % (p.n : Int)).toNat * p.step)

/-- A unit's pointer; one that nothing has written since the settle point reads zero. -/
def Core.ap (c : Core) (u : UnitId) (n : Nat) : AddrPtr :=
  kgetD c.aps (u, n) { base := 0, step := 0, n := 0, km := false, lsel := 0, ofs := 0, isub := false }

/-- The store an operand must lie in (R89). -/
inductive Store where
  | operand | accum | either
  deriving DecidableEq, Repr

/-- Whether `len` bytes from granule g lie within one store, and in the one asked for. -/
def inStore (g len : Nat) (st : Store) : Bool :=
  let last := g + cdiv len 256
  match st with
  | .operand => last ≤ 0x3000
  | .accum => 0x3000 ≤ g && last ≤ 0x4000
  | .either => last ≤ 0x3000 || (0x3000 ≤ g && last ≤ 0x4000)

/-! ## Blocks of elements in a cell (R92, R116, R145) -/

/-- Bytes of one 32 × 32 tile of a format. -/
def tileBytes (fmt : Nat) : Nat := 128 * fmtBits fmt

/-- Bytes of a block of R rows and T column tiles, without scales, in whole granules. -/
def blockBytes (fmt rows colt : Nat) : Nat := cdiv rows 32 * colt * tileBytes fmt

/-- Bytes of a block's grain scales in whole granules: one byte per grain, each tile row of 32 scale bytes. -/
def scaleBytes (rows colt : Nat) : Nat := cdiv (cdiv rows 32 * colt * 32) 256 * 256

/-- Bytes of an operand, its scales included. -/
def operandBytes (fmt rows colt : Nat) : Nat :=
  blockBytes fmt rows colt + (if grainScaled fmt then scaleBytes rows colt else 0)

end Sys2Proof.Machine
end

