-- ==== Sys2Proof/Machine/LoadCheck.lean ====
section
/-!
DEFINITION. The checks of a program load: header, records, selectors, action words, structure, tokens, and the rules on
rings and verdicts (R42 to R71, R85, R91, R95, R103, R108, R110, R148, R161, R205). Every check answers the statuses it
finds with the step address of the failing record; the load reports the first failing record.
-/
namespace Sys2Proof.Machine
open Sys2Proof

/-- A refusal found by a check: step address and status. -/
abbrev Finding := Nat × Nat

/-- Findings from a list of tests at one address. -/
def findings (addr : Nat) (l : List (Bool × Nat)) : List Finding := (l.filter (fun e => e.1)).map (fun e => (addr, e.2))

/-- The finding a load reports: the least step address, then the least status (assumption log). -/
def firstFinding (l : List Finding) : Option Finding :=
  l.foldl (fun b x => match b with
    | none => some x
    | some y => if x.1 < y.1 ∨ (x.1 = y.1 ∧ x.2 < y.2) then some x else some y) none

/-! ## Header (R71) -/

/-- Whether the image header is valid, tokens apart. -/
def headerValid (us : List Nat) : Bool :=
  let h := hdrField us
  h 0 4 = 0x4B535047 && h 4 2 = 1 && (h 6 1 = 3 || h 6 1 = 4) && h 7 1 = 0 && 32 ≤ h 8 4 && h 8 4 ≤ 2 ^ 24 &&
  h 0x0F 1 = 0 && 16 ≤ h 0x0C 3 && h 0x0C 3 < h 8 4 && h 0x10 2 < 4096 && h 0x12 2 < 4096 && h 0x14 4 = 0 &&
  h 0x28 8 = 0 && h 0x30 8 = 0 && h 0x38 8 = 0 &&
  (List.range 36).all (fun t => h (0x40 + t) 1 ≤ 16) && (List.range 156).all (fun i => h (0x64 + i) 1 = 0) &&
  (h 6 1 = 4 || (h 0x10 2 < 512 && h 0x12 2 < 512 && (List.range 9).all (fun t => h (0x40 + 27 + t) 1 = 0)))

/-! ## Decoding in program order (R52, R68) -/

/-- The step addresses of the records from an offset through the first end record, and what stops the decoding: a record
that runs past the image, a reserved class, or no end record. -/
def decodeFrom (us : List Nat) (len o : Nat) : Nat → List Nat × List Finding
  | 0 => ([], [(o, 0x32A)])
  | fuel + 1 =>
    if len ≤ o then ([], [(o, 0x32A)])
    else
      let h := us.getD o 0
      if recClass h = 0 ∨ 5 < recClass h then ([], [(o, 0x321)])
      else if len < o + recLen h then ([], [(o, 0x322)])
      else if recClass h = 5 then ([o], [])
      else
        let r := decodeFrom us len (o + recLen h) fuel
        (o :: r.1, r.2)

/-! ## One record (R50 to R59, R62) -/

/-- The header and length checks of R50 to R52 and R62. -/
def headFindings (us : List Nat) (o : Nat) : List Finding :=
  let h := us.getD o 0
  let cls := recClass h
  let body := recGroups us o
  let w := us.getD (o + 1) 0
  findings o [
    (bits h 31 18 ≠ 0 || bits h 95 88 ≠ 0, 0x321),
    (cls ≠ 2 && recForkOperand h ≠ 0, 0x321),
    (cls ≠ 1 && (recLB h || recLE h || recLoopCount h ≠ 0), 0x321),
    (3 ≤ cls && (bits h 87 80 ≠ 0 || bits h 79 72 ≠ 0 || bits h 71 64 ≠ 0 || bits h 63 56 ≠ 0 || bits h 55 48 ≠ 0), 0x321),
    ((cls = 2 && recLen h ≠ 2) || (3 ≤ cls && recLen h ≠ 1), 0x322),
    (cls = 1 && recLen h ≠ 1 + (body.map (fun g => 1 + selNact g.sel)).sum, 0x322),
    (recLB h ≠ decide (recLoopCount h ≠ 0) && cls = 1, 0x323),
    (bit h 54 || bit h 62 || bit h 70 || bit h 78 || bit h 86, 0x325),
    (cls = 2 && (bits w 7 4 ≠ 0 || 5 ≤ forkSource w), 0x321),
    (cls = 2 && forkSource w ≠ 2 && forkSource w ≠ 4 && recForkOperand h ≠ 0, 0x321),
    (cls = 2 && forkSource w = 4 && 256 ≤ recForkOperand h, 0x324),
    (cls = 2 && !(forkT w 1 ≤ forkT w 2 && forkT w 2 ≤ forkT w 3), 0x324)]

/-- A selector's checks (R55 to R57). -/
def selFindings (us : List Nat) (o : Nat) (g : SlotGroup) : List Finding :=
  let w := g.sel
  let m := selMode w
  let lv := selLevel w
  let first := bits w 31 16
  let last := bits w 47 32
  let stride := bits w 63 48
  let cm := bits w 79 64
  let dm := bits w 115 80
  let reserved := decide (3 < m) || decide (3 < lv)
  findings o [
    (bits w 127 116 ≠ 0 || reserved, 0x321),
    (selNact w = 0, 0x329),
    (!reserved && ((m = 0 && (last ≠ 0 || stride ≠ 0 || cm ≠ 0 || dm ≠ 0)) ||
      (m = 1 && (stride = 0 || last < first || cm ≠ 0 || dm ≠ 0)) ||
      (m = 2 && (first ≠ 0 || last ≠ 0 || stride ≠ 0 || (lv ≠ 0 && cm ≠ 0))) ||
      (m = 3 && (first ≠ 0 || last ≠ 0 || stride ≠ 0 || cm ≠ 0 || dm ≠ 0))), 0x329),
    (!reserved && (selPlaces us w).any (fun n =>
      (lv = 0 && !(placeUsed us 0 n)) || (lv = 1 && 9 * hdrField us 6 1 ≤ n) || (2 ≤ lv && !(placeUsed us lv n))), 0x329)]

/-- Reserved codes and formats of a vector action's words. -/
def vecReserved (w : Nat) : Bool := bits w 60 48 ≠ 0 || 3 ≤ vRND w || 5 ≤ vTCLASS w || 0xB ≤ vFMTX w || 0xB ≤ vFMTZ w

/-- Whether a format named by an action word is binary64 (R91). -/
def names64 (a b : Nat) : Bool := a = 0xA || b = 0xA

/-- The operand checks of one action word (R85 to R109, R148, R161, R205): reserved or unused bits set, a value out of range
or inconsistent, and strict mode's refusal. -/
def wordFaults (strict : Bool) (w : Nat) : List (Bool × Nat) :=
  let op := wordOp w
  let vecOk (range : Bool) : List (Bool × Nat) :=
    [(vecReserved w, 0x321), (names64 (vFMTX w) (vFMTZ w), 0x330), (range && (vROWS w = 0 || vCOLT w = 0), 0x330)]
  if op = 0x60 then [(bits w 127 51 ≠ 0, 0x321)]
  else if op % 16 = 0 ∧ 0x10 ≤ op ∧ op ≤ 0x90 then [(bits w 127 48 ≠ 0, 0x321)]
  else if op = 0x11 ∨ op = 0x21 ∨ op = 0x31 ∨ op = 0x41 ∨ op = 0x51 then
    [(bits w 127 105 ≠ 0 || (setapPtr w).n = 0, 0x321)]
  else if op = 0x12 ∨ op = 0x22 then
    [(bits w 64 48 ≠ 0 || 6 ≤ pACC w || pMASK w = 3 || (pMASK w = 0 && pAPM w ≠ 0) || 0xB ≤ pFMTA w || 0xB ≤ pFMTB w, 0x321),
     (names64 (pFMTA w) (pFMTB w) || pMT w = 0 || pNT w = 0 || pKT w = 0, 0x330),
     (fmtGroup (pFMTA w) ≠ fmtGroup (pFMTB w), 0x330),
     (op = 0x12 && (pTA w || pTB w || pFMTA w = 0 || pFMTB w = 0), 0x330),
     (pMASK w ≠ 0 && pGCLASS w ≠ 3, 0x330),
     ((pTA w && grainScaled (pFMTA w)) || (pTB w && grainScaled (pFMTB w)), 0x330),
     (op = 0x12 && strict, 0x331)]
  else if op = 0x32 then
    vecOk true ++ [(vFUNC w ≠ 0 || vIMM w ≠ 0 || (!grainScaled (vFMTZ w) && vAPY w ≠ 0), 0x321)]
  else if op = 0x33 then
    vecOk true ++ [(vFUNC w ≠ 0 || vIMM w ≠ 0 || vAPY w ≠ 0, 0x321), (!grainScaled (vFMTZ w), 0x330)]
  else if op = 0x34 then
    vecOk true ++ [(8 < vFUNC w || vAPY w ≠ 0 || (vFUNC w < 7 && vIMM w ≠ 0), 0x321)]
  else if op = 0x35 then vecOk true ++ [(6 < vFUNC w || vIMM w ≠ 0, 0x321)]
  else if op = 0x36 then
    vecOk true ++ [(2 < vFUNC w || vIMM w ≠ 0 || vAPY w ≠ 0, 0x321), (vFMTZ w ≠ 0, 0x330)]
  else if op = 0x37 then
    vecOk true ++ [
      (2 < vFUNC w || bits (vIMM w) 15 5 ≠ 0 || (!(bit (vIMM w) 4) && bits (vIMM w) 3 0 ≠ 0), 0x321),
      (1 < vFMTX w || vRND w = 2 || (vFUNC w ≠ 1 && vFMTZ w ≠ 0) || (vFUNC w = 1 && 1 < vFMTZ w), 0x330)]
  else if op = 0x38 then
    vecOk false ++ [
      (1 < vFUNC w || vAPY w ≠ 0 || vAPZ w ≠ 0 || vROWS w ≠ 0 || vCOLT w ≠ 0 || vFMTX w ≠ 0 || vFMTZ w ≠ 0 ||
        vTCLASS w ≠ 0 || vRND w ≠ 0 || (vFUNC w = 0 && vAPX w ≠ 0) || (vFUNC w = 1 && vIMM w % 256 ≠ 0), 0x321)]
  else if op = 0x42 ∨ op = 0x52 then
    [(bits w 104 48 ≠ 0 || 2 ≤ bits w 109 108 || (sRing w && sENG w ≠ 0), 0x321), (sGRAN w = 0, 0x330)]
  else if op = 0x53 then [(bits w 115 105 ≠ 0 || bits w 104 101 ≠ 0 || bits w 88 48 ≠ 0, 0x321)]
  else if op = 0x61 ∨ op = 0x63 then [(bits w 115 51 ≠ 0, 0x321)]
  else if op = 0x62 then [(bits w 55 51 ≠ 0, 0x321)]
  else if op = 0x71 ∨ op = 0x72 ∨ op = 0x81 then [(bits w 115 48 ≠ 0, 0x321)]
  else if op = 0x82 then [(bits w 127 48 ≠ 0, 0x321)]
  else if op = 0x91 ∨ op = 0x92 then [(bits w 113 48 ≠ 0 || 2 ≤ aOVF w, 0x321)]
  else [(true, 0x321)]

/-- A unit by logical place: level, place, and the unit there. -/
abbrev LUnit := Nat × Nat × Nat

/-- The logical units that a word reaches through its selector. -/
def lunit (lv n w : Nat) : LUnit := (lv, n, if wordKind w = 6 then 16 + wordEng w else wordKind w)

/-- Every action of a record: the slot group, the word, and the logical units that receive it. -/
def recActions (us : List Nat) (o : Nat) : List (SlotGroup × Nat × List LUnit) :=
  (recGroups us o).flatMap (fun g => g.words.map (fun w =>
    (g, w, (selPlaces us g.sel).map (fun n => lunit (selLevel g.sel) n w))))

/-- Whether a list repeats an element. -/
def repeats {α : Type} [DecidableEq α] : List α → Bool
  | [] => false
  | a :: r => r.contains a || repeats r

/-- The checks of one action record's groups and words (R57, R59, R85, R108). -/
def bodyFindings (strict : Bool) (us : List Nat) (o : Nat) : List Finding :=
  let gs := recGroups us o
  let acts := recActions us o
  gs.flatMap (selFindings us o) ++
  gs.flatMap (fun g => g.words.flatMap (fun w => findings o
    ((!(kindAt (wordKind w) (selLevel g.sel)), 0x329) :: wordFaults strict w))) ++
  findings o [
    (repeats (acts.flatMap (fun e => e.2.2)), 0x328),
    (acts.any (fun e => wordOp e.2.1 = 0x82 && 1 < e.2.2.length), 0x332)]

/-- The checks of one record by itself. -/
def recordFindings (strict : Bool) (us : List Nat) (o : Nat) : List Finding :=
  headFindings us o ++ (if recClass (us.getD o 0) = 1 then bodyFindings strict us o else [])

/-! ## Structure (R60, R61, R65, R68) -/

/-- The variants of a fork record: each present one's first offset and the offset just beyond it. -/
def variants (us : List Nat) (o : Nat) : List (Nat × Nat) :=
  let w := us.getD (o + 1) 0
  let starts := ((List.range 4).map (fun v => forkVar w v)).filter (· ≠ 0)
  (List.range starts.length).map (fun i => (o + starts.getD i 0, o + (starts.getD (i + 1) (forkJoin w))))

/-- A fork's own structural checks over the decoded step addresses (R65): ascending variants, each ended by its
variant-end record, no settle or end record inside. -/
def forkFindings (us : List Nat) (recs : List Nat) (o : Nat) : List Finding :=
  let vs := variants us o
  findings o [
    (!(vs.all (fun v => v.1 < v.2 && recs.contains v.1 && recs.contains v.2)), 0x324),
    (!(vs.all (fun v => recs.any (fun r => r + 1 = v.2 && v.1 ≤ r && recClass (us.getD r 0) = 3))), 0x324),
    (recs.any (fun r => vs.any (fun v => v.1 ≤ r && r < v.2) && (recClass (us.getD r 0) = 4 || recClass (us.getD r 0) = 5)), 0x324)]

/-- Forks that stand open at an offset: those with a variant that holds it. -/
def openForks (us : List Nat) (recs : List Nat) (o : Nat) : List Nat :=
  recs.filter (fun r => recClass (us.getD r 0) = 2 && (variants us r).any (fun v => v.1 ≤ o && o < v.2))

/-- Whether some variant of a fork holds both of two offsets. -/
def sameVariant (us : List Nat) (f a b : Nat) : Bool :=
  (variants us f).any (fun v => v.1 ≤ a && a < v.2 && v.1 ≤ b && b < v.2)

/-- Loop openings open after the records before an offset, innermost first. -/
def loopsBefore (us : List Nat) (recs : List Nat) (o : Nat) : List Nat :=
  (recs.filter (fun r => r < o)).foldl (fun st r =>
    let st1 := if recLB (us.getD r 0) then r :: st else st
    if recLE (us.getD r 0) then st1.drop 1 else st1) []

/-- The structure checks at one record. -/
def structFindings (us : List Nat) (recs : List Nat) (o : Nat) : List Finding :=
  let h := us.getD o 0
  let st := loopsBefore us recs o
  let st1 := if recLB h then o :: st else st
  findings o [
    (recClass h = 1 && 8 < st1.length, 0x323),
    (recClass h = 1 && recLE h && st1.isEmpty, 0x323),
    -- a loop and a variant nest: the opening and the closing record stand in the same variants
    (recClass h = 1 && recLE h && (match st1 with
      | [] => false
      | lo :: _ => !((openForks us recs lo ++ openForks us recs o).all (fun f => sameVariant us f lo o))), 0x323),
    (recClass h = 5 && !st.isEmpty, 0x323),
    (recClass h = 2 && 4 ≤ (openForks us recs o).length, 0x324),
    -- a fork in a variant joins within it, and a variant-end record is the last of a variant
    (recClass h = 2 && !((openForks us recs o).all (fun f => sameVariant us f o (o + forkJoin (us.getD (o + 1) 0)))), 0x324),
    (recClass h = 3 && !((openForks us recs o).any (fun f => (variants us f).any (fun v => v.1 ≤ o && v.2 = o + 1))), 0x324)] ++
  (if recClass h = 2 then forkFindings us recs o else []) ++
  (if recClass h = 5 then findings o [(!(recs.any (fun r => r + 1 = o && recClass (us.getD r 0) = 4)), 0x32A)] else [])

/-! ## Walking the unrolled order (R47, R48)

Each loop body is taken twice where its count allows: with the per-iteration balance of R47, later iterations repeat the
second. Every fork variant is walked from the fork's state. -/

/-- The index of the record that closes the loop opened at index `i` of the list. -/
def closeIx (us : List Nat) (recs : List Nat) (i depth : Nat) : Nat → Nat
  | 0 => i
  | fuel + 1 =>
    let h := us.getD (recs.getD i 0) 0
    let d := depth + b2n (recLB h) - b2n (recLE h)
    if recLE h ∧ d = 0 then i else closeIx us recs (i + 1) d fuel

/-- The index of the record at a step address. -/
def ixOf (recs : List Nat) (o : Nat) : Nat := (recs.findIdx? (· = o)).getD recs.length

/-- A walk over the records from index `lo` to below `hi`: `on` takes a record's effect on a state, `loop` what the end of
one iteration of a loop says given the states around it, `join` the state after a fork's variants. -/
def walkRecs {σ : Type} (us : List Nat) (recs : List Nat) (on : σ → Nat → σ) (loop : Nat → σ → σ → σ) (join : Nat → σ → List σ → σ) :
    Nat → Bool → Nat → Nat → σ → σ
  | 0, _, _, _, s => s
  | fuel + 1, opened, lo, hi, s =>
    if hi ≤ lo then s
    else
      let o := recs.getD lo 0
      let h := us.getD o 0
      if recClass h = 2 then
        let s1 := on s o
        let ends := (variants us o).map (fun v => walkRecs us recs on loop join fuel false (ixOf recs v.1) (ixOf recs v.2) s1)
        walkRecs us recs on loop join fuel false (ixOf recs (o + forkJoin (us.getD (o + 1) 0))) hi (join o s1 ends)
      else if recLB h ∧ ¬ opened then
        let close := closeIx us recs lo 0 (recs.length + 1)
        let s1 := walkRecs us recs on loop join fuel true lo (close + 1) s
        let s2 := loop (recs.getD close 0) s s1
        let s3 := if 2 ≤ recLoopCount h then walkRecs us recs on loop join fuel true lo (close + 1) s2 else s2
        walkRecs us recs on loop join fuel false (close + 1) hi s3
      else walkRecs us recs on loop join fuel false (lo + 1) hi (on s o)

/-- Events formed less waits consumed of one token by one subscriber since the last settle record (`d`) and in all
(`tot`), with what was found. -/
structure Bal where
  d : Int
  tot : Int
  found : List Finding
  deriving DecidableEq, Repr

/-- The balance walk for one token at one place and one subscriber: `ev` and `wt` say whether a record's instance forms an
event, and waits. -/
def balance (us : List Nat) (recs : List Nat) (ev wt : Nat → Bool) : List Finding :=
  let on (b : Bal) (o : Nat) : Bal :=
    if recClass (us.getD o 0) = 4 then { b with d := 0, found := if b.d = 0 then b.found else (o, 0x326) :: b.found }
    else
      let f := if wt o ∧ b.d ≤ 0 then (o, 0x327) :: b.found else b.found
      let x : Int := (b2n (ev o) : Int) - (b2n (wt o) : Int)
      { d := b.d + x, tot := b.tot + x, found := f }
  let loop (o : Nat) (a b : Bal) : Bal := if a.tot = b.tot then b else { b with found := (o, 0x326) :: b.found }
  let join (o : Nat) (a : Bal) (l : List Bal) : Bal :=
    let all := l.flatMap (fun b => b.found)
    match l with
    | [] => a
    | b :: r => { b with found := if r.all (fun c => c.tot = b.tot) then all else (o, 0x326) :: all }
  (walkRecs us recs on loop join (2 * recs.length + 2) false 0 recs.length { d := 0, tot := 0, found := [] }).found

/-! ## Tokens (R42 to R48) -/

/-- Every use of tokens by a record: the scope, token, unit (none for the header) and whether it signals. -/
def tokUses (us : List Nat) (o : Nat) : List (Bool × Nat × Option LUnit × Bool) :=
  let h := us.getD o 0
  if recClass h = 1 ∨ recClass h = 2 then
    (recWaits h).map (fun t => (false, t, none, false)) ++ (match recSig h with | some t => [(false, t, none, true)] | none => []) ++
    (if recClass h = 1 then
      (recActions us o).flatMap (fun e => e.2.2.flatMap (fun u =>
        (actWaits e.2.1).map (fun w => (w.1, w.2, some u, false)) ++
        (match actSig e.2.1 with | some w => [(w.1, w.2, some u, true)] | none => [])))
     else [])
  else []

/-- Whether two units stand at the same place. -/
def samePlace (u v : LUnit) : Bool := u.1 = v.1 && u.2.1 = v.2.1

/-- Scope checks (R42, R71): the header's sets disjoint, each use declared in its scope, each declaration used. -/
def scopeFindings (us : List Nat) (recs : List Nat) : List Finding :=
  let chip := hdrField us 0x18 8
  let loc := hdrField us 0x20 8
  let uses := recs.map (fun o => (o, tokUses us o))
  findings 0 [((List.range 64).any (fun t => bit chip t && bit loc t), 0x325)] ++
  uses.flatMap (fun e => findings e.1 [(e.2.any (fun x => !(bit (if x.1 then loc else chip) x.2.1)), 0x325)]) ++
  findings 0 [((List.range 64).any (fun t =>
    (bit chip t && !(uses.any (fun e => e.2.any (fun x => !x.1 && x.2.1 = t)))) ||
    (bit loc t && !(uses.any (fun e => e.2.any (fun x => x.1 && x.2.1 = t))))), 0x325)]

/-- Balance and order for every subscriber of every token (R44, R47, R48). -/
def tokenFindings (us : List Nat) (recs : List Nat) : List Finding :=
  let uses := recs.map (fun o => (o, tokUses us o))
  let usesAt (o : Nat) : List (Bool × Nat × Option LUnit × Bool) := ((uses.find? (fun e => e.1 = o)).map Prod.snd).getD []
  let subs := ((uses.flatMap (fun e => e.2.filterMap (fun x => if x.2.2.2 then none else some (x.1, x.2.1, x.2.2.1))))).eraseDups
  subs.flatMap (fun s =>
    let ev (o : Nat) : Bool := (usesAt o).any (fun x => x.2.2.2 && x.1 = s.1 && x.2.1 = s.2.1 &&
      (!s.1 || (match x.2.2.1, s.2.2 with | some u, some v => samePlace u v | _, _ => false)))
    let wt (o : Nat) : Bool := (usesAt o).any (fun x => !x.2.2.2 && x.1 = s.1 && x.2.1 = s.2.1 && x.2.2.1 = s.2.2)
    balance us recs ev wt)

/-! ## Rings and verdicts (R103, R108) -/

/-- The ring SENDs of a record as (receiver, sender) places. -/
def ringSends (us : List Nat) (o : Nat) : List (Nat × Nat) :=
  if recClass (us.getD o 0) = 1 then
    (recGroups us o).flatMap (fun g => g.words.flatMap (fun w =>
      if wordOp w = 0x52 ∧ sRing w then
        let ps := selPlaces us g.sel
        (List.range ps.length).map (fun k => (ps.getD ((k + 1) % ps.length) 0, ps.getD k 0))
      else []))
  else []

/-- R103: between settle points every ring SEND that reaches a place comes from one predecessor. -/
def ringFindings (us : List Nat) (recs : List Nat) : List Finding :=
  let clash (seen new : List (Nat × Nat)) : Bool := new.any (fun e => (seen ++ new).any (fun q => q.1 = e.1 && q.2 ≠ e.2))
  let on (s : List (Nat × Nat) × List Finding) (o : Nat) : List (Nat × Nat) × List Finding :=
    if recClass (us.getD o 0) = 4 then ([], s.2)
    else ((s.1 ++ ringSends us o).eraseDups, if clash s.1 (ringSends us o) then (o, 0x330) :: s.2 else s.2)
  let join (_ : Nat) (_ : List (Nat × Nat) × List Finding) (l : List (List (Nat × Nat) × List Finding)) :
      List (Nat × Nat) × List Finding := ((l.flatMap (fun x => x.1)).eraseDups, l.flatMap (fun x => x.2))
  (walkRecs us recs on (fun _ _ b => b) join (2 * recs.length + 2) false 0 recs.length ([], [])).2

/-- The actions of an opcode in a record, by place. -/
def opCount (us : List Nat) (o op : Nat) : Nat :=
  if recClass (us.getD o 0) = 1 then ((recActions us o).map (fun e => if wordOp e.2.1 = op then e.2.2.length else 0)).sum else 0

/-- R108: at most one VERDICT in a stretch along any path, and one before any SWEEP or PUSH on every path. The state is
the most and the fewest VERDICTs of the stretch so far. -/
def verdictFindings (us : List Nat) (recs : List Nat) : List Finding :=
  let on (s : Nat × Nat × List Finding) (o : Nat) : Nat × Nat × List Finding :=
    if recClass (us.getD o 0) = 4 then (0, 0, s.2.2)
    else
      let v := opCount us o 0x82
      let sw := opCount us o 0x71 + opCount us o 0x72
      let f := findings o [(1 < s.1 + v && 0 < v, 0x332), (0 < sw && s.2.1 = 0, 0x332)]
      (s.1 + v, s.2.1 + v, f ++ s.2.2)
  let join (_ : Nat) (a : Nat × Nat × List Finding) (l : List (Nat × Nat × List Finding)) : Nat × Nat × List Finding :=
    match l with
    | [] => a
    | b :: r => (r.foldl (fun m x => max m x.1) b.1, r.foldl (fun m x => min m x.2.1) b.2.1, l.flatMap (fun x => x.2.2))
  (walkRecs us recs on (fun _ _ b => b) join (2 * recs.length + 2) false 0 recs.length (0, 0, [])).2.2

/-! ## The whole load -/

/-- What a load finds in an image: none when it passes. The first failing record decides, whichever check it fails; a failure that
only comparing the header with all the records shows comes after every record's. Where a record cannot be decoded, the records up to it are
judged by themselves, since what follows is unknown (assumption log). -/
def loadRefusal (strict : Bool) (us : List Nat) : Option Finding :=
  if !headerValid us then some (0, 0x320)
  else
    let len := hdrField us 8 4
    let dec := decodeFrom us len (hdrField us 0x0C 3) len
    let one := dec.1.flatMap (recordFindings strict us)
    let all := one ++ dec.1.flatMap (structFindings us dec.1) ++ scopeFindings us dec.1 ++ tokenFindings us dec.1 ++ ringFindings us dec.1 ++
      verdictFindings us dec.1
    if !dec.2.isEmpty then firstFinding (one ++ dec.2)
    else (firstFinding (all.filter (fun f => f.1 ≠ 0))).or (firstFinding all)

/-- The tree sets that the REDUCE actions of an image name (R107). -/
def progTrees (us : List Nat) : List Nat :=
  let len := hdrField us 8 4
  ((decodeFrom us len (hdrField us 0x0C 3) len).1.flatMap (fun o => if recClass (us.getD o 0) = 1 then
    ((recGroups us o).flatMap (fun g => g.words)).filterMap (fun w => if wordOp w = 0x81 then some (aEntry w) else none) else [])).eraseDups

end Sys2Proof.Machine
end

