-- ==== Sys2Proof/Machine/Program.lean ====
section
/-!
DEFINITION. The program commands: load, run, stop, unload, flag (R71 to R79, R434, R439).
-/
namespace Sys2Proof.Machine
open Sys2Proof

/-! ## Reading by handle (R493) -/

/-- A command that reads `len` bytes at `off` of an object: the status that ends it, or the bytes. `bad` is the status of a
handle that names no object, or of a range beyond it. -/
def Core.byHandle (c : Core) (n h off len bad : Nat) : Except Nat (List Byte) :=
  match (c.ctx? n).bind (fun x => x.objOf n h) with
  | none => .error bad
  | some (i, o) =>
    if o.size < off + len then .error bad
    else match c.objBytes n i o off len with
      | .ok b => .ok b
      | .error e => .error (if e = 5 ∨ e = 7 then 9 else bad)

/-- The HBM words of a stretch of an object as a command reads them by handle, each checked (R248, R493). -/
def Core.checkObj (c : Core) (n h off len : Nat) : Core :=
  if c.hbmQuiet then c
  else match (c.ctx? n).bind (fun x => x.objOf n h) with
    | none => c
    | some (i, o) =>
      if o.window then c
      else (chunks (o.base + off) (len + 1) (min len (o.size - off))).foldl (fun c k =>
        match o.plots[(k.1 - o.base) / plotBytes]? with
        | some e => if e.st = .resident ∨ e.st = .leaving then
            (c.wordRead (k.1 / 2 ^ 36 * 2 ^ 36 + e.phys * plotBytes + k.1 % plotBytes) (some (n, o.gen, i))).1 else c
        | none => c) c

/-- Bytes as 16-byte units. -/
def toUnits (b : List Byte) : Nat → List Nat
  | 0 => []
  | n + 1 => ofLe (b.take 16) :: toUnits (b.drop 16) n

/-! ## Load -/

/-- The image of PROG_LOAD: the header read first for its length, then the whole image. -/
def Core.imageOf (c : Core) (n h : Nat) : Except Nat (List Byte) :=
  match (c.ctx? n).bind (fun x => x.objOf n h) with
  | none => .error 0x32F
  | some (_, o) =>
    match c.byHandle n h 0 256 0x320 with
    | .error e => .error e
    | .ok hdr =>
      let len := fieldAt hdr 8 4
      if o.size < 16 * len then .error 0x320
      else if len < 32 ∨ 2 ^ 24 < len then .error 0x320
      else c.byHandle n h 0 (16 * len) 0x320

/-- PROG_LOAD (R71, R76, R78, R79): the status and, for a load refusal, the step address in R_INFO. -/
def execProgLoad (p : Packet) (s : State) : Host.Outcome State Fault Refusal :=
  hostCmd (Cmd.plain 0x301 true [2, 64]) p s (fun d =>
    let n := p.ctxNum
    match d.c.ctx? n with
    | none => d.c.finish p 4 []
    | some x =>
      if x.dataKey.isSome then d.c.finish p 0x823 []
      else if (kget x.progs (p.arg 0)).isSome then d.c.finish p 0x32D []
      else
       let c0 := d.c.checkObj n (p.arg 1) 0 (2 ^ 28)
       match c0.imageOf n (p.arg 1) with
        | .error e => c0.finish p e []
        | .ok b =>
          let us := toUnits b (b.length / 16)
          match loadRefusal x.strict us with
          | some f => c0.finishI p f.2 f.1 []
          | none =>
            if !(c0.fits us && c0.treesFit n (progTrees us)) then c0.finish p 0x32B []
            else match c0.placeArea n (p.arg 0) { units := us, trees := progTrees us, area := [], measure := Config.sha384 b, unfit := false }
                (cdiv b.length plotBytes) with
              | none => c0.finish p 0x32C []
              | some c1 => (c1.modCtx n (fun y => { y with flags := if x.progs.isEmpty then [] else y.flags })).finish p 0 [])

/-! ## Run -/

/-- A run just started (R76, R77). -/
def Run.start (slot : Nat) (p : Packet) (entry : Nat) : Run :=
  { slot := slot, pkt := some p, stepNo := p.arg 1, stepsLeft := if p.arg 2 = 0 then none else some (p.arg 2),
    quantum := p.arg 3, used := 0, pc := entry, loops := [], forks := [], inst := 0, settling := false,
    halted := false, stopReq := false, poison := false, step := StepSt.fresh }

/-- A verdict node as a run begins at a step (assumption log): what an earlier run decided or heard of that step or of later ones
counts no more, unless it came after the context's last settle point. -/
def VNode.atRun (v : VNode) (first last : Nat) : VNode :=
  let old (s : Nat) : Bool := first < s || (s = first && first < last)
  { v with
    decided := (match v.decided with | some d => if old d then none else some d | none => none),
    latest := (match v.latest with | some r => if old r.step then none else some r | none => none) }

/-- PROG_RUN: the reply comes when the run ends. A stopped context that runs again is no longer stopped. -/
def execProgRun (p : Packet) (s : State) : Host.Outcome State Fault Refusal :=
  hostCmd (Cmd.plain 0x302 true [2, 40, 64, 64]) p s (fun d =>
    let n := p.ctxNum
    match d.c.ctx? n with
    | none => d.c.finish p 4 []
    | some x =>
      match kget x.progs (p.arg 0) with
      | none => d.c.finish p 0x32D []
      | some g =>
        if x.run.isSome then d.c.finish p 0x32D []
        else if g.unfit || !d.c.treesFit n g.trees then d.c.finish p 0x32B []
        else
          let c1 := (d.c.modCtx n (fun x => { x with
            stopped := false, vnode := x.vnode.atRun (p.arg 1) x.lastStep,
            run := some (Run.start (p.arg 0) p (hdrField g.units 0x0C 3)) })).wait p .run
          if c1.cur.isNone then ({ c1 with cur := some n, seqErr := false }.gate).beginStep n else c1)

/-- PROG_STOP: the reply comes at the settle point that stops the run; at once with no run started. -/
def execProgStop (p : Packet) (s : State) : Host.Outcome State Fault Refusal :=
  hostCmd (Cmd.plain 0x303 true []) p s (fun d =>
    if d.c.runStarted p.ctxNum then (d.c.modRun p.ctxNum (fun r => { r with stopReq := true })).wait p .stop
    else d.c.finish p 0 [])

/-- PROG_UNLOAD. -/
def execProgUnload (p : Packet) (s : State) : Host.Outcome State Fault Refusal :=
  hostCmd (Cmd.plain 0x304 true [2]) p s (fun d =>
    let n := p.ctxNum
    match d.c.ctx? n with
    | none => d.c.finish p 4 []
    | some x =>
      if x.dataKey.isSome then d.c.finish p 0x823 []
      else if (kget x.progs (p.arg 0)).isNone || (match x.run with | some r => decide (r.slot = p.arg 0) | none => false) then
        d.c.finish p 0x32D []
      else ((d.c.modCtx n (fun x => { x with progs := kdel x.progs (p.arg 0) })).sweepRetire).finish p 0 [])

/-- A program flag written (R78). -/
def Core.setFlag (c : Core) (n f v : Nat) : Core := c.modCtx n (fun x => { x with flags := kset x.flags (f % 256) (v % 256) })

/-- PROG_FLAG: one parameter, the flag number in [7:0] and the value in [15:8] (R409). -/
def execProgFlag (p : Packet) (s : State) : Host.Outcome State Fault Refusal :=
  hostCmd (Cmd.plain 0x305 true [16]) p s (fun d =>
    (d.c.setFlag p.ctxNum (p.arg 0 % 256) (p.arg 0 / 256)).finish p 0 [])

end Sys2Proof.Machine
end

