-- ==== Sys2Proof/Machine/Sequencer.lean ====
section
/-!
DEFINITION. The sequencer and the columns: issue of records, forks, tokens, the beginning and completion of actions, and
the handshake windows that a slice opens (R38 to R66, R69, R75, R84, R88, R177).
-/
namespace Sys2Proof.Machine
open Sys2Proof

/-! ## The running program -/

/-- The running context with its run and its program. -/
def Core.running? (c : Core) : Option (Nat × Run × Prog) :=
  match c.cur with
  | none => none
  | some n =>
    match c.run? n with
    | none => none
    | some r =>
      match (c.ctx? n).bind (fun x => kget x.progs r.slot) with
      | some g => some (n, r, g)
      | none => none

/-- Events of a token formed since the settle point, and how many a subscriber has consumed (R44). -/
def Core.events (c : Core) (t : Nat) (pl : TokPlace) : Nat := kgetD c.toks (t, pl) 0
def Core.consumed (c : Core) (t : Nat) (pl : TokPlace) (s : Option UnitId) : Nat := kgetD c.used (t, pl, s) 0

/-- The place a token field counts at for a unit: chip scope, or the unit's own place (R42). -/
def tokPlace (u : UnitId) (loc : Bool) : TokPlace := if loc then u.place else .chip

/-- Whether every wait of a subscriber is satisfied, and the counts with one event of each consumed. -/
def Core.waitsMet (c : Core) (s : Option UnitId) (ws : List (Nat × TokPlace)) : Bool :=
  ws.all (fun w => c.consumed w.1 w.2 s < c.events w.1 w.2)
def Core.consume (c : Core) (s : Option UnitId) (ws : List (Nat × TokPlace)) : Core :=
  { c with used := ws.foldl (fun m w => kset m (w.1, w.2, s) (kgetD m (w.1, w.2, s) 0 + 1)) c.used }

/-- The physical unit of a logical one of the program. -/
def Core.physOf (c : Core) (u : LUnit) : Option UnitId :=
  if u.1 = 0 then (c.physCell u.2.1).map (fun q => UnitId.cell q (cellKind u.2.2))
  else (c.physDie u.1 u.2.1).map (fun d =>
    if 16 ≤ u.2.2 then UnitId.se d (u.2.2 - 16) else if u.2.2 = 7 then UnitId.uu d else if u.2.2 = 8 then UnitId.ru d else UnitId.de d)

/-- The subscribers of a token at a place: units and, as none, the sequencer (R44). -/
def Core.subscribers (c : Core) (us : List Nat) (t : Nat) (pl : TokPlace) : List (Option UnitId) :=
  let recs := (decodeFrom us (hdrField us 8 4) (hdrField us 0x0C 3) (hdrField us 8 4)).1
  ((recs.flatMap (tokUses us)).filterMap (fun x =>
    if x.2.2.2 ∨ x.2.1 ≠ t then none
    else match x.2.2.1 with
      | none => if pl = .chip then some none else none
      | some u => (match c.physOf u with
        | some q => if tokPlace q x.1 = pl then some (some q) else none
        | none => none))).eraseDups

/-- Whether a 256th unconsumed event would stand for some subscriber (R45). -/
def Core.full (c : Core) (us : List Nat) (t : Nat) (pl : TokPlace) : Bool :=
  (c.subscribers us t pl).any (fun s => 255 ≤ c.events t pl - c.consumed t pl s)

/-- An event of a token occurs. -/
def Core.formEvent (c : Core) (t : Nat) (pl : TokPlace) : Core := { c with toks := kset c.toks (t, pl) (c.events t pl + 1) }

/-! ## Unrolled order (R54, R60, R65, R69) -/

/-- A loop body whose slices occupy at most this many bytes on each hub stays in the step caches (R75); the model counts the records of
the body, whose slices are no longer (assumption log). -/
def cacheBytes : Nat := 8 * 2 ^ 20

/-- A fetched record kept with every open loop. -/
def Run.saw (r : Run) : Run :=
  { r with loops := r.loops.map (fun (f : LoopFrame) => { f with seen := if f.seen.contains r.pc then f.seen else r.pc :: f.seen }) }

/-- Whether the record at the run's place repeats without a fetch. -/
def Run.cached (r : Run) : Bool := r.loops.any (fun f => f.seen.contains r.pc)

/-- Where the sequencer stands after an action record: a loop opened, closed or repeated. A body too large for the step caches is
fetched again. -/
def Run.after (r : Run) (h : Nat) : Run :=
  let frames := if recLB h ∧ (match r.loops with | f :: _ => decide (f.start = r.pc) | [] => false) = false
    then { start := r.pc, count := recLoopCount h, iter := 0, seen := [r.pc] } :: r.loops else r.loops
  if recLE h then
    match frames with
    | f :: rest =>
      if f.iter + 1 < f.count then { r with pc := f.start, loops := { f with
          iter := f.iter + 1, seen := if 16 * (r.pc + recLen h - f.start) ≤ cacheBytes then f.seen else [] } :: rest }
      else { r with pc := r.pc + recLen h, loops := rest }
    | [] => { r with pc := r.pc + recLen h }
  else { r with pc := r.pc + recLen h, loops := frames }

/-- The loops open for an action record at the run's place, outermost first. -/
def Run.indices (r : Run) (h : Nat) : List Nat :=
  let frames := if recLB h ∧ (match r.loops with | f :: _ => decide (f.start = r.pc) | [] => false) = false
    then { start := r.pc, count := recLoopCount h, iter := 0, seen := [] } :: r.loops else r.loops
  (frames.map (fun f => f.iter)).reverse

/-- Whether a settle record stands between two step addresses, in program order from the first. -/
def settleWithin (us : List Nat) (lo hi : Nat) : Nat → Bool
  | 0 => false
  | fuel + 1 =>
    if hi < lo then false
    else if recClass (us.getD lo 0) = 4 then true
    else settleWithin us (lo + recLen (us.getD lo 0)) hi fuel

/-- The run moved to the settle record that unrolled order reaches next (R69): forks are passed by their JOIN, a loop
without a settle record is left at its closing record. -/
def Run.toSettle (us : List Nat) (r : Run) : Nat → Run
  | 0 => r
  | fuel + 1 =>
    let h := us.getD r.pc 0
    match recClass h with
    | 4 => { r with forks := [] }
    | 5 => r
    | 2 => { r with pc := r.pc + forkJoin (us.getD (r.pc + 1) 0) }.toSettle us fuel
    | 3 => (match r.forks with
      | j :: rest => { r with pc := j, forks := rest }.toSettle us fuel
      | [] => { r with pc := r.pc + 1 }.toSettle us fuel)
    | _ =>
      let r1 := r.after h
      if recLE h ∧ r1.pc ≤ r.pc ∧ ¬ settleWithin us r1.pc r.pc us.length then
        { r with pc := r.pc + recLen h, loops := r1.loops.drop 1 }.toSettle us fuel
      else r1.toSettle us fuel

/-! ## Issue (R53, R54, R75, R177) -/

/-- Physical bytes of a record in the program area, by stretches within one word. -/
def Prog.places (g : Prog) (o len : Nat) : List Nat :=
  (List.range len).filterMap (fun i => (g.area[16 * (o + i) / plotBytes]?).map (fun a => a.1 * 2 ^ 36 + a.2 * plotBytes + 16 * (o + i) % plotBytes))

/-- The words of a fetched record are read and checked (R248); those of a loop body in the step caches are not read again. -/
def Core.fetch (c : Core) (r : Run) (g : Prog) (len : Nat) : Core :=
  if c.hbmQuiet || r.cached then c
  else (((g.places r.pc len).map (fun p => p / 64 * 64)).eraseDups).foldl (fun c p => (c.wordRead p none).1) c

/-- Whether the record at a step address lies in a poisoned word of the program area. -/
def Core.fetchPoisoned (c : Core) (r : Run) (g : Prog) (len : Nat) : Bool :=
  let o := r.pc
  !r.cached && (List.range len).any (fun i =>
    let b := 16 * (o + i)
    match g.area[b / plotBytes]? with
    | some (m, p) => (match kget c.words (m * 2 ^ 30 + p * 32768 + b % plotBytes / 64) with | some w => w.pois | none => false)
    | none => false)

/-- The oldest record instance with an action not yet complete. -/
def Core.oldest (c : Core) (now : Nat) : Nat :=
  c.cols.foldl (fun m e =>
    let l := (match e.2.run with | some r => [r.a] | none => []) ++ e.2.queue
    l.foldl (fun m a => min m a.inst) m) now

/-- Whether the sequencer may issue any record now: no hold of the governor (R382), running, not settling, not halted, and within 64
records of the least advanced column (R54). -/
def Core.mayMove (c : Core) (r : Run) : Bool :=
  c.holdUntil ≤ c.now 0 && !r.settling && !r.halted && r.inst - c.oldest r.inst ≤ 64

/-- Whether it may issue an action, fork or variant end record: no abandon either (R69). -/
def Core.mayIssue (c : Core) (r : Run) : Bool := c.mayMove r && r.step.abandon.isNone

/-- The actions a record gives to physical units, in order. -/
def Core.sliceOf (c : Core) (us : List Nat) (n : Nat) (r : Run) : List (UnitId × ActionInst) :=
  let h := us.getD r.pc 0
  (recGroups us r.pc).flatMap (fun g =>
    let ps := selPlaces us g.sel
    (List.range g.words.length).flatMap (fun wi => (List.range ps.length).filterMap (fun k =>
      (c.physUnit (selLevel g.sel) (ps.getD k 0) (g.words.getD wi 0)).map (fun u =>
        (u, ({ ctx := n, addr := r.pc, slotGroup := g.index, word := wi, bits := g.words.getD wi 0, ordinal := k, group := ps,
               loops := r.indices h, inst := r.inst } : ActionInst))))))

/-- The signal events of one record instance (R43, R53): by token and place, with the completions each waits for. -/
def slicePend (h : Nat) (acts : List (UnitId × ActionInst)) (inst : Nat) : List PendEv :=
  let sigs := acts.filterMap (fun e => (actSig e.2.bits).map (fun g => (g.2, tokPlace e.1 g.1)))
  let kinds := sigs.eraseDups
  let head := recSig h
  (kinds.filter (fun k => ¬ (k.2 = .chip ∧ head = some k.1))).map (fun k =>
    { inst := inst, tok := k.1, place := k.2, all := false, left := (sigs.filter (· = k)).length }) ++
  (match head with
   | some t => [{ inst := inst, tok := t, place := .chip, all := true, left := acts.length }]
   | none => [])

/-- A unit's pointers as they will stand once every action issued to it has run. -/
def Core.apAhead (c : Core) (u : UnitId) (n : Nat) : AddrPtr :=
  match kget c.cols u with
  | none => c.ap u n
  | some col =>
    ((match col.run with | some r => if r.done then [] else [r.a] | none => []) ++ col.queue).foldl (fun p a =>
      if a.op % 16 = 1 ∧ setapAPN a.bits = n ∧ a.op < 0x60 then setapPtr a.bits else p) (c.ap u n)

/-- A silt route entry of a context (R190). -/
def Core.route (c : Core) (n e : Nat) : Nat := match c.ctx? n with | some x => kgetD x.tables (1, e) 0 | none => 0

/-- A window of an action of unit k of cell n. -/
def ActionInst.win (a : ActionInst) (n : Nat) (k : CellUnit) (cell : Nat) (fill : Bool) (lo len : Nat) : Win :=
  { cell := cell, fill := fill, lo := lo, hi := lo + len, done := 0, inst := a.inst, word := a.nth, by_ := n, owner := k }

/-- The window that an action of a slice opens at a cell (R177): a fill window for RECEIVE, a drain window for SEND, and a fill
window at the routed granule for SILT. -/
def Core.winOf (c : Core) (u : UnitId) (a : ActionInst) : List Win :=
  match u with
  | .cell n k =>
    if a.op = 0x42 ∨ a.op = 0x52 then
      (match (c.apAhead u (sAP a.bits)).granule a with
       | some g => [a.win n k n (a.op = 0x42) g (sGRAN a.bits)]
       | none => [])
    else if a.op = 0x53 then
      let e := c.route a.ctx (sDEST a.bits)
      if fieldN e 8 1 = 1 then
        (match c.physCell (fieldN e 0x0A 2) with
         | some t => [a.win n k t true (fieldN e 0 8) 1]
         | none => [])
      else []
    else []
  | _ => []

/-- A REDUCE that issues names the trap record that its tree set left unnamed (R494). -/
def Core.nameTrap (c : Core) (a : ActionInst) : Core :=
  if a.op = 0x81 then
    let name (t : Trap) : Trap :=
      if t.unnamed = some (bits a.bits 127 116) then
        { t with pc := a.addr, slotGroup := a.slotGroup, word := a.word, loops := a.loops, unnamed := none }
      else t
    c.modCtx a.ctx (fun x => { x with trap := x.trap.map name })
  else c

/-- A slice laid into the columns. -/
def Core.laySlice (c : Core) (acts : List (UnitId × ActionInst)) : Core :=
  acts.foldl (fun c e =>
    let ws := c.winOf e.1 e.2
    let col := kgetD c.cols e.1 { run := none, queue := [], dropped := false }
    { c with cols := kset c.cols e.1 { col with queue := col.queue ++ [e.2] }, wins := c.wins ++ ws }.nameTrap e.2) c

/-- SEQ_PC, and one more record instance issued. -/
def Core.issued (c : Core) (n : Nat) (r : Run) : Core := { c.modRun n (fun _ => { r with inst := r.inst + 1 }) with seqPc := (match c.run? n with | some q => q.pc | none => 0) }

/-- A fetch of poisoned step code (R75): the abandon flag is set, and the run resumes at the settle record of R69, whose settle point
stops the context (R491). Where no settle record is left before the end record, it stops at the end record. -/
def Core.poisonedFetch (c : Core) (n : Nat) (us : List Nat) : Core :=
  let c1 := c.setAbandon n 0x0A
  match c1.run? n with
  | none => c1
  | some r =>
    let r1 := r.toSettle us (4 * us.length + 4)
    { c1.modRun n (fun _ => { r1 with settling := decide (recClass (us.getD r1.pc 0) = 4), poison := true }) with seqPc := r1.pc }

/-- SEQ_STATE as it stands (R81): of the running context, else of a context that the debug trap holds. -/
def Core.seqState (c : Core) : Nat :=
  let held : Option Nat := (c.ctxs.find? (fun e => match e.2.run with | some r => r.halted | none => false)).map Prod.fst
  match (match c.cur with | some n => some n | none => held) with
  | none => if c.seqErr then 5 else 0
  | some n =>
    match c.run? n with
    | none => 0
    | some r =>
      (if r.halted then 4 else if r.settling then 2 else if r.step.abandon.isSome then 3 else 1) + 2 ^ 4 * r.loops.length +
        2 ^ 8 * (r.slot % 4) + 2 ^ 12 * (n % 16)

/-- What the hubs of other regions show of a slice received with the record just issued (R80). -/
def Core.showSlices (c : Core) (acts : List (UnitId × ActionInst)) : Core :=
  { c with hubSeen := [1, 2, 3].foldl (fun m r => if acts.any (fun a => dieRegion a.1.die = r) then
      kset m r (c.seqState, c.seqPc % 2 ^ 24, c.stepNow) else m) c.hubSeen }

/-- RECORD_ISSUE. -/
def execRecordIssue (s : State) : Host.Outcome State Fault Refusal :=
  s.onCore (fun d =>
    match d.c.running? with
    | none => d.c
    | some (n, r, g) =>
      let h := g.units.getD r.pc 0
      let ws := (recWaits h).map (fun t => (t, TokPlace.chip))
      if recClass h ≠ 1 || !d.c.mayIssue r then d.c
      else
        let c := d.c.fetch r g (recLen h)
        if c.fetchPoisoned r g (recLen h) then c.poisonedFetch n g.units
        else if !c.waitsMet none ws then c
        else
        let acts := c.sliceOf g.units n r
        let pend := slicePend h acts r.inst
        let now := pend.filter (fun e => e.left = 0)
        let c0 := c.consume none ws
        -- R45: a barrier's event that would be the 256th once the header's own waits are consumed holds its issue
        if now.any (fun e => c0.full g.units e.tok e.place) then c
        else
          let c1 := ((c0.laySlice acts).issued n (r.saw.after h)).showSlices acts
          now.foldl (fun c e => c.formEvent e.tok e.place) { c1 with evs := c1.evs ++ pend.filter (fun e => e.left ≠ 0) })

/-! ## Forks (R62 to R65) -/

/-- Stash occupancy (R266): the high-water mark over the reservation's size. -/
def Ctx.stashOccupancy (x : Ctx) (n : Nat) : Nat :=
  match x.objOf n x.stash with
  | some (_, o) => if o.size = 0 then 255 else min 255 (256 * x.stashHigh / o.size)
  | none => 255

/-- The value of a fork's predicate (R63). -/
def Dev.predicate (d : Dev) (n source opnd : Nat) : Nat :=
  match d.c.ctx? n with
  | none => 0
  | some x =>
    match source with
    | 0 => d.gov.cls
    | 1 => x.stashOccupancy n
    | 2 => (match x.objOf n opnd with
      | some (_, o) => if o.plots.isEmpty then 0 else min 255 (256 * o.residentPlots.length / o.plots.length)
      | none => 0)
    | 3 => d.c.pressure
    | _ => kgetD x.flags (opnd % 256) 0

/-- The offset of the variant a value chooses (R64). -/
def chosen (w value : Nat) : Nat :=
  let v := b2n (forkT w 1 ≤ value) + b2n (forkT w 2 ≤ value) + b2n (forkT w 3 ≤ value)
  match ((List.range (v + 1)).reverse.map (forkVar w)).find? (· ≠ 0) with
  | some o => o
  | none => 2

/-- FORK_ISSUE. -/
def execForkIssue (s : State) : Host.Outcome State Fault Refusal :=
  s.onCore (fun d =>
    match d.c.running? with
    | none => d.c
    | some (n, r, g) =>
      let h := g.units.getD r.pc 0
      let w := g.units.getD (r.pc + 1) 0
      let ws := (recWaits h).map (fun t => (t, TokPlace.chip))
      if recClass h ≠ 2 || !d.c.mayIssue r then d.c
      else
        let c := d.c.fetch r g 2
        if c.fetchPoisoned r g 2 then c.poisonedFetch n g.units
        else if !c.waitsMet none ws || (match recSig h with | some t => (c.consume none ws).full g.units t .chip | none => false) then c
        else
        let c1 := (c.consume none ws).issued n { r.saw with
          pc := r.pc + chosen w (d.predicate n (forkSource w) (recForkOperand h)), forks := (r.pc + forkJoin w) :: r.forks }
        match recSig h with | some t => c1.formEvent t .chip | none => c1)

/-- VARIANT_END. -/
def execVariantEnd (s : State) : Host.Outcome State Fault Refusal :=
  s.onCore (fun d =>
    match d.c.running? with
    | none => d.c
    | some (n, r, g) =>
      if recClass (g.units.getD r.pc 0) ≠ 3 || !d.c.mayIssue r then d.c
      else
        let c := d.c.fetch r g 1
        if c.fetchPoisoned r g 1 then c.poisonedFetch n g.units
        else match r.forks with
        | j :: rest => c.issued n { r.saw with pc := j, forks := rest }
        | [] => c)

/-- SETTLE_RECORD: reached in order, or under the abandon flag by R69's jump. -/
def execSettleRecord (s : State) : Host.Outcome State Fault Refusal :=
  s.onCore (fun d =>
    match d.c.running? with
    | none => d.c
    | some (n, r, g) =>
      let r1 := if r.step.abandon.isSome then r.toSettle g.units (4 * g.units.length + 4) else r
      if !d.c.mayMove r || recClass (g.units.getD r1.pc 0) ≠ 4 then d.c
      else
        let c := d.c.fetch r1 g 1
        if c.fetchPoisoned r1 g 1 then c.poisonedFetch n g.units
        else { c.issued n { r1.saw with settling := true } with seqPc := r1.pc })

/-! ## Columns (R39, R43 to R45, R84) -/

/-- SWEEP and PUSH begin only after the step's VERDICT has completed (R106). -/
def Core.verdictHeld (c : Core) (a : ActionInst) : Bool :=
  (a.op = 0x71 || a.op = 0x72) && ((c.stepSt a.ctx).verdict.isNone || c.cols.any (fun e =>
    (match e.2.run with | some r => r.a.op = 0x82 | none => false) || e.2.queue.any (fun b => b.op = 0x82 && b.inst ≤ a.inst)))

/-- A column's next action begins: under an abandon those that stay behind it are complete as they begin, a VERDICT once its record is
there (R287), and so is everything of a unit whose work of the step an immediate disable has dropped (R293). -/
def Core.startAction (c : Core) (u : UnitId) (col : Column) (a : ActionInst) (q : List ActionInst) (ended : Bool) : Core :=
  let complete := ended && (col.dropped || a.op ≠ 0x82 || (c.stepSt a.ctx).verdict.isSome)
  let c1 := { c with cols := kset c.cols u { col with
    run := some { a := a, started := false, done := complete, count := 0, evs := ActEvs.none }, queue := q } }
  if complete then c1
  else
    -- R464: an armed action check takes this action
    match c1.inject u.sunit 0 with
    | (some _, c2) => (c2.errorAt u u.sunit 0 0 (Config.syndrome c2.freeCtr % 2 ^ 32) true).drawn
    | (none, c2) => c2

/-- ACTION_BEGIN. -/
def execActionBegin (u : UnitId) (s : State) : Host.Outcome State Fault Refusal :=
  s.guard u.valid (fun d =>
    match kget d.c.cols u with
    | none => d.c
    | some col =>
      match col.run, col.queue with
      | none, a :: q =>
        let ws := (actWaits a.bits).map (fun w => (w.2, tokPlace u w.1))
        let held : Bool := match d.c.run? a.ctx with | some r => r.halted | none => true
        let ended := col.dropped || (d.c.stepSt a.ctx).abandon.isSome
        if held then d.c
        else if ended then d.c.startAction u col a q true
        else if !d.c.waitsMet (some u) ws || d.c.verdictHeld a then d.c
        else (d.c.consume (some u) ws).startAction u col a q false
      | _, _ => d.c)

/-- Whether an action's completion counts toward a signal event. -/
def joins (u : UnitId) (a : ActionInst) (e : PendEv) : Bool :=
  e.inst = a.inst && (e.all || (match actSig a.bits with | some g => e.tok = g.2 && e.place = tokPlace u g.1 | none => false))

/-- A stream pass that ends with its action: pins given back, regenerated pages in service (R215, R219). -/
def Core.endPass (c : Core) (u : UnitId) : Core :=
  match u with
  | .se d e =>
    (match (kget c.engines (d, e)).bind (fun g => g.pass) with
     | none => { c with engines := kmod c.engines (d, e) (fun g => { g with stopping := false }) }
     | some p =>
       let c1 := p.pinned.foldl (fun c q => c.unpinPage p.ctx q) c
       let c2 := p.written.foldl (fun c q =>
         if (c.page p.ctx q).st = .fallow then (c.modPage p.ctx q Page.settled).reclaim p.ctx q else c) c1
       { c2 with engines := kmod c2.engines (d, e) (fun g => { g with pass := none, stopping := false }) })
  | _ => c

/-- The NaN events that a completing action has formed and not reported: a stream pass's, and those of a REDUCE's tree set (R134). -/
def Core.lastEvents (c : Core) (u : UnitId) (r : RunAct) : Core :=
  if r.a.op = 0x81 then
    let t := bits r.a.bits 127 116
    match (c.ctx? r.a.ctx).bind (fun x => kget x.redEvs t) with
    | some e => (c.modCtx r.a.ctx (fun x => { x with redEvs := kdel x.redEvs t })).reportEvs u r.a e
    | none => c
  else c.reportEvs u r.a r.evs

/-- ACTION_COMPLETE: the unit is free for its next action, and the signal joins its events, held back at 255. -/
def execActionComplete (u : UnitId) (s : State) : Host.Outcome State Fault Refusal :=
  s.guard u.valid (fun d =>
    match kget d.c.cols u, d.c.running u with
    | some col, some r =>
      let us := match (d.c.ctx? r.a.ctx).bind (fun x => x.run.bind (fun q => kget x.progs q.slot)) with | some g => g.units | none => []
      let last := d.c.evs.filter (fun e => joins u r.a e && e.left = 1)
      if !r.done || last.any (fun e => d.c.full us e.tok e.place) then d.c
      else
        let c1 := { d.c with
          cols := kset d.c.cols u { col with run := none },
          evs := (d.c.evs.map (fun (e : PendEv) => if joins u r.a e then { e with left := e.left - 1 } else e)).filter (fun e => e.left ≠ 0) }
        let c2 := last.foldl (fun c e => c.formEvent e.tok e.place) (c1.closeWins u r.a)
        (c2.endPass u).lastEvents u r
    | _, _ => d.c)

/-- NOP: the unit's NOP reaches its completion point once begun. -/
def execNop (u : UnitId) (s : State) : Host.Outcome State Fault Refusal :=
  s.guard u.valid (fun d => match d.c.running u with
    | some r => if r.a.op % 16 = 0 then d.c.actDone u else d.c
    | none => d.c)

/-- SETAP: the pointer holds its new value. -/
def execSetap (u : UnitId) (s : State) : Host.Outcome State Fault Refusal :=
  s.guard (match u with | .cell n _ => n < 576 | _ => false) (fun d => match d.c.running u with
    | some r => if r.a.op % 16 = 1 ∧ r.a.op < 0x60 ∧ ¬ r.done then
        { d.c with aps := kset d.c.aps (u, setapAPN r.a.bits) (setapPtr r.a.bits) }.actDone u
      else d.c
    | none => d.c)

end Sys2Proof.Machine
end

