-- ==== Sys2Proof/Machine/Flags.lean ====
section
/-!
DEFINITION. What an action reports beside its data: NaN events with their precedence, and census counts (R121, R129 to
R137, R494). The block's computed flags are these counts, the non-finite flag and the trap record.
-/
namespace Sys2Proof.Machine
open Sys2Proof

/-- Precedence of a cause (R134): NaN input, then zero times infinity, then the rest. -/
def causeRank (k : Nat) : Nat := if k = 3 then 0 else if k = 1 then 1 else 2

/-- Whether an event comes before another (R134, R494). -/
def NanEv.before (a b : NanEv) : Bool :=
  if causeRank a.cause ≠ causeRank b.cause then causeRank a.cause < causeRank b.cause
  else if a.row ≠ b.row then a.row < b.row else a.col < b.col

/-- What an action has reported so far: its events that are no NaN input (`count`), whether it read a NaN, the event it
reports, and census counts as (snapshot offset, count). -/
structure Report where
  count : Nat
  input : Bool
  best : Option NanEv
  census : List (Nat × Nat)
  deriving DecidableEq, Repr

def Report.none : Report := { count := 0, input := false, best := Option.none, census := [] }

/-- One event found: NaN inputs count once per action. -/
def Report.event (r : Report) (e : NanEv) : Report :=
  { r with
    count := if e.cause = 3 then r.count else r.count + 1, input := r.input || e.cause = 3,
    best := (match r.best with
      | some b => if e.before b then some e else some b
      | Option.none => some e) }

/-- A census count found. -/
def Report.add (r : Report) (off k : Nat) : Report := if k = 0 then r else { r with census := r.census ++ [(off, k)] }

/-- Two reports of parts of one action joined, the first part's first. -/
def Report.join (a b : Report) : Report :=
  { count := a.count + b.count, input := a.input || b.input, census := a.census ++ b.census,
    best := (match a.best, b.best with
      | some x, some y => if y.before x then some y else some x
      | some x, Option.none => some x
      | Option.none, y => y) }

/-- A conversion's counts (R121): converted, overflowed, vanished, when the target is narrower than the source. -/
def Report.conv (r : Report) (src dst cls : Nat) (k : Conv) : Report :=
  if fmtBits dst < fmtBits src then
    ((r.add (convSlot dst cls 0) 1).add (convSlot dst cls 1) (b2n k.excess)).add (convSlot dst cls 2) (b2n k.vanish)
  else r

/-- The events of one part of an action joined to those of the parts before it (R134). -/
def ActEvs.add (e : ActEvs) (r : Report) : ActEvs :=
  { e with
    count := e.count + r.count, input := e.input || r.input,
    best := (match e.best, r.best with
      | some x, some y => if y.before x then some y else some x
      | some x, Option.none => some x
      | Option.none, y => y) }

/-- A report's counts reach the census (R130). -/
def Core.reportCounts (c : Core) (n : Nat) (r : Report) : Core := r.census.foldl (fun c e => c.censusAdd n e.1 e.2) c

/-- An action's report reaches the census and the trap register (R130, R134). -/
def Core.report (c : Core) (u : UnitId) (a : ActionInst) (r : Report) : Core :=
  (c.reportCounts a.ctx r).reportEvs u a (ActEvs.none.add r)

end Sys2Proof.Machine
end

