-- ==== Sys2Proof/Machine/CellMem.lean ====
section
/-!
DEFINITION. A cell's SRAM as its units use it: element reads, line writes, product counts, the handshake holds, and the
overlap checks (R87 to R92, R145, R153, R154, R177).
-/
namespace Sys2Proof.Machine
open Sys2Proof

/-! ## Bytes and elements -/

/-- Key of a byte of a cell. -/
def cellKey (cell byte : Nat) : Nat := cell * 2 ^ 22 + byte

/-- Bytes of a cell; one that nothing has written since the settle point is a free value (R70). -/
def Core.cellRead (c : Core) (cell byte len : Nat) : List Byte :=
  mreadF c.sram (Config.sramByte c.sramEpoch) (cellKey cell byte) len

/-- Bytes written by an engine: product counts stay. -/
def Core.cellPut (c : Core) (cell byte : Nat) (b : List Byte) : Core := { c with sram := mputs c.sram (cellKey cell byte) b }

/-- Key of an accumulator line's product count. -/
def lineKey (cell byte : Nat) : Nat := cellKey cell byte / 128

/-- Bytes written by any other unit (R154): the counts of the lines touched return to 2¹⁷, which an absent key stands for. -/
def Core.cellWrite (c : Core) (cell byte : Nat) (b : List Byte) : Core :=
  let lo := lineKey cell byte
  let hi := lineKey cell (byte + b.length - 1)
  { c.cellPut cell byte b with lineCnt := c.lineCnt.filter (fun e => ¬ (lo ≤ e.1 ∧ e.1 ≤ hi)) }

/-- The code of element `idx` of an operand that begins at a byte (R116, R145). -/
def Core.code (c : Core) (cell base fmt idx : Nat) : Nat :=
  let bo := idx * fmtBits fmt
  (ofLe (c.cellRead cell (base + bo / 8) (cdiv (bo % 8 + fmtBits fmt) 8)) / 2 ^ (bo % 8)) % 2 ^ fmtBits fmt

/-- Element index of (r, k) in a block of CT column tiles (R145). -/
def elemIx (ct r k : Nat) : Nat := 1024 * (r / 32 * ct + k / 32) + 32 * (r % 32) + k % 32

/-- A block of elements in a cell: where it begins, its format, its extent, and where its scales begin. -/
structure Block where
  cell : Nat
  base : Nat
  fmt : Nat
  rows : Nat
  ct : Nat
  scales : Nat
  deriving DecidableEq, Repr

/-- A block whose scales stand after its data (R92). -/
def Block.at (cell base fmt rows ct : Nat) : Block :=
  { cell := cell, base := base, fmt := fmt, rows := rows, ct := ct, scales := base + cdiv (blockBytes fmt rows ct) 256 * 256 }

/-- The grain-scale code over element (r, k) of a block; 127 in a format without scales. -/
def Core.scaleCode (c : Core) (b : Block) (r k : Nat) : Nat :=
  if grainScaled b.fmt then ofLe (c.cellRead b.cell (b.scales + elemIx b.ct r k / 32) 1) else 127

/-- The code and the value of element (r, k) of a block. -/
def Core.codeAt (c : Core) (b : Block) (r k : Nat) : Nat := c.code b.cell b.base b.fmt (elemIx b.ct r k)
def Core.valueAt (c : Core) (b : Block) (r k : Nat) : Num := readElem b.fmt (c.scaleCode b r k) (c.codeAt b r k)

/-- A value as a binary32 code: exact for every format of a cell, but for a scaled value beyond binary32 (R123). -/
def toF32 (v : Num) : Nat := (f32.write .ne false v).code

/-- The bytes of 32 elements of a line. -/
def lineBytes (fmt : Nat) (codes : List Nat) : List Byte :=
  leBytes ((List.range 32).map (fun i => codes.getD i 0 % 2 ^ fmtBits fmt * 2 ^ (fmtBits fmt * i))).sum (4 * fmtBits fmt)

/-- Byte of a line of a block: row r, column tile b. -/
def Block.lineAt (b : Block) (r t : Nat) : Nat := b.base + elemIx b.ct r (32 * t) * fmtBits b.fmt / 8

/-- A block's lines written by the vector unit, element by element from a function of row and column. -/
def Core.writeBlock (c : Core) (b : Block) (f : Nat → Nat → Nat) : Core :=
  (List.range b.rows).foldl (fun c r => (List.range b.ct).foldl (fun c t =>
    c.cellWrite b.cell (b.lineAt r t) (lineBytes b.fmt ((List.range 32).map (fun i => f r (32 * t + i))))) c) c

/-! ## Handshake holds and overlap -/

/-- Whether a reader of a later record waits on an open fill window over `n` granules from `g` (R177). -/
def Core.readHeld (c : Core) (cell inst g n : Nat) : Bool :=
  c.wins.any (fun w => w.cell = cell && w.fill && w.inst < inst && overlaps (w.lo + w.done) (w.hi - (w.lo + w.done)) g n)

/-- Whether a writer of a later record waits on an open drain window. -/
def Core.writeHeld (c : Core) (cell inst g n : Nat) : Bool :=
  c.wins.any (fun w => w.cell = cell && !w.fill && w.inst < inst && overlaps (w.lo + w.done) (w.hi - (w.lo + w.done)) g n)

/-- A stretch of a cell by byte and length, in whole granules. -/
structure Stretch where
  byte : Nat
  len : Nat
  deriving DecidableEq, Repr

def Stretch.gran (s : Stretch) : Nat := s.byte / 256
def Stretch.count (s : Stretch) : Nat := cdiv s.len 256

/-- Whether two stretches share a granule. -/
def Stretch.meets (a b : Stretch) : Bool := overlaps a.gran a.count b.gran b.count

/-- Whether any read of an action is held, or any write. -/
def Core.held (c : Core) (cell inst : Nat) (reads writes : List Stretch) : Bool :=
  reads.any (fun s => c.readHeld cell inst s.gran s.count) || writes.any (fun s => c.writeHeld cell inst s.gran s.count)

/-- The pointer of a unit for an action: its byte where the operand lies in its store, else the fault reason of R88 or R89. -/
def Core.locateOp (c : Core) (u : UnitId) (a : ActionInst) (apn len : Nat) (st : Store) : Except (Nat × Nat) Nat :=
  match (c.ap u apn).granule a with
  | none => .error (1, apn)
  | some g => if inStore g len st then .ok (256 * g) else .error (2, g)

end Sys2Proof.Machine
end

