-- ==== Sys2Proof/Machine/Product.lean ====
section
/-!
DEFINITION. PRODUCT on the F and B engines: group sums, tile passes, long sums, destinations, masks, strict mode (R93 to
R97, R123, R126 to R129, R147 to R158).
-/
namespace Sys2Proof.Machine
open Sys2Proof

/-! ## Sums -/

/-- A binary32 sum being formed: its code, whether an infinity in it came from a scale overflow, what it reports. -/
structure Part where
  val : Nat
  fromScale : Bool
  rep : Report
  deriving DecidableEq, Repr

/-- Where an element stands and how its products are read: row and column of C, formats, the class its scales count in. -/
structure Spot where
  row : Nat
  col : Nat
  fa : Nat
  fb : Nat
  cls : Nat
  deriving DecidableEq, Repr

/-- An event at a spot. -/
def Spot.ev (s : Spot) (cause kpos opa opb : Nat) : NanEv :=
  { cause := cause, row := s.row, col := s.col, kpos := kpos, opa := opa, opb := opb }

/-- Whether a value is a NaN, or an infinity. -/
def Num.isNan : Num → Bool
  | .nan _ _ => true
  | _ => false
def Num.isInf : Num → Bool
  | .inf _ => true
  | _ => false
def Num.isZero : Num → Bool
  | .fin d => d.m = 0
  | _ => false

/-- Whether a pair is exactly zero and infinity (R135). -/
def zeroInf (x y : Num) : Bool := (x.isZero && y.isInf) || (x.isInf && y.isZero)

/-- Sign of a value. -/
def Num.sign : Num → Bool
  | .nan n _ => n
  | .inf n => n
  | .fin d => d.neg

/-- The exact product of two values that are no NaN and no zero-infinity pair. -/
def Num.mulX (x y : Num) : Num :=
  match x, y with
  | .fin a, .fin b => .fin (a.mul b)
  | _, _ => .inf (x.sign != y.sign)

/-- The exact sum of finite terms: a zero sum is +0, as R206 asks of a row of P that is +0 throughout. -/
def exactSum (l : List Dy) : Dy := l.foldl (fun a b => a.add b false) { neg := false, m := 0, e := 0 }

/-- One group of 32 products (R127, R129, R135): `ps` gives reduction index, code of A, code of B. -/
def groupSum (s : Spot) (ea eb : Nat) (ps : List (Nat × Nat × Nat)) : Part :=
  let scaled := grainScaled s.fa && grainScaled s.fb
  let vs := ps.map (fun p => (p, readElem s.fa 127 p.2.1, readElem s.fb 127 p.2.2))
  let nan : Nat := f32.nanCode
  if scaled ∧ (ea = 255 ∨ eb = 255) then { val := nan, fromScale := false, rep := Report.none.event (s.ev 3 0 0 0) }
  else
    let zi := vs.filter (fun v => zeroInf v.2.1 v.2.2)
    let rep := zi.foldl (fun r v => r.event (s.ev 1 v.1.1 v.1.2.1 v.1.2.2)) Report.none
    match vs.find? (fun v => v.2.1.isNan || v.2.2.isNan) with
    | some v =>
      let q := if v.2.1.isNan then v.2.1 else v.2.2
      { val := toF32 q, fromScale := false, rep := rep.event (s.ev 3 0 0 0) }
    | none =>
      if !zi.isEmpty then { val := nan, fromScale := false, rep := rep }
      else
        let xs := vs.map (fun v => v.2.1.mulX v.2.2)
        let infs := xs.filter Num.isInf
        if infs.any Num.sign && infs.any (fun x => !x.sign) then
          { val := nan, fromScale := false, rep := rep.event (s.ev 2 0 0 0) }
        else match infs with
          | x :: _ => { val := f32.infCode x.sign, fromScale := false, rep := rep }
          | [] =>
            let d := exactSum (xs.filterMap (fun x => match x with | .fin d => some d | _ => none))
            let cs : Int := if scaled then (ea : Int) - 127 + ((eb : Int) - 127) else 0
            let k := f32.round .ne false { d with e := d.e + cs }
            { val := k.code, fromScale := scaled && k.excess,
              rep := (rep.add (0x4F0 + 8 * s.cls) (b2n (scaled && k.excess))).add (0x518 + 8 * s.cls) (b2n (scaled && k.vanish)) }

/-- One binary32 addition of two parts, rounded by `r`: infinity minus infinity is cause 0x2, or 0x6 where one infinity came
from a scale overflow (R136). -/
def Part.add (s : Spot) (r : Rnd) (a b : Part) : Part :=
  let x := f32.addR r a.val b.val
  let rep := a.rep.join b.rep
  { val := x.1, fromScale := (a.fromScale || b.fromScale) && (f32.decode x.1).isInf,
    rep := (match x.2 with | some _ => rep.event (s.ev (if a.fromScale || b.fromScale then 6 else 2) 0 0 0) | none => rep) }

/-- The parts of a list added in order. -/
def sumParts (s : Spot) : List Part → Part
  | [] => { val := 0, fromScale := false, rep := Report.none }
  | p :: r => r.foldl (fun a b => a.add s .ne b) p

/-- A PRODUCT's tile passes added into an element (R128): the element so far (none before a SET), its product count, the
passes with their products, and the draw for each stochastic addition. -/
def longSum (s : Spot) (thr : Nat) (strict : Bool) (draw : Nat) : Option Part → Nat → List (Nat × Part) → Part × Nat
  | acc, n, [] => (acc.getD { val := 0, fromScale := false, rep := Report.none }, n)
  | none, _, (k, p) :: r => longSum s thr strict (draw + 1) (some p) (min k (2 ^ 17)) r
  | some a, n, (k, p) :: r =>
    let n1 := min (n + k) (2 ^ 17)
    let rnd := if strict ∨ n1 ≤ thr then Rnd.ne else Rnd.st (Config.rand draw)
    longSum s thr strict (draw + 1) (some (a.add s rnd p)) n1 r

/-! ## One element of C -/

/-- A PRODUCT with its operands located: the blocks as stored and how they are read. -/
structure Prod where
  w : Nat
  a : Block
  b : Block
  c : Block
  mask : Nat
  strict : Bool
  thr : Nat
  adds : Bool
  wide : Bool
  cls : Nat
  base : Nat
  deriving DecidableEq, Repr

/-- Element (r, k) of A, and element (k, q) of B as it multiplies: code and scale code (R147). -/
def Prod.aAt (p : Prod) (c : Core) (r k : Nat) : Nat × Nat :=
  if pTA p.w then (c.codeAt p.a k r, 127) else (c.codeAt p.a r k, c.scaleCode p.a r k)
def Prod.bAt (p : Prod) (c : Core) (k q : Nat) : Nat × Nat :=
  if pTB p.w then (c.codeAt p.b k q, 127) else (c.codeAt p.b q k, c.scaleCode p.b q k)

/-- The group g of 32 products of element (r, q). -/
def Prod.group (p : Prod) (c : Core) (s : Spot) (g : Nat) : Part :=
  groupSum s (p.aAt c s.row (32 * g)).2 (p.bAt c (32 * g) s.col).2
    ((List.range 32).map (fun i => (32 * g + i, (p.aAt c s.row (32 * g + i)).1, (p.bAt c (32 * g + i) s.col).1)))

/-- The products of a fast-mode PRODUCT in tile passes (R127). -/
def Prod.passes (p : Prod) (c : Core) (s : Spot) : List (Nat × Part) :=
  let per := min 4096 p.thr / 32
  (List.range (cdiv (pKT p.w) per)).map (fun j =>
    let n := min per (pKT p.w - per * j)
    (32 * n, sumParts s ((List.range n).map (fun i => p.group c s (per * j + i)))))

/-- An element converted exactly to binary32 for strict mode (R123): a magnitude below the smallest subnormal is a zero. -/
def strictElem (fmt scale code : Nat) : Nat × Bool × Bool :=
  match readElem fmt scale code with
  | .fin d =>
    if d.m = 0 then (f32.withSign d.neg 0, false, false)
    else if d.flog < -149 then (f32.withSign d.neg 0, false, true)
    else let k := f32.round .ne false d; (k.code, k.excess, false)
  | v => (toF32 v, false, false)

/-- The strict-mode sum of an element (R123): exact products added one by one in ascending order to +0 (R206). An infinity that a conversion's
scale overflow made marks the sum, for cause 0x6 (R136). -/
def Prod.strictSum (p : Prod) (c : Core) (s : Spot) : Part :=
  (List.range (32 * pKT p.w)).foldl (fun acc k =>
    let ra := p.aAt c s.row k
    let rb := p.bAt c k s.col
    let x := strictElem s.fa ra.2 ra.1
    let y := strictElem s.fb rb.2 rb.1
    let marked := x.2.1 || y.2.1
    let vx := f32.decode x.1
    let vy := f32.decode y.1
    if vx.isNan ∨ vy.isNan then
      { acc with val := if f32.isNan acc.val then acc.val else toF32 (if vx.isNan then vx else vy),
                 rep := acc.rep.event (s.ev 3 0 0 0) }
    else if zeroInf vx vy then
      { acc with val := if f32.isNan acc.val then acc.val else f32.nanCode, rep := acc.rep.event (s.ev 1 k ra.1 rb.1) }
    else
      match f32.decode acc.val, vx.mulX vy with
      | .fin d, .fin e => { acc with val := (f32.round .ne false (d.add e (d.neg && e.neg && d.m = 0 && e.m = 0))).code }
      | .nan _ _, _ => acc
      | .inf n, .inf n' =>
        if n = n' then { acc with fromScale := acc.fromScale || marked }
        else { acc with val := f32.nanCode, rep := acc.rep.event (s.ev (if acc.fromScale || marked then 6 else 2) 0 0 0) }
      | .inf _, _ => acc
      | _, .inf n => { acc with val := f32.infCode n, fromScale := marked }
      | _, .nan _ _ => acc) { val := 0, fromScale := false, rep := Report.none }

/-- Scale overflows and vanishes of strict mode's conversions, once per element of A and of B that the given tiles read (R123,
R158). -/
def Prod.strictCensus (p : Prod) (c : Core) (tiles : List (Nat × Nat)) : Report :=
  let one (fmt : Nat) (e : Nat × Nat) (r : Report) : Report :=
    let x := strictElem fmt e.2 e.1
    (r.add (0x4F0 + 8 * p.cls) (b2n x.2.1)).add (0x518 + 8 * p.cls) (b2n x.2.2)
  let each (idx : List Nat) (fmt : Nat) (el : Nat → Nat → Nat × Nat) (r : Report) : Report :=
    (idx.flatMap (fun t => (List.range 32).map (fun i => 32 * t + i))).foldl (fun r i =>
      (List.range (32 * pKT p.w)).foldl (fun r k => one fmt (el i k) r) r) r
  each (tiles.map Prod.snd).eraseDups p.b.fmt (fun q k => p.bAt c k q)
    (each (tiles.map Prod.fst).eraseDups p.a.fmt (fun r k => p.aAt c r k) Report.none)

/-- The result of one element of C: its code in C's format, the line's new product count, the report (R94, R126, R155). -/
def Prod.element (p : Prod) (c : Core) (s : Spot) (lineCount : Nat) : Nat × Nat × Report :=
  let np := cdiv (pKT p.w) (min 4096 p.thr / 32)
  let draw := p.base + (1024 * (s.row / 32 * pNT p.w + s.col / 32) + 32 * (s.row % 32) + s.col % 32) * (np + 1)
  let passes := if p.strict then [(32 * pKT p.w, p.strictSum c s)] else p.passes c s
  let old := c.codeAt p.c s.row s.col
  if p.wide then
    let start : Option Part := if p.adds then
        some { val := old, fromScale := false, rep := if f32.isNan old then Report.none.event (s.ev 3 0 0 0) else Report.none }
      else none
    let r := longSum s p.thr p.strict draw start lineCount passes
    (r.1.val, r.2, r.1.rep)
  else
    let reg := (longSum s p.thr p.strict draw none 0 passes).1
    let st := Rnd.st (Config.rand (draw + np))
    if p.adds then
      let o : Part := { val := loamTo32 old, fromScale := false,
                        rep := if fLoam.isNan old then Report.none.event (s.ev 3 0 0 0) else Report.none }
      let sum := o.add s .ne reg
      let k := match p.strict, f32.decode o.val, f32.decode reg.val with
        | false, .fin x, .fin y => fLoam.round st true (x.add y (x.neg && y.neg && x.m = 0 && y.m = 0))
        | _, _, _ => fLoam.write st (!p.strict) (f32.decode sum.val)
      (k.code, 0, sum.rep.conv 0 1 p.cls k)
    else
      let k := fLoam.write .ne (!p.strict) (f32.decode reg.val)
      (k.code, 0, reg.rep.conv 0 1 p.cls k)

/-! ## The action -/

/-- Bit of a bitmap in a cell. -/
def Core.maskBit (c : Core) (cell base i : Nat) : Bool := bit (ofLe (c.cellRead cell (base + i / 8) 1)) (i % 8)

/-- Whether row r of the tile in tile column tb is trained (R157). -/
def Prod.trained (p : Prod) (c : Core) (r tb : Nat) : Bool :=
  match pMASK p.w with
  | 1 => c.maskBit p.c.cell p.mask r
  | 2 => c.maskBit p.c.cell p.mask (r / 128 * cdiv (pNT p.w) 4 + tb / 4)
  | _ => true

/-- The tiles of C with a trained row, in tile order: those that the engine computes (R150, R158). -/
def Prod.tiles (p : Prod) (c : Core) : List (Nat × Nat) :=
  (List.range (pMT p.w)).flatMap (fun ta => ((List.range (pNT p.w)).filter (fun tb =>
    (List.range 32).any (fun i => p.trained c (32 * ta + i) tb))).map (fun tb => (ta, tb)))

/-- One line of C: computed from the operands as they stood before the action, and written. -/
def Prod.line (p : Prod) (c0 : Core) (acc : Core × Report) (r tb : Nat) : Core × Report :=
  if p.trained c0 r tb then
    let at_ := p.c.lineAt r tb
    let key := lineKey p.c.cell at_
    let es := (List.range 32).map (fun i => p.element c0 { row := r, col := 32 * tb + i, fa := p.a.fmt, fb := p.b.fmt, cls := p.cls }
      (kgetD c0.lineCnt key (2 ^ 17)))
    let c1 := acc.1.cellPut p.c.cell at_ (lineBytes p.c.fmt (es.map (fun e => e.1)))
    let c2 := if p.wide then { c1 with lineCnt := kset c1.lineCnt key ((es.head?.map (fun e => e.2.1)).getD 0) } else c1
    (c2, es.foldl (fun r e => r.join e.2.2) acc.2)
  else acc

/-- One tile of C: its 32 lines. -/
def Prod.tile (p : Prod) (c0 : Core) (acc : Core × Report) (t : Nat × Nat) : Core × Report :=
  (List.range 32).foldl (fun acc i => p.line c0 acc (32 * t.1 + i) t.2) acc

/-- The detector of the store that a byte lies in (R457). -/
def storeDet (byte : Nat) : Nat := if byte < 0x300000 then 1 else 2

/-- SECDED codewords of a stretch: one per 8 bytes. -/
def Stretch.words (s : Stretch) : Nat := cdiv s.len 8

/-- Whether a stretch holds a granule. -/
def Stretch.has (s : Stretch) (g : Nat) : Bool := s.gran ≤ g && g < s.gran + s.count

/-- The stretches of tile (i, j) of a block: its elements, and its scales (R92, R145). -/
def Block.tileAt (b : Block) (i j : Nat) : List Stretch :=
  { byte := b.base + (i * b.ct + j) * tileBytes b.fmt, len := tileBytes b.fmt } ::
    (if grainScaled b.fmt then [{ byte := b.scales + 32 * (i * b.ct + j), len := 32 }] else [])

/-- What the computation of a tile of C reads: its operands' tiles, and the tile itself where the PRODUCT adds to it. -/
def Prod.tileReads (p : Prod) (t : Nat × Nat) : List Stretch :=
  (List.range (pKT p.w)).flatMap (fun k =>
    (if pTA p.w then p.a.tileAt k t.1 else p.a.tileAt t.1 k) ++ (if pTB p.w then p.b.tileAt k t.2 else p.b.tileAt t.2 k)) ++
  (if p.adds then p.c.tileAt t.1 t.2 else [])

/-- Whether a detection of a cell falls on a tile, by the granule that it names (R461): the residue check on the tile written, a
store's check on one that the tile reads. -/
def Prod.struck (p : Prod) (t : Nat × Nat) (x : Upset) : Bool :=
  (if x.det = 3 then p.c.tileAt t.1 t.2 else p.tileReads t).any (fun s => s.has (x.wher % 2 ^ 14))

/-- The tiles in the order computed, each with the tiles whose operands are read before it: the B engine runs them in pairs (R150). -/
def tilePairs (both : Bool) : List (Nat × Nat) → List (List (Nat × Nat) × (Nat × Nat))
  | t :: s :: r => if both then ([t, s], t) :: ([], s) :: tilePairs both r else ([t], t) :: tilePairs both (s :: r)
  | [t] => [([t], t)]
  | [] => []

/-- The end of a PRODUCT of which the given tiles are written: its draws taken and its report made. -/
def Core.productEnd (c : Core) (u : UnitId) (a : ActionInst) (p : Prod) (c0 : Core) (rep : Report) (done : List (Nat × Nat)) : Core :=
  let np := cdiv (pKT p.w) (min 4096 p.thr / 32)
  { c with freeCtr := c.freeCtr + 1024 * pMT p.w * pNT p.w * (np + 1) }.report u a
    (if p.strict then (p.strictCensus c0 done).join rep else rep)

/-- A PRODUCT's effect tile by tile (R150): each tile's operands are checked, its sums formed, its residue checked where it stands in
the accumulator store, and its trained lines written (R464). An error ends the action; the tiles before it stay written (R90). -/
def Core.formTiles (u : UnitId) (a : ActionInst) (p : Prod) (c0 : Core) (ups : List Upset) :
    Core → Report → List (Nat × Nat) → List (List (Nat × Nat) × (Nat × Nat)) → Core
  | c, rep, done, [] => (c.productEnd u a p c0 rep done).actDone u
  | c, rep, done, g :: rest =>
    let upsOf := ups.filter (fun x => if x.det = 3 then p.struck g.2 x else g.1.any (fun t => p.struck t x))
    let dets := (g.1.flatMap p.tileReads).map (fun s => (storeDet s.byte, s.words)) ++ (if p.wide then [(3, 1)] else [])
    match c.checks u upsOf dets with
    | (_, true) => ((c.productEnd u a p c0 rep done).checks u upsOf dets).1
    | (c1, false) =>
      let w := p.tile c0 (c1, rep) g.2
      Core.formTiles u a p c0 ups w.1 w.2 (done ++ [g.2]) rest

/-- Operands located in turn; the first that fails is the fault. -/
def locate3 (x y z : Except (Nat × Nat) Nat) : Except (Nat × Nat) (Nat × Nat × Nat) :=
  match x, y, z with
  | .error e, _, _ => .error e
  | _, .error e, _ => .error e
  | _, _, .error e => .error e
  | .ok a, .ok b, .ok c => .ok (a, b, c)

/-- A PRODUCT whose operands are located: what it reads, the stretch of C, whether C meets an operand, the detectors of its accesses
that it makes before its first tile with their checks, and the product itself for the first of its draws. -/
structure ProdJob where
  reads : List Stretch
  dst : Stretch
  clash : Bool
  dets : List (Nat × Nat)
  go : Nat → Prod

/-- The operands of a PRODUCT word located in turn (R89, R93, R94). -/
def Core.prepProduct (c : Core) (cell : Nat) (u : UnitId) (a : ActionInst) : Except (Nat × Nat) ProdJob :=
  let w := a.bits
  let x := (c.ctx? a.ctx).getD (Ctx.fresh false)
  let acc := pACC w
  let wide := decide (acc = 0 ∨ acc = 1 ∨ acc = 4)
  let adds := decide (acc = 1 ∨ acc = 3 ∨ (4 ≤ acc ∧ loopIndex a (c.ap u (pAPC w)).lsel ≠ 0))
  let cf := if wide then 0 else 1
  let aRows := if pTA w then 32 * pKT w else 32 * pMT w
  let aCt := if pTA w then pMT w else pKT w
  let bRows := if pTB w then 32 * pKT w else 32 * pNT w
  let bCt := if pTB w then pNT w else pKT w
  let mLen := match pMASK w with | 1 => 4 * pMT w | 2 => cdiv (cdiv (pMT w) 4 * cdiv (pNT w) 4) 8 | _ => 0
  let mAt := if pMASK w = 0 then .ok 0 else c.locateOp u a (pAPM w) mLen .operand
  match locate3 (c.locateOp u a (pAPA w) (operandBytes (pFMTA w) aRows aCt) .either)
      (c.locateOp u a (pAPB w) (operandBytes (pFMTB w) bRows bCt) .either)
      (c.locateOp u a (pAPC w) (blockBytes cf (32 * pMT w) (pNT w)) (if wide then .accum else .operand)), mAt with
  | .error e, _ => .error e
  | _, .error e => .error e
  | .ok (pa, pb, pc), .ok pm =>
    let sa : Stretch := { byte := pa, len := operandBytes (pFMTA w) aRows aCt }
    let sb : Stretch := { byte := pb, len := operandBytes (pFMTB w) bRows bCt }
    let sc : Stretch := { byte := pc, len := blockBytes cf (32 * pMT w) (pNT w) }
    let sm : Stretch := { byte := pm, len := mLen }
    let go (base : Nat) : Prod :=
      { w := w, a := Block.at cell pa (pFMTA w) aRows aCt, b := Block.at cell pb (pFMTB w) bRows bCt,
        c := Block.at cell pc cf (32 * pMT w) (pNT w), mask := pm, strict := x.strict, thr := 2 ^ x.lsum, adds := adds,
        wide := wide, cls := if pGCLASS w ≤ 1 then 1 else 2, base := base }
    -- with no trained element only the bitmap is read, and nothing is written (R158)
    let none_ := pMASK w ≠ 0 && ((go 0).tiles c).isEmpty
    let bitmap := if pMASK w = 0 then [] else [sm]
    .ok { reads := bitmap ++ (if none_ then [] else [sa, sb] ++ (if adds then [sc] else [])),
          dst := if none_ then { sc with len := 0 } else sc,
          clash := sc.meets sa || sc.meets sb || (pMASK w ≠ 0 && sc.meets sm),
          dets := bitmap.map (fun s => (storeDet s.byte, s.words)), go := go }

/-- A running PRODUCT of the F engine (0x12) or the B engine (0x22): operand faults, holds, overlap, hardware checks, the effect. -/
def Core.product (c : Core) (cell : Nat) (k : CellUnit) (op : Nat) (ups : List Upset) : Core :=
  let u := UnitId.cell cell k
  match c.active u op with
  | none => c
  | some r =>
    match c.prepProduct cell u r.a with
    | .error e => c.actionFault u e.1 e.2
    | .ok j =>
      if c.held cell r.a.inst j.reads [j.dst] then c
      else if j.clash then c.actionFault u 3 (j.dst.byte / 256)
      else
        let p := j.go c.freeCtr
        let ts := p.tiles c
        -- a detection that falls on no tile meets the bitmap's read, before any tile
        let first := ups.filter (fun x => x.corrected || !ts.any (fun t => p.struck t x))
        match c.checks u first j.dets with
        | (c1, true) => c1
        | (c1, false) => Core.formTiles u r.a p c1 (ups.filter (fun x => !x.corrected)) c1 Report.none [] (tilePairs (k = .b) ts)

/-- F_PRODUCT. -/
def execFProduct (cell : Nat) (ups : List Upset) (s : State) : Host.Outcome State Fault Refusal :=
  s.guard (cell < 576) (fun d => d.c.product cell .f 0x12 ups)

/-- B_PRODUCT. -/
def execBProduct (cell : Nat) (ups : List Upset) (s : State) : Host.Outcome State Fault Refusal :=
  s.guard (cell < 576) (fun d => d.c.product cell .b 0x22 ups)

end Sys2Proof.Machine
end

