-- ==== Sys2Proof/Machine/Vector.lean ====
section
/-!
DEFINITION. The vector unit: conversion, survey, element-wise functions, row reductions, softmax, flag writes (R98 to R100,
R118 to R121, R153, R159 to R161, R197 to R207).
-/
namespace Sys2Proof.Machine
open Sys2Proof

/-! ## Running a vector action -/

/-- A vector action whose operands are located: what it reads and writes, whether they clash, and its effect with report. -/
structure VecJob where
  reads : List Stretch
  writes : List Stretch
  clash : Bool
  go : Core → Core × Report

/-- A running vector action: operand faults, holds, overlap, hardware checks, then the effect (R88 to R90, R153, R177). -/
def Core.vector (c : Core) (cell op : Nat) (ups : List Upset) (prep : Core → UnitId → ActionInst → Except (Nat × Nat) VecJob) : Core :=
  let u := UnitId.cell cell .v
  match c.active u op with
  | none => c
  | some r =>
    match prep c u r.a with
    | .error e => c.actionFault u e.1 e.2
    | .ok j =>
      if c.held cell r.a.inst j.reads j.writes then c
      else if j.clash then c.actionFault u 3 ((j.writes.head?.map Stretch.gran).getD 0)
      else match c.checks u ups (j.reads.map (fun s => (storeDet s.byte, s.words))) with
        | (c1, true) => c1
        | (c1, false) =>
          let e := j.go c1
          (e.1.report u r.a e.2).actDone u

/-- Z may coincide with an operand exactly, same granule and format; any other meeting clashes (R153). -/
def clashes (z : Stretch) (zf : Nat) (l : List (Stretch × Nat)) : Bool :=
  l.any (fun e => z.meets e.1 && !(z.gran = e.1.gran && zf = e.2))

/-- The rounding of a vector write (R98, R126), by its draw. -/
def vecRnd (w draw : Nat) : Rnd := if vRND w = 2 then .st (Config.rand draw) else .ne

/-- A count of a vector write narrower than binary32 (R98, R121). -/
def vecCount (r : Report) (w fmt : Nat) (k : Conv) : Report := r.conv 0 fmt (vTCLASS w) k

/-- Whether a context runs in strict mode. -/
def Core.strictCtx (c : Core) (n : Nat) : Bool := match c.ctx? n with | some x => x.strict | none => false

/-- An element of Z: its code, and the report with the events of the write (cause 0x7, R119). -/
def Core.zElem (c : Core) (w fmt scale ctx draw row col : Nat) (v : Num) (r : Report) : Nat × Report :=
  let k := writeElem fmt scale (vecRnd w draw) (!(c.strictCtx ctx)) v
  let r1 := vecCount r w fmt k.1
  (k.1.code, match k.2 with | some cause => r1.event { cause := cause, row := row, col := col, kpos := 0, opa := 0, opb := 0 } | none => r1)

/-- What the survey of a grain forms beside its scale (R119, R133): the NaN input, else one event of cause 0x7 where an infinity gives
the grain the scale 0xFF. The conversion that follows forms no second one. -/
def surveyEvent (scale row col : Nat) (vs : List Num) : Report :=
  if vs.any Num.isNan then Report.none.event { cause := 3, row := row, col := col, kpos := 0, opa := 0, opb := 0 }
  else if scale = 255 && vs.any Num.isInf then Report.none.event { cause := 7, row := row, col := col, kpos := 0, opa := 0, opb := 0 }
  else Report.none

/-- Every line of Z written from the values that `f` gives, with what computing them reports. -/
def Core.writeZ (c : Core) (w ctx : Nat) (z : Block) (f : Nat → Nat → Num × Report) : Core × Report :=
  let base := c.freeCtr
  let res := (List.range z.rows).foldl (fun acc r => (List.range z.ct).foldl (fun (acc : Core × Report) t =>
    let xs := (List.range 32).map (fun i => f r (32 * t + i))
    let es := (List.range 32).map (fun i =>
      let x := xs.getD i (.nan false 0, Report.none)
      c.zElem w z.fmt (c.scaleCode z r (32 * t + i)) ctx (base + r * 32 * z.ct + 32 * t + i) r (32 * t + i) x.1 x.2)
    (acc.1.cellWrite z.cell (z.lineAt r t) (lineBytes z.fmt (es.map Prod.fst)),
     es.foldl (fun rep e => rep.join e.2) acc.2)) acc)
    (c, Report.none)
  ({ res.1 with freeCtr := base + 32 * z.rows * z.ct }, res.2)

/-- A NaN input at an element of the result. -/
def nanIn (row col : Nat) : NanEv := { cause := 3, row := row, col := col, kpos := 0, opa := 0, opb := 0 }

/-- A binary32 code as a value, with the event of an operation that made it. -/
def f32Num (code : Nat) (row col : Nat) (cause : Option Nat) (opa opb : Nat) (r : Report) : Num × Report :=
  (f32.decode code, match cause with
    | some k => r.event { cause := k, row := row, col := col, kpos := 0, opa := if k = 1 then opa else 0, opb := if k = 1 then opb else 0 }
    | none => r)

/-! ## CONVERT and SURVEY -/

/-- CONVERT: Z takes the grain scales at APY, which are read and never written. -/
def prepConvert (c : Core) (u : UnitId) (a : ActionInst) : Except (Nat × Nat) VecJob :=
  let w := a.bits
  let cell := match u with | .cell n _ => n | _ => 0
  let rows := vROWS w
  let ct := vCOLT w
  let scaled := grainScaled (vFMTZ w)
  match c.locateOp u a (vAPX w) (operandBytes (vFMTX w) rows ct) .either,
        (if scaled then c.locateOp u a (vAPY w) (scaleBytes rows ct) .either else .ok 0),
        c.locateOp u a (vAPZ w) (blockBytes (vFMTZ w) rows ct) .either with
  | .ok px, .ok py, .ok pz =>
    let sx : Stretch := { byte := px, len := operandBytes (vFMTX w) rows ct }
    let sy : Stretch := { byte := py, len := if scaled then scaleBytes rows ct else 0 }
    let sz : Stretch := { byte := pz, len := blockBytes (vFMTZ w) rows ct }
    let x := Block.at cell px (vFMTX w) rows ct
    let z : Block := { cell := cell, base := pz, fmt := vFMTZ w, rows := rows, ct := ct, scales := py }
    .ok { reads := if scaled then [sx, sy] else [sx], writes := [sz],
          clash := clashes sz (vFMTZ w) [(sx, vFMTX w)] || (scaled && sz.meets sy),
          go := fun c => c.writeZ w a.ctx z (fun r k =>
            let v := c.valueAt x r k
            (v, if v.isNan then Report.none.event (nanIn r k) else Report.none)) }
  | .error e, _, _ => .error e
  | _, .error e, _ => .error e
  | _, _, .error e => .error e

/-- CONVERT. -/
def execConvert (cell : Nat) (ups : List Upset) (s : State) : Host.Outcome State Fault Refusal :=
  s.guard (cell < 576) (fun d => d.c.vector cell 0x32 ups prepConvert)

/-- SURVEY: one scale byte per grain of X, in grain order. -/
def prepSurvey (c : Core) (u : UnitId) (a : ActionInst) : Except (Nat × Nat) VecJob :=
  let w := a.bits
  let cell := match u with | .cell n _ => n | _ => 0
  let rows := vROWS w
  let ct := vCOLT w
  match c.locateOp u a (vAPX w) (operandBytes (vFMTX w) rows ct) .either, c.locateOp u a (vAPZ w) (scaleBytes rows ct) .either with
  | .ok px, .ok pz =>
    let sx : Stretch := { byte := px, len := operandBytes (vFMTX w) rows ct }
    let sz : Stretch := { byte := pz, len := scaleBytes rows ct }
    let x := Block.at cell px (vFMTX w) rows ct
    .ok { reads := [sx], writes := [sz], clash := sz.meets sx,
          go := fun c => (List.range rows).foldl (fun acc r => (List.range ct).foldl (fun (acc : Core × Report) t =>
            let vs := (List.range 32).map (fun i => c.valueAt x r (32 * t + i))
            let scale := surveyScale (vFMTZ w) vs
            (acc.1.cellWrite cell (pz + elemIx ct r (32 * t) / 32) (leBytes scale 1), acc.2.join (surveyEvent scale r t vs))) acc)
            (c, Report.none) }
  | .error e, _ => .error e
  | _, .error e => .error e

/-- SURVEY. -/
def execSurvey (cell : Nat) (ups : List Upset) (s : State) : Host.Outcome State Fault Refusal :=
  s.guard (cell < 576) (fun d => d.c.vector cell 0x33 ups prepSurvey)

/-! ## Element-wise functions (R99, R160, R161) -/

/-- UNARY on a binary32 code: the result and the cause of an event it forms. -/
def unaryFn (func imm x : Nat) : Nat × Option Nat :=
  let y := loamTo32 imm
  let bad := !f32.isNan x && f32.isNan (match func with | 4 => ln32 x | 6 => rsqrt32 x | _ => 0)
  match func with
  | 0 => (x, none)
  | 1 => (f32.neg x, none)
  | 2 => (x % 2 ^ 31, none)
  | 3 => (exp32 x, none)
  | 4 => (ln32 x, if bad then some 7 else none)
  | 5 => (recip32 x, none)
  | 6 => (rsqrt32 x, if bad then some 7 else none)
  | 7 => f32.mulC x y
  | _ => f32.addR .ne x y

/-- BINARY on binary32 codes. -/
def binaryFn (func x y : Nat) : Nat × Option Nat :=
  let nan := f32.isNan x || f32.isNan y
  match func with
  | 0 => f32.addR .ne x y
  | 1 => if nan then (f32.sub x y, none) else f32.addR .ne x (f32.neg y)
  | 2 => f32.mulC x y
  | 3 => (f32.max x y, none)
  | 4 => (f32.min x y, none)
  | 5 => (if !nan && f32.lt y x then one32 else 0, none)
  | _ => (if !nan && !(f32.lt x y) && !(f32.lt y x) then one32 else 0, none)

/-- UNARY (one source) and BINARY (two): operands, overlap, effect. A grain-scaled Z takes the scales after its data. -/
def prepElem (two : Bool) (c : Core) (u : UnitId) (a : ActionInst) : Except (Nat × Nat) VecJob :=
  let w := a.bits
  let cell := match u with | .cell n _ => n | _ => 0
  let rows := vROWS w
  let ct := vCOLT w
  let xl := operandBytes (vFMTX w) rows ct
  match c.locateOp u a (vAPX w) xl .either, (if two then c.locateOp u a (vAPY w) xl .either else .ok 0),
        c.locateOp u a (vAPZ w) (operandBytes (vFMTZ w) rows ct) .either with
  | .ok px, .ok py, .ok pz =>
    let sx : Stretch := { byte := px, len := xl }
    let sy : Stretch := { byte := py, len := if two then xl else 0 }
    let sz : Stretch := { byte := pz, len := operandBytes (vFMTZ w) rows ct }
    let x := Block.at cell px (vFMTX w) rows ct
    let y := Block.at cell py (vFMTX w) rows ct
    let z := Block.at cell pz (vFMTZ w) rows ct
    let ss : Stretch := { byte := z.scales, len := scaleBytes rows ct }
    .ok { reads := (if two then [sx, sy] else [sx]) ++ (if grainScaled (vFMTZ w) then [ss] else []), writes := [sz],
          clash := clashes sz (vFMTZ w) ((sx, vFMTX w) :: if two then [(sy, vFMTX w)] else []),
          go := fun c => c.writeZ w a.ctx z (fun r k =>
            let p := toF32 (c.valueAt x r k)
            let q := if two then toF32 (c.valueAt y r k) else loamTo32 (vIMM w)
            let rep := if f32.isNan p || (two && f32.isNan q) then Report.none.event (nanIn r k) else Report.none
            let e := if two then binaryFn (vFUNC w) p q else unaryFn (vFUNC w) (vIMM w) p
            f32Num e.1 r k e.2 (c.codeAt x r k) (if two then c.codeAt y r k else vIMM w) rep) }
  | .error e, _, _ => .error e
  | _, .error e, _ => .error e
  | _, _, .error e => .error e

/-- UNARY. -/
def execUnary (cell : Nat) (ups : List Upset) (s : State) : Host.Outcome State Fault Refusal :=
  s.guard (cell < 576) (fun d => d.c.vector cell 0x34 ups (prepElem false))

/-- BINARY. -/
def execBinary (cell : Nat) (ups : List Upset) (s : State) : Host.Outcome State Fault Refusal :=
  s.guard (cell < 576) (fun d => d.c.vector cell 0x35 ups (prepElem true))

/-! ## Row reductions (R161) -/

/-- The result of one row: columns in ascending order; cause 0x2 where a sum meets opposite infinities. -/
def rowReduce (func row : Nat) : List Nat → Nat × Report
  | [] => (0, Report.none)
  | x :: xs =>
    let prep (v : Nat) : Nat := if func = 2 then f32.mul v v else v
    xs.foldl (fun acc v =>
      if func = 1 then (f32.max acc.1 v, acc.2)
      else
        let s := f32.addR .ne acc.1 (prep v)
        (s.1, match s.2 with
          | some k => acc.2.event { cause := k, row := row, col := 0, kpos := 0, opa := 0, opb := 0 }
          | none => acc.2)) (prep x, Report.none)

/-- ROWREDUCE. -/
def prepRow (c : Core) (u : UnitId) (a : ActionInst) : Except (Nat × Nat) VecJob :=
  let w := a.bits
  let cell := match u with | .cell n _ => n | _ => 0
  let rows := vROWS w
  let ct := vCOLT w
  match c.locateOp u a (vAPX w) (operandBytes (vFMTX w) rows ct) .either, c.locateOp u a (vAPZ w) (4 * rows) .either with
  | .ok px, .ok pz =>
    let sx : Stretch := { byte := px, len := operandBytes (vFMTX w) rows ct }
    let sz : Stretch := { byte := pz, len := 4 * rows }
    let x := Block.at cell px (vFMTX w) rows ct
    .ok { reads := [sx], writes := [sz], clash := clashes sz 0 [(sx, vFMTX w)],
          go := fun c => (List.range rows).foldl (fun acc r =>
            let xs := (List.range (32 * ct)).map (fun k => toF32 (c.valueAt x r k))
            let e := rowReduce (vFUNC w) r xs
            (acc.1.cellWrite cell (pz + 4 * r) (leBytes e.1 4),
             (if xs.any f32.isNan then acc.2.event (nanIn r 0) else acc.2).join e.2)) (c, Report.none) }
  | .error e, _ => .error e
  | _, .error e => .error e

/-- ROWREDUCE. -/
def execRowreduce (cell : Nat) (ups : List Upset) (s : State) : Host.Outcome State Fault Refusal :=
  s.guard (cell < 576) (fun d => d.c.vector cell 0x36 ups prepRow)

/-! ## Softmax (R197 to R207) -/

/-- A softmax's operands: the score block, the row state, the tile map where a mask is used. -/
structure Soft where
  cell : Nat
  x : Block
  state : Nat
  map : Option Nat
  rows : Nat
  ct : Nat
  deriving DecidableEq, Repr

/-- Bytes of one array of the row state in whole granules (R197), and of the tile map (R199). -/
def stateLen (rows : Nat) : Nat := cdiv (4 * rows) 256 * 256
def mapLen (rows ct : Nat) : Nat := cdiv (cdiv (2 * (cdiv rows 32 * ct)) 8) 256 * 256

/-- Code of tile n in the map (R199). -/
def Core.tileCode (c : Core) (cell map n : Nat) : Nat := bits (ofLe (c.cellRead cell (map + n / 4) 1)) (2 * (n % 4) + 1) (2 * (n % 4))

/-- Bitmap tiles of a block (R200): those coded 0b10 among the first n. -/
def Core.bitmapsBefore (c : Core) (cell map n : Nat) : Nat := ((List.range n).filter (fun i => c.tileCode cell map i = 2)).length

/-- Whether element (r, k) is admitted (R199 to R201). -/
def Soft.admitted (s : Soft) (c : Core) (r k : Nat) : Bool :=
  match s.map with
  | none => true
  | some m =>
    let n := r / 32 * s.ct + k / 32
    match c.tileCode s.cell m n with
    | 0 => false
    | 1 => true
    | 3 => k % 32 ≤ r % 32
    | _ =>
      let at_ := m + mapLen s.rows s.ct + 128 * c.bitmapsBefore s.cell m n
      bit (ofLe (c.cellRead s.cell (at_ + 4 * (r % 32) + k % 32 / 8) 1)) (k % 8)

/-- Word r of an array of the row state: 0 the first, 1 the second. -/
def Soft.word (s : Soft) (c : Core) (which r : Nat) : Nat := ofLe (c.cellRead s.cell (s.state + which * stateLen s.rows + 4 * r) 4)

/-- A score as binary32. -/
def Soft.score (s : Soft) (c : Core) (r k : Nat) : Nat := toF32 (c.valueAt s.x r k)

/-- The admitted columns of a row. -/
def Soft.cols (s : Soft) (c : Core) (r : Nat) : List Nat := (List.range (32 * s.ct)).filter (fun k => s.admitted c r k)

/-- Difference in binary32 with its event. -/
def subEv (x y row col : Nat) (r : Report) : Nat × Report :=
  let e := binaryFn 1 x y
  (e.1, match e.2 with | some k => r.event { cause := k, row := row, col := col, kpos := 0, opa := 0, opb := 0 } | none => r)

/-- The online update of one row (R202): the new maximum and log-sum-exp. -/
def Soft.online (s : Soft) (c : Core) (r : Nat) : Nat × Nat × Report :=
  let m := s.word c 0 r
  let l := s.word c 1 r
  let xs := (s.cols c r).map (s.score c r)
  let rep := if f32.isNan m || f32.isNan l || xs.any f32.isNan then Report.none.event (nanIn r 0) else Report.none
  let ys := xs.map (fun v => if v = 0xFF800000 then 0xFF7FFFFF else v)
  let b := ys.foldl f32.max 0xFF800000
  let mn := f32.max m b
  if mn = 0xFF800000 then (mn, l, rep)
  else
    let d0 := subEv l mn r 0 rep
    let t := xs.foldl (fun (acc : Option Nat × Report) v =>
      let d := subEv v mn r 0 acc.2
      (some (match acc.1 with | some y => f32.add y (exp32 d.1) | none => exp32 d.1), d.2)) (none, d0.2)
    (mn, f32.add mn (ln32 (match t.1 with | some y => f32.add (exp32 d0.1) y | none => exp32 d0.1)), t.2)

/-- The operands that the three functions share: the block, where Z begins, the stretches of X and Y with their formats, and the tile map
with its bitmap tiles. While a fill window still holds the map its bitmaps cannot be counted: the action waits on the map itself. -/
def Core.softOps (c : Core) (u : UnitId) (a : ActionInst) (zLen : Nat) :
    Except (Nat × Nat) (Soft × Nat × List (Stretch × Nat) × List Stretch) :=
  let w := a.bits
  let cell := match u with | .cell n _ => n | _ => 0
  let rows := vROWS w
  let ct := vCOLT w
  let masked := bit (vIMM w) 4
  let m0 := if masked then c.locateOp u a (vIMM w % 16) (mapLen rows ct) .operand else .ok 0
  match locate3 (c.locateOp u a (vAPX w) (operandBytes (vFMTX w) rows ct) .either)
      (c.locateOp u a (vAPY w) (2 * stateLen rows) .either) (c.locateOp u a (vAPZ w) zLen .either), m0 with
  | .error e, _ => .error e
  | _, .error e => .error e
  | .ok (px, py, pz), .ok pm =>
    let there := masked && !c.readHeld cell a.inst (pm / 256) (mapLen rows ct / 256)
    let mlen := mapLen rows ct + (if there then 128 * c.bitmapsBefore cell pm (cdiv rows 32 * ct) else 0)
    if masked ∧ ¬ inStore (pm / 256) mlen .operand then .error (2, pm / 256)
    else .ok ({ cell := cell, x := Block.at cell px (vFMTX w) rows ct, state := py, map := if masked then some pm else none,
                rows := rows, ct := ct }, pz,
              [({ byte := px, len := operandBytes (vFMTX w) rows ct }, vFMTX w), ({ byte := py, len := 2 * stateLen rows }, 0)],
              if masked then [{ byte := pm, len := mlen }] else [])

/-- The 64-bit words of a block's row that hold the elements of the given columns, and the scales over them: what a unit reads that
reads those elements and no other (R201). -/
def Block.rowWords (b : Block) (r : Nat) (ks : List Nat) : List Stretch :=
  let at_ (k : Nat) : Nat := b.base * 8 + elemIx b.ct r k * fmtBits b.fmt
  ((ks.flatMap (fun k => [at_ k / 64, (at_ k + fmtBits b.fmt - 1) / 64])).eraseDups.map (fun n => { byte := 8 * n, len := 8 })) ++
    (if grainScaled b.fmt then
      (ks.map (fun k => b.scales + elemIx b.ct r k / 32)).eraseDups.map (fun n => { byte := n, len := 1 })
    else [])

/-- The words of one array of the row state for the given rows. -/
def Soft.stateReads (s : Soft) (which : Nat) (rows : List Nat) : List Stretch :=
  (rows.map (fun r => (s.state + which * stateLen s.rows + 4 * r) / 8)).eraseDups.map (fun n => { byte := 8 * n, len := 8 })

/-- The admitted scores of the given rows: no masked element and no element of a tile coded 0b00 is read (R201). -/
def Soft.scoreReads (s : Soft) (c : Core) (rows : List Nat) : List Stretch := rows.flatMap (fun r => s.x.rowWords r (s.cols c r))

/-- A running SOFTMAX of one function. -/
def Core.softmax (c : Core) (cell func : Nat) (ups : List Upset)
    (prep : Core → UnitId → ActionInst → Except (Nat × Nat) VecJob) : Core :=
  match c.active (.cell cell .v) 0x37 with
  | some r => if vFUNC r.a.bits = func then c.vector cell 0x37 ups prep else c
  | none => c

/-- SOFTMAX FUNC 0x0. -/
def prepOnline (c : Core) (u : UnitId) (a : ActionInst) : Except (Nat × Nat) VecJob :=
  let rows := vROWS a.bits
  match c.softOps u a (2 * stateLen rows) with
  | .error e => .error e
  | .ok (s, pz, xy, map) =>
    let sz : Stretch := { byte := pz, len := 2 * stateLen rows }
    let rs := List.range rows
    .ok { reads := map ++ s.stateReads 0 rs ++ s.stateReads 1 rs ++ s.scoreReads c rs, writes := [sz], clash := clashes sz 0 xy,
          go := fun c => (List.range rows).foldl (fun acc r =>
            let e := s.online c r
            ((acc.1.cellWrite s.cell (pz + 4 * r) (leBytes e.1 4)).cellWrite s.cell (pz + stateLen rows + 4 * r) (leBytes e.2.1 4),
             acc.2.join e.2.2)) (c, Report.none) }

/-- SOFTMAX_ONLINE. -/
def execSoftmaxOnline (cell : Nat) (ups : List Upset) (s : State) : Host.Outcome State Fault Refusal :=
  s.guard (cell < 576) (fun d => d.c.softmax cell 0 ups prepOnline)

/-- An element of P (R203). A log-sum-exp of +∞ has no row in the rule's table: a free value. -/
def Soft.finish (s : Soft) (c : Core) (r k : Nat) : Num × Report :=
  let m := s.word c 0 r
  let l := s.word c 1 r
  if f32.isNan l ∨ f32.isNan m then (f32.decode f32.nanCode, Report.none.event (nanIn r k))
  else if l = 0xFF800000 then
    (if m = 0xFF800000 ∨ m = 0x7F800000 then (f32.decode 0, Report.none)
     else (f32.decode f32.nanCode, if k = 0 then Report.none.event { cause := 4, row := r, col := 0, kpos := 0, opa := 0, opb := 0 }
       else Report.none))
  else if !(s.admitted c r k) then (f32.decode 0, Report.none)
  else if l = 0x7F800000 then (f32.decode (Config.unstated 2 (c.freeCtr + r * 32 * s.ct + k) % 2 ^ 32), Report.none)
  else
    let v := s.score c r k
    let d := subEv v l r k (if f32.isNan v then Report.none.event (nanIn r k) else Report.none)
    (f32.decode (exp32 d.1), d.2)

/-- SOFTMAX FUNC 0x1: P, then the marks of the empty rows. -/
def prepFinish (c : Core) (u : UnitId) (a : ActionInst) : Except (Nat × Nat) VecJob :=
  let w := a.bits
  let rows := vROWS w
  let zl := blockBytes (vFMTZ w) rows (vCOLT w)
  match c.softOps u a zl with
  | .error e => .error e
  | .ok (s, pz, xy, map) =>
    let sz : Stretch := { byte := pz, len := zl }
    let z := Block.at s.cell pz (vFMTZ w) rows (vCOLT w)
    let rs := List.range rows
    .ok { reads := map ++ s.stateReads 0 rs ++ s.stateReads 1 rs ++ s.scoreReads c rs,
          writes := [sz, { byte := s.state, len := stateLen rows }], clash := clashes sz (vFMTZ w) xy,
          go := fun c =>
            let res := c.writeZ w a.ctx z (s.finish c)
            let empty := (List.range rows).filter (fun r => s.word c 0 r = 0xFF800000 && s.word c 1 r = 0xFF800000)
            (empty.foldl (fun c1 r => c1.cellWrite s.cell (s.state + 4 * r) (leBytes 0x7F800000 4)) res.1, res.2.add 0x540 empty.length) }

/-- SOFTMAX_FINISH. -/
def execSoftmaxFinish (cell : Nat) (ups : List Upset) (s : State) : Host.Outcome State Fault Refusal :=
  s.guard (cell < 576) (fun d => d.c.softmax cell 1 ups prepFinish)

/-- An element of dS (R204). -/
def Soft.backward (s : Soft) (c : Core) (z : Block) (r k : Nat) : Num × Report :=
  let l := s.word c 1 r
  if l = 0xFF800000 ∨ ¬ s.admitted c r k then (f32.decode 0, Report.none)
  else
    let v := s.score c r k
    let dp := c.codeAt z r k
    let d := s.word c 0 r
    let nan := f32.isNan v || f32.isNan l || f32.isNan dp || f32.isNan d
    let e := subEv v l r k (if nan then Report.none.event (nanIn r k) else Report.none)
    let p := exp32 e.1
    let q := subEv dp d r k e.2
    let m := f32.mulC p q.1
    f32Num m.1 r k m.2 p q.1 q.2

/-- SOFTMAX FUNC 0x2: dP in Z becomes dS in place. Of a row whose λ is −∞ only λ is read, of the others the admitted elements. -/
def prepBackward (c : Core) (u : UnitId) (a : ActionInst) : Except (Nat × Nat) VecJob :=
  let w := a.bits
  let rows := vROWS w
  let zl := blockBytes 0 rows (vCOLT w)
  match c.softOps u a zl with
  | .error e => .error e
  | .ok (s, pz, xy, map) =>
    let sz : Stretch := { byte := pz, len := zl }
    let z := Block.at s.cell pz 0 rows (vCOLT w)
    let rs := (List.range rows).filter (fun r => s.word c 1 r ≠ 0xFF800000)
    .ok { reads := map ++ s.stateReads 1 (List.range rows) ++ s.stateReads 0 rs ++ s.scoreReads c rs ++
            rs.flatMap (fun r => z.rowWords r (s.cols c r)),
          writes := [sz], clash := clashes sz 0 xy,
          go := fun c => c.writeZ w a.ctx z (s.backward c z) }

/-- SOFTMAX_BACKWARD. -/
def execSoftmaxBackward (cell : Nat) (ups : List Upset) (s : State) : Host.Outcome State Fault Refusal :=
  s.guard (cell < 576) (fun d => d.c.softmax cell 2 ups prepBackward)

/-! ## FLAGW (R100) -/

/-- FLAGW: the flag's value from the word, or from the first byte at APX. -/
def execFlagw (cell : Nat) (s : State) : Host.Outcome State Fault Refusal :=
  s.guard (cell < 576) (fun d =>
    let u := UnitId.cell cell .v
    match d.c.active u 0x38 with
    | none => d.c
    | some r =>
      let w := r.a.bits
      let f := vIMM w / 256
      if vFUNC w = 0 then (d.c.setFlag r.a.ctx f (vIMM w)).actDone u
      else match d.c.locateOp u r.a (vAPX w) 1 .either with
        | .error e => d.c.actionFault u e.1 e.2
        | .ok b =>
          if d.c.readHeld cell r.a.inst (b / 256) 1 then d.c
          else match d.c.checks u [] [(storeDet b, 1)] with
            | (c1, true) => c1
            | (c1, false) => (c1.setFlag r.a.ctx f (ofLe (c1.cellRead cell b 1))).actDone u)

end Sys2Proof.Machine
end

