-- ==== Sys2Proof/Machine/Ports.lean ====
section
/-!
DEFINITION. The stream ports and the silt lane: RECEIVE, SEND, SILT and the landing of granules and packets (R101 to R103,
R177, R189 to R193).
-/
namespace Sys2Proof.Machine
open Sys2Proof

/-- Granules a landing or intake buffer holds (R102). -/
def landRoom : Nat := 16

/-- The landing buffer of a cell for a source: engine 0 to 7 of its tensor die, or 8 for the ring. -/
def Core.land (c : Core) (cell src : Nat) : List (List Byte) := kgetD c.landing (cell, src) []

/-- The intake buffer that an engine keeps for a cell. -/
def Core.taking (c : Core) (die eng cell : Nat) : List (List Byte) := kgetD c.intake (die, eng, cell) []

/-- Granules put at the end of a landing buffer. -/
def Core.putLand (c : Core) (cell src : Nat) (g : List (List Byte)) : Core :=
  { c with landing := kset c.landing (cell, src) (c.land cell src ++ g) }

/-- A window's progress by `k` granules; it closes when the last has moved (R177). -/
def Core.advanceWin (c : Core) (cell : Nat) (owner : CellUnit) (a : ActionInst) (k : Nat) : Core :=
  let step (w : Win) : Win := if w.isOf cell owner a then { w with done := w.done + k } else w
  let ws := (c.wins.map step).filter (fun w => w.done < w.hi - w.lo)
  { c with wins := ws }

/-- A running action's moved granules. -/
def Core.moved (c : Core) (u : UnitId) (k : Nat) : Core := c.modRunning u (fun r => { r with started := true, count := r.count + k })

/-! ## RECEIVE -/

/-- The source of a RECEIVE. -/
def recvSrc (w : Nat) : Nat := if sRing w then 8 else sENG w

/-- RECEIVE: every granule that has landed for it is written into the cell, as far as open drain windows let it. -/
def Core.receive (c : Core) (cell : Nat) : Core :=
  let u := UnitId.cell cell .sin
  match c.active u 0x42 with
  | none => c
  | some r =>
    let w := r.a.bits
    match c.locateOp u r.a (sAP w) (256 * sGRAN w) .either with
    | .error e => c.actionFault u e.1 e.2
    | .ok base =>
      let buf := c.land cell (recvSrc w)
      let want := min buf.length (sGRAN w - r.count)
      let free := (List.range want).takeWhile (fun i => !(c.writeHeld cell r.a.inst (base / 256 + r.count + i) 1))
      if free.isEmpty then c
      else match c.checks u [] [(4, free.length)] with
        | (c1, true) => c1
        | (c1, false) =>
          let c2 := free.foldl (fun c i => c.cellWrite cell (base + 256 * (r.count + i)) (padTo 256 (buf.getD i []))) c1
          let c3 := { c2 with landing := kset c2.landing (cell, recvSrc w) (buf.drop free.length) }
          let c4 := (c3.advanceWin cell .sin r.a free.length).moved u free.length
          if r.count + free.length = sGRAN w then c4.actDone u else c4

/-- RECEIVE. -/
def execReceive (cell : Nat) (s : State) : Host.Outcome State Fault Refusal := s.guard (cell < 576) (fun d => d.c.receive cell)

/-! ## SEND -/

/-- SEND: the port has its source; granules leave as they reach a buffer. -/
def Core.sendBegin (c : Core) (cell : Nat) : Core :=
  let u := UnitId.cell cell .sout
  match c.active u 0x52 with
  | none => c
  | some r =>
    match c.locateOp u r.a (sAP r.a.bits) (256 * sGRAN r.a.bits) .either with
    | .error e => c.actionFault u e.1 e.2
    | .ok _ => c.moved u 0

/-- SEND. -/
def execSend (cell : Nat) (s : State) : Host.Outcome State Fault Refusal := s.guard (cell < 576) (fun d => d.c.sendBegin cell)

/-- The ring successor of an action's place in its slot group (R103). -/
def Core.successor (c : Core) (a : ActionInst) : Option Nat :=
  c.physCell (a.group.getD ((a.ordinal + 1) % max 1 a.group.length) 0)

/-- The next usable cell after a cell on the physical ring (R194): ascending physical number within each die, then the next tensor die
of the region, then the next region, from the last back to the first. -/
def Core.ringNext (c : Core) (cell : Nat) : Option Nat :=
  let at_ := (List.range 576).map (fun i => (cell + 1 + i) % 576)
  at_.find? (fun q => (c.usableCells (q / 16)).contains q)

/-- Whether two cells are neighbours on the physical ring: their granules take a hop of its own (R194). -/
def Core.neighbours (c : Core) (x y : Nat) : Bool := c.ringNext x = some y || c.ringNext y = some x

/-- GRANULE_LAND: the next granule of a cell's SEND reaches its buffer, if the buffer has room and no fill window holds it. -/
def Core.granuleLand (c : Core) (cell : Nat) : Core :=
  let u := UnitId.cell cell .sout
  match c.active u 0x52 with
  | none => c
  | some r =>
    let w := r.a.bits
    match r.started, c.locateOp u r.a (sAP w) (256 * sGRAN w) .either with
    | true, .ok base =>
      let byte := base + 256 * r.count
      let room : Option (Option Nat) :=
        if sRing w then (match c.successor r.a with
          | some t => if (c.land t 8).length < landRoom then some (some t) else none
          | none => none)
        else if (c.taking (cellDie cell) (sENG w) cell).length < landRoom then some none else none
      match room with
      | none => c
      | some dst =>
        if c.readHeld cell r.a.inst (byte / 256) 1 then c
        else
          let direct := match dst with | some t => c.neighbours cell t | none => false
          match (match c.checks u [] [(storeDet byte, 32)] with | (c0, false) => if direct then (c0, false) else c0.pathChecks u | q => q) with
          | (c1, true) => c1
          | (c1, false) =>
            let g := c1.cellRead cell byte 256
            let c2 := match dst with
              | some t => c1.putLand t 8 [g]
              | none => { c1 with intake := kset c1.intake (cellDie cell, sENG w, cell) (c1.taking (cellDie cell) (sENG w) cell ++ [g]) }
            let c3 := (c2.advanceWin cell .sout r.a 1).moved u 1
            if r.count + 1 = sGRAN w then c3.actDone u else c3
    | _, _ => c

/-- GRANULE_LAND. -/
def execGranuleLand (cell : Nat) (s : State) : Host.Outcome State Fault Refusal :=
  s.guard (cell < 576) (fun d => d.c.granuleLand cell)

/-! ## The silt lane (R189 to R193) -/

/-- Fields of a route entry (R190). -/
def routeKind (e : Nat) : Nat := fieldN e 8 1
def routeAddr (e : Nat) : Nat := fieldN e 0 8
def routeCell (e : Nat) : Nat := fieldN e 0x0A 2

/-- A packet's header (R193): sequence number, route, context, length and sending cell. No die unit sends, so SP_DIE is 0. -/
def siltHdr (seq route ctx len src : Nat) : Nat :=
  seq % 2 ^ 16 * 2 ^ 48 + route % 2 ^ 12 * 2 ^ 36 + ctx % 16 * 2 ^ 32 + (len - 1) % 256 * 2 ^ 24 + src % 1024 * 2 ^ 14

/-- SILT: the packet leaves the cell; at most 4 of one place are in flight. -/
def Core.siltSend (c : Core) (cell : Nat) : Core :=
  let u := UnitId.cell cell .sout
  match c.active u 0x53 with
  | none => c
  | some r =>
    let w := r.a.bits
    let e := c.route r.a.ctx (sDEST w)
    match c.locateOp u r.a (sAP w) (sLEN w) .either with
    | .error f => c.actionFault u f.1 f.2
    | .ok base =>
      if routeKind e = 0 ∨ (routeKind e = 4 ∧ 256 < routeAddr e + sLEN w) then c.actionFault u 6 (sDEST w)
      else if 4 ≤ (c.silt.filter (fun q => q.src = cell)).length ∨ c.readHeld cell r.a.inst (base / 256) 1 then c
      else match c.checks u [] [(storeDet base, cdiv (sLEN w) 8)] with
        | (c1, true) => c1
        | (c1, false) =>
          let seq := kgetD c1.siltSeq cell 0
          ({ c1 with
            silt := c1.silt ++ [Silt.mk (siltHdr seq (sDEST w) r.a.ctx (sLEN w) cell) (c1.cellRead cell base (sLEN w)) r.a.inst r.a.nth],
            siltSeq := kset c1.siltSeq cell ((seq + 1) % 2 ^ 16) }).actDone u

/-- SILT. -/
def execSilt (cell : Nat) (s : State) : Host.Outcome State Fault Refusal := s.guard (cell < 576) (fun d => d.c.siltSend cell)

/-- SILT_PACKET_LAND: packet n of those in flight, nothing where there is none; packets of one place and route land in the order sent (R192). -/
def execSiltPacketLand (n : Nat) (s : State) : Host.Outcome State Fault Refusal :=
  s.onCore (fun d =>
    match d.c.silt[n]? with
    | none => d.c
    | some q =>
      if (d.c.silt.take n).any (fun p => p.src = q.src && p.route = q.route && p.ctx = q.ctx) then d.c
      else
        let e := d.c.route q.ctx q.route
        let c1 := { d.c with silt := dropAt d.c.silt n }
        match routeKind e with
        | 1 => (match c1.physCell (routeCell e) with
          | some t =>
            let c2 := c1.cellWrite t (256 * routeAddr e) q.bytes
            { c2 with wins := c2.wins.filter (fun w => !(w.by_ = q.src && w.owner = .sout && w.inst = q.inst && w.word = q.word)) }
          | none => c1)
        | 2 => (match c1.writeBytes q.ctx (routeAddr e) q.bytes with
          | .ok c2 => c2.touchAt q.ctx (routeAddr e)
          | .error _ => c1)
        | 3 => if c1.reach (routeAddr e) q.bytes.length then c1.dma (routeAddr e) q.bytes else c1
        | 4 => (List.range q.bytes.length).foldl (fun c i => c.setFlag q.ctx (routeAddr e + i) ((q.bytes.getD i 0).toNat)) c1
        | _ => c1)

end Sys2Proof.Machine
end

