-- ==== Sys2Proof/Machine/Tables.lean ====
section
/-!
DEFINITION. The context tables: the fields of their entries, the checks that loads make, and the changes that wait for the
context's settle point (R165 to R170, R190, R191, R259 to R262, R296 to R303, R357 to R363, R491).
-/
namespace Sys2Proof.Machine
open Sys2Proof

/-- A stretch within one floor object of a context (R232). -/
def Ctx.inFloor (x : Ctx) (a len : Nat) : Bool :=
  match x.objAt a with
  | some (_, o) => o.floor && !o.window && a + len ≤ o.base + o.size
  | none => false

/-- Whether an address field is a 256-byte aligned local HBM address (R260, R262, R298). -/
def hbmField (a : Nat) : Bool := a % 256 = 0 && a < hbmEnd

/-! ## Stream descriptors (R166 to R168) -/

def dBase (d : Nat) : Nat := fieldN d 0 8 % 2 ^ 60
def dXbase (d : Nat) : Nat := fieldN d 8 8 % 2 ^ 60
def dSbase (d : Nat) : Nat := fieldN d 0x10 8 % 2 ^ 60
def dCtrl (d : Nat) : Nat := fieldN d 0x18 8
def dKind (d : Nat) : Nat := bits (dCtrl d) 63 60
def dDir (d : Nat) : Nat := bits (dCtrl d) 59 58
def dMem (d : Nat) : Nat := bits (dCtrl d) 57 54
def dXfer (d : Nat) : Nat := bits (dCtrl d) 53 50
def dConv (d : Nat) : Nat := bits (dCtrl d) 49 48
def dClass (d : Nat) : Nat := bits (dCtrl d) 47 45
def dFlat (d : Nat) : Bool := bit (dCtrl d) 44
def dSplit (d : Nat) : Nat := bits (dCtrl d) 43 42
def dPersist (d : Nat) : Bool := bit (dCtrl d) 41
def dCrypt (d : Nat) : Bool := bit (dCtrl d) 40
def dIdxDim (d : Nat) : Nat := bits (dCtrl d) 39 37
def dIdxEn (d : Nat) : Bool := bit (dCtrl d) 36
def dIdxDesc (d : Nat) : Nat := bits (dCtrl d) 35 24
def dMask (d : Nat) : Nat := bits (dCtrl d) 15 0
def dRun (d : Nat) : Nat := bits (fieldN d 0x20 8) 63 48
def dPace (d : Nat) : Nat := bits (fieldN d 0x20 8) 47 32
def dLimit (d : Nat) : Nat := fieldN d 0x28 4
def dLen (d i : Nat) : Nat := fieldN d (0x30 + 4 * i) 4
def dStride (d i : Nat) : Int := sext 48 (fieldN d (0x48 + 8 * i) 8)

/-- Whether an address lies in the host-tier window (R35). -/
def inWindow (a : Nat) : Bool := winLo ≤ a % 2 ^ 45 && a % 2 ^ 45 < winEnd

/-- Reserved fields of a descriptor (R166 to R168). -/
def descReserved (d : Nat) : Bool :=
  fieldN d 0 8 < 2 ^ 60 && fieldN d 8 8 < 2 ^ 60 && fieldN d 0x10 8 < 2 ^ 60 && bits (dCtrl d) 23 16 = 0 &&
  fieldN d 0x20 8 % 2 ^ 16 = 0 && fieldN d 0x2C 4 = 0 && fieldN d 0x44 4 = 0 && fieldN d 0x70 16 = 0 &&
  (List.range 5).all (fun i => fieldN d (0x48 + 8 * i) 8 < 2 ^ 48)

/-- Every length from 1 to 2³¹ (R166). -/
def descLens (d : Nat) : Bool := (List.range 5).all (fun i => 1 ≤ dLen d i && dLen d i ≤ 2 ^ 31)

/-- An index descriptor or page table (R174, R209): only BASE, KIND, LEN0 and STRIDE0 are given. -/
def indexOk (d : Nat) : Bool :=
  descReserved d && descLens d && dCtrl d % 2 ^ 60 = 0 && fieldN d 8 8 = 0 && fieldN d 0x10 8 = 0 && fieldN d 0x20 8 = 0 &&
  dLimit d = 0 && (List.range 4).all (fun i => dLen d (i + 1) = 1 && dStride d (i + 1) = 0) &&
  dStride d 0 = (if dKind d = 1 then 4 else 8)

/-- The checks of R170 on a data descriptor, with R169's packing and R210's conditions; `ix` is the entry IDX_DESC names,
`pages` the context's page descriptor entries. -/
def dataOk (conf : Bool) (pages ix d : Nat) : Bool :=
  let host := inWindow (dBase d) || (dDir d = 2 && inWindow (dXbase d))
  let row := cdiv (dLen d 0 * fmtBits (dMem d)) 8
  descReserved d && descLens d && dKind d = 0 && dDir d ≠ 3 && dConv d ≠ 3 && dClass d ≤ 4 && dSplit d ≤ 1 && dIdxDim d ≤ 4 &&
  dMem d ≤ 9 && dXfer d ≤ 9 &&
  (match dConv d with
   | 0 => dMem d = dXfer d
   | 1 => dMem d ≠ dXfer d && !(grainScaled (dMem d) && grainScaled (dXfer d))
   | _ => grainScaled (dXfer d) && !grainScaled (dMem d) && dDir d = 2 && dXbase d = 0) &&
  (if dSplit d = 1 then 1 ≤ dRun d else dRun d = 0) &&
  (dSplit d = 1 || dDir d ≠ 1 || isPow2 (dMask d)) && (dDir d ≠ 2 || dMask d = 0) && (dDir d = 2 || dXbase d = 0) &&
  (8 ≤ fmtBits (dMem d) ||
    (dStride d 0 = 0 && (List.range 4).all (fun i => decide (dStride d (i + 1) % (row : Int) = 0)))) &&
  (if dIdxEn d then
     ix ≠ 0 && 1 ≤ dKind ix && dKind ix ≤ 3 && !(dIdxEn ix) &&
     (dKind ix ≠ 3 || (dBase d < 2 ^ 45 && dStride d (dIdxDim d) = 0 && dLimit d ≤ pages))
   else dLimit d = 0) &&
  (!(dCrypt d) || (conf && host)) && (!(conf && host) || dCrypt d)

/-- A descriptor table entry as DESC_LOAD takes it: empty, an index descriptor, or a data descriptor. -/
def descOk (conf : Bool) (pages : Nat) (look : Nat → Nat) (d : Nat) : Bool :=
  d = 0 || (if 1 ≤ dKind d && dKind d ≤ 3 then indexOk d else dataOk conf pages (look (dIdxDesc d)) d)

/-- A silt route entry (R190, R191). -/
def routeOk (conf : Bool) (e : Nat) : Bool :=
  fieldN e 9 1 = 0 && fieldN e 0x0C 4 = 0 && (routeKind e = 1 || routeCell e = 0) &&
  (match routeKind e with
   | 0 => e = 0
   | 1 => routeAddr e ≤ 0x3FFF && routeCell e < 576
   | 2 => hbmField (routeAddr e)
   | 3 => routeAddr e % 256 = 0 && !conf
   | 4 => routeAddr e ≤ 255
   | _ => false)

/-! ## Layers and shards (R260 to R262) -/

def lyMask (e : Nat) : Nat := fieldN e 0 1
def lyRows (e : Nat) : Nat := fieldN e 4 4
def lyCols (e : Nat) : Nat := fieldN e 8 4
def lyMaddr (e : Nat) : Nat := fieldN e 0x10 8

/-- A layer entry (R260). -/
def layerOk (e : Nat) : Bool :=
  e = 0 || (lyMask e ≤ 2 && fieldN e 1 3 = 0 && fieldN e 0x0C 4 = 0 && fieldN e 0x18 8 = 0 &&
    lyRows e % 32 = 0 && lyCols e % 32 = 0 && lyRows e * lyCols e ≤ 2 ^ 40 &&
    (if lyMask e = 0 then lyMaddr e = 0 else hbmField (lyMaddr e)))

def shId (e : Nat) : Nat := fieldN e 0 4
def shLayer (e : Nat) : Nat := fieldN e 4 2
def shRole (e : Nat) : Nat := fieldN e 6 1
def shFmt (e : Nat) : Nat := fieldN e 7 1
def shPub (e : Nat) : Nat := fieldN e 8 8
def shRow0 (e : Nat) : Nat := fieldN e 0x10 4
def shRows (e : Nat) : Nat := fieldN e 0x14 4
def shOwner (e : Nat) : Nat := fieldN e 0x18 2
def shVersion (e : Nat) : Nat := fieldN e 0x20 8

/-- A shard register entry against its layer (R261, R262). -/
def shardOk (layer : Nat → Nat) (e : Nat) : Bool :=
  let ly := layer (shLayer e)
  let unit := if lyMask ly = 2 then 128 else 32
  e = 0 || (shLayer e < 4096 && (shRole e = 1 || shRole e = 2) && shFmt e ≤ 9 && hbmField (shPub e) && shOwner e < 2 ^ 15 &&
    fieldN e 0x1A 6 = 0 && shVersion e < 2 ^ 48 && fieldN e 0x28 24 = 0 && shRow0 e % unit = 0 && shRows e % unit = 0 &&
    shRows e * lyCols ly ≤ 2 ^ 26 && shRow0 e + shRows e ≤ lyRows ly)

/-- Parameters of a shard, and the bytes of its published range (R261, R262). -/
def Core.shardParams (c : Core) (n e : Nat) : Nat := shRows e * lyCols (c.entry n tLayer (shLayer e))
def Core.pubBytes (c : Core) (n e : Nat) : Nat :=
  let p := c.shardParams n e
  cdiv (p * fmtBits (shFmt e)) 8 + (if grainScaled (shFmt e) then p / 32 else 0)

/-- The shard register of a context: entry number and entry. -/
def Ctx.shards (x : Ctx) : List (Nat × Nat) :=
  (x.tables.filter (fun e => e.1.1 = tShard)).map (fun e => (e.1.2, e.2))

/-- The versions that a read of a stretch returns (R264): S_ID and S_VERSION of every published range it touches. -/
def Core.versions (c : Core) (n a len : Nat) : List (Nat × Nat) :=
  match c.ctx? n with
  | none => []
  | some x => (x.shards.filter (fun e => overlaps a len (shPub e.2) (c.pubBytes n e.2))).map (fun e => (shId e.2, shVersion e.2))

/-- A shard register entry's version set (R263). -/
def Core.setVersion (c : Core) (n entry v : Nat) : Core :=
  c.modCtx n (fun x => { x with tables := kmod x.tables (tShard, entry) (fun e =>
    e - shVersion e * 256 ^ 0x20 + (v % 2 ^ 64) * 256 ^ 0x20) })

/-- Whether row r of the layer of that entry number is trained, or element (r, k) of it under a block mask: the bit of the mask's
bitmap (R157, R260, R269). -/
def Core.trained (c : Core) (n layer r k : Nat) : Bool :=
  let ly := c.entry n tLayer layer
  let at_ (b : Nat) : Bool := match c.readBytes n (lyMaddr ly + b / 8) 1 with
    | .ok (v :: _) => v.getLsbD (b % 8)
    | _ => false
  match lyMask ly with
  | 0 => true
  | 1 => at_ r
  | _ => at_ (r / 128 * cdiv (lyCols ly) 128 + k / 128)

/-! ## Trees (R357 to R359) -/

def trSid (e : Nat) : Nat := fieldN e 0 4
def trLayer (e : Nat) : Nat := fieldN e 4 2
def trRole (e : Nat) : Nat := fieldN e 6 1 % 4
def trOwn (e : Nat) : Bool := bit (fieldN e 6 1) 2
def trHeight (e : Nat) : Nat := fieldN e 8 1
def trChildN (e : Nat) : Nat := fieldN e 9 1
def trParent (e : Nat) : Nat := fieldN e 0x0A 2
def trPslot (e : Nat) : Nat := fieldN e 0x0C 4
def trCbuf (e : Nat) : Nat := fieldN e 0x10 8
def trArea (e : Nat) : Nat := fieldN e 0x18 8
def trGrad (e : Nat) : Nat := fieldN e 0x20 8
def trRow0 (e : Nat) : Nat := fieldN e 0x28 4
def trRows (e : Nat) : Nat := fieldN e 0x2C 4
def trChildren (e : Nat) : List Nat := (List.range (trChildN e)).map (fun i => fieldN e (0x30 + 2 * i) 2)

/-- A tree list entry (R358). -/
def treeOk (e : Nat) : Bool :=
  let addr (off : Nat) : Bool := fieldN e off 8 % 256 = 0 && fieldN e off 8 < 2 ^ 45
  let leaf := trRole e = 0
  let owner := trRole e = 2
  trLayer e < 4096 && trRole e ≠ 3 && fieldN e 6 1 < 8 && trLdie e < 12 && trChildN e ≤ 15 && trParent e < 2 ^ 15 &&
  trPslot e < 2 ^ 28 && addr 0x10 && addr 0x18 && addr 0x20 && trRow0 e % 32 = 0 && trRows e % 32 = 0 &&
  (trOwn e || trCbuf e = 0) && (!leaf || trArea e = 0) && (owner || trGrad e = 0) && (!owner || (trParent e = 0 && trPslot e = 0)) &&
  (if leaf then trChildN e = 0 && trHeight e = 0 else trChildN e = 0 || 1 ≤ trHeight e) &&
  (List.range 15).all (fun i => fieldN e (0x30 + 2 * i) 2 < 2 ^ 15) && fieldN e 0x4E 50 = 0

/-- A tree-set entry with the list it names (R357, R358): the list stands in a floor object. -/
def Core.treeSetOk (c : Core) (n e : Nat) : Except Nat Bool :=
  if e = 0 then .ok true
  else if fieldN e 4 4 ≠ 0 ∨ tsCount e = 0 ∨ 65536 < tsCount e ∨ tsList e % 256 ≠ 0 ∨ 2 ^ 45 ≤ tsList e then .ok false
  else if !(match c.ctx? n with | some x => x.inFloor (tsList e) (128 * tsCount e) | none => false) then .ok false
  else match c.readBytes n (tsList e) (128 * tsCount e) with
    | .ok b => .ok ((List.range (tsCount e)).all (fun i => treeOk (ofLe ((b.drop (128 * i)).take 128))))
    | .error k => if k = 5 ∨ k = 7 then .error 9 else .ok false

/-! ## Update plans and schedules (R297 to R303) -/

def uRule (e : Nat) : Nat := fieldN e 0 1
def uSched (e : Nat) : Nat := fieldN e 1 1
def uExports (e : Nat) : Bool := bit (fieldN e 2 1) 4
def uExport (e : Nat) : Nat := fieldN e 2 1 % 16
def uFlags (e : Nat) : Nat := fieldN e 4 2
/-- A binary64 field of a plan by its offset. -/
def uNum (e off : Nat) : Nat := fieldN e off 8

/-- A binary64 code that is finite and not negative. -/
def f64Plain (w : Nat) : Bool := f64.isFin w && (w < 2 ^ 63 || w = 2 ^ 63)

/-- A plan entry's own fields (R297). -/
def planOk (e : Nat) : Bool :=
  uRule e ≤ 3 && uSched e ≤ 15 && fieldN e 2 1 < 32 && fieldN e 3 1 = 0 && uFlags e < 16 && fieldN e 6 2 = 0 &&
  1 ≤ uCount e && uCount e ≤ 65536 && fieldN e 0x0C 4 = 0 && hbmField (uList e) && fieldN e 0x58 40 = 0 &&
  [0x18, 0x20, 0x28, 0x30, 0x38, 0x40, 0x48, 0x50].all (fun o => f64Plain (uNum e o)) &&
  f64.lt (uNum e 0x20) one64 && f64.lt (uNum e 0x28) one64

def slReg (e : Nat) : Nat := fieldN e 0 2
def slNpush (e : Nat) : Nat := fieldN e 2 2
def slMaster (e : Nat) : Nat := fieldN e 8 8
def slSed (e : Nat) : Nat := fieldN e 0x10 8
def slM1 (e : Nat) : Nat := fieldN e 0x18 8
def slM2 (e : Nat) : Nat := fieldN e 0x20 8
def slM2c (e : Nat) : Nat := fieldN e 0x28 8
def slGrad (e : Nat) : Nat := fieldN e 0x30 8
def slPush (e : Nat) : Nat := fieldN e 0x40 8

/-- Whether a plan's master is loam16 with sediment, and its moments binary32. -/
def uLoam (p : Nat) : Bool := bit (uFlags p) 0
def uWide (p : Nat) : Bool := bit (uFlags p) 1

/-- The state arrays of a shard list entry in the order of R323: address and bytes; absent ones are left out. -/
def Core.stateArrays (c : Core) (n p e : Nat) : List (Nat × Nat) :=
  let sh := c.entry n tShard (slReg e)
  let np := c.shardParams n sh
  let mom := if uWide p then 4 else 2
  let fact := uRule p = 2
  [(slMaster e, np * (if uLoam p then 2 else 4))] ++ (if slSed e = 0 then [] else [(slSed e, np)]) ++
  (if slM1 e = 0 then [] else [(slM1 e, np * mom)]) ++
  (if slM2 e = 0 then [] else [(slM2 e, if fact then 4 * shRows sh else np * mom)]) ++
  (if slM2c e = 0 then [] else [(slM2c e, 4 * lyCols (c.entry n tLayer (shLayer sh)))])

/-- Bytes of a shard's state image (R323), its presence map (R298), and its largest record (R320). -/
def Core.imageLen (c : Core) (n p e : Nat) : Nat := ((c.stateArrays n p e).map Prod.snd).sum
def mapAt (grad params : Nat) : Nat := grad + cdiv (2 * params) 256 * 256
def Core.largestRecord (c : Core) (n p e : Nat) : Nat :=
  let im := c.imageLen n p e
  cdiv (32 + im + 2 * cdiv im 32767 + (if (match c.ctx? n with | some x => x.conf | none => false) then 16 else 0)) 64 * 64

/-- A shard list entry against its plan (R298, R299). -/
def Core.shardListOk (c : Core) (n p e : Nat) : Bool :=
  let sh := c.entry n tShard (slReg e)
  let sed := slSed e ≠ 0
  let rule := uRule p
  fieldN e 4 4 = 0 && fieldN e 0x48 56 = 0 && slNpush e ≤ 1024 && shRole sh = 1 &&
  [8, 0x10, 0x18, 0x20, 0x28, 0x30, 0x38, 0x40].all (fun o => hbmField (fieldN e o 8)) &&
  slMaster e ≠ 0 && slGrad e ≠ 0 && decide (sed = uLoam p) &&
  (if rule = 2 then slM2 e ≠ 0 && slM2c e ≠ 0
   else slM1 e ≠ 0 && slM2c e = 0 && (if rule = 0 then slM2 e ≠ 0 else slM2 e = 0)) &&
  (if uExports p then slXacc e ≠ 0 else slXacc e = 0) && (slNpush e ≠ 0 || slPush e = 0) &&
  (if shPub sh = slMaster e then (shFmt sh = (if uLoam p then 1 else 0)) else
    (c.stateArrays n p e).all (fun r => !(overlaps r.1 r.2 (shPub sh) (c.pubBytes n sh))))

/-- Segment i of a schedule (R303). -/
def segAt (s i : Nat) : Nat := fieldN s (32 * i) 32
def segStart (g : Nat) : Nat := fieldN g 0 8 % 2 ^ 40
def segKind (g : Nat) : Nat := bits (fieldN g 0 8) 43 40
def segLen (g : Nat) : Nat := fieldN g 8 8 % 2 ^ 40
def segV0 (g : Nat) : Nat := fieldN g 0x10 8
def segV1 (g : Nat) : Nat := fieldN g 0x18 8
def segPresent (g : Nat) : Bool := segKind g ≠ 15

/-- One segment (R303). -/
def segOk (g : Nat) : Bool :=
  fieldN g 0 8 < 2 ^ 44 && fieldN g 8 8 < 2 ^ 40 &&
  (match segKind g with
   | 0 => true
   | 1 => 1 ≤ segLen g
   | 2 => 1 ≤ segLen g
   | 3 => 1 ≤ segLen g
   | 4 => 1 ≤ segLen g && f64.lt 0 (segV1 g)
   | 15 => fieldN g 0 8 % 2 ^ 40 = 0 && fieldN g 8 24 = 0
   | _ => false)

/-- A schedule (R303): segment 0 present from step 0, the present ones first and strictly ascending. -/
def schedOk (s : Nat) : Bool :=
  (List.range 16).all (fun i => segOk (segAt s i)) && segPresent (segAt s 0) && segStart (segAt s 0) = 0 &&
  (List.range 15).all (fun i => !(segPresent (segAt s (i + 1))) ||
    (segPresent (segAt s i) && segStart (segAt s i) < segStart (segAt s (i + 1))))

/-! ## Dispatch plans (R363) -/

def dpAssigns (e : Nat) : Nat := fieldN e 0 4
def dpRowb (e : Nat) : Nat := fieldN e 4 4
def dpSrc (e : Nat) : Nat := fieldN e 8 8
def dpAssign (e : Nat) : Nat := fieldN e 0x10 8
def dpEmap (e : Nat) : Nat := fieldN e 0x18 8
def dpRecv (e : Nat) : Nat := fieldN e 0x20 8
def dpCounts (e : Nat) : Nat := fieldN e 0x28 8
def dpDevs (e : Nat) : Nat := fieldN e 0x30 8
def dpComb (e : Nat) : Nat := fieldN e 0x38 8
def dpExperts (e : Nat) : Nat := fieldN e 0x40 4
def dpDevN (e : Nat) : Nat := fieldN e 0x44 2
def dpSlots (e : Nat) : Nat := fieldN e 0x46 2
def dpCap (e : Nat) : Nat := fieldN e 0x48 4

/-- A dispatch plan entry (R363): every area within a floor object. -/
def Ctx.dispatchOk (x : Ctx) (e : Nat) : Bool :=
  e = 0 || (dpAssigns e ≤ 2 ^ 24 && dpRowb e % 256 = 0 && 256 ≤ dpRowb e && dpRowb e ≤ 2 ^ 20 && 1 ≤ dpExperts e &&
    dpExperts e ≤ 65535 && 1 ≤ dpDevN e && dpDevN e ≤ 1024 && dpSlots e ≤ 4096 && fieldN e 0x4C 52 = 0 &&
    [(dpSrc e, 1), (dpAssign e, 8 * dpAssigns e), (dpEmap e, 8 * dpExperts e), (dpRecv e, dpSlots e * dpCap e * dpRowb e),
     (dpCounts e, 8 * dpSlots e), (dpDevs e, 2 * dpDevN e), (dpComb e, dpAssigns e * dpRowb e)].all
       (fun r => r.1 % 256 = 0 && r.1 < 2 ^ 45 && x.inFloor r.1 r.2))

/-! ## Loads -/

/-- A table as it will stand once every waiting change has been made. -/
def Ctx.ahead (x : Ctx) (t e : Nat) : Nat :=
  x.pend.foldl (fun v p => match p with
    | .words t' first es => if t' = t ∧ first ≤ e ∧ e < first + es.length then es.getD (e - first) 0 else v
    | .register es => if t = tShard then es.getD e 0 else v
    | _ => v) (x.entry t e)

/-- A load command's statuses: entries beyond the table, a handle that names no object, an invalid entry. -/
structure LoadSt where
  beyond : Nat
  handle : Nat
  bad : Nat
  deriving DecidableEq, Repr

/-- A load of table entries from an object (R165, R195, R294, R370): all of them are checked, then written or none. `ok` sees
the context, the table as it will stand with these entries, and an entry's value; it may stop the command with a status. -/
def Core.loadTable (c : Core) (p : Packet) (tab size limit plots first count handle : Nat) (st : LoadSt)
    (ok : Ctx → (Nat → Nat) → Nat → Except Nat Bool) : Core :=
  let n := p.ctxNum
  match c.ctx? n with
  | none => c.finish p 4 []
  | some x =>
    if limit < first + count then c.finish p st.beyond []
    else
      let c := c.checkObj n handle 0 (size * count)
      match c.byHandle n handle 0 (size * count) st.handle with
      | .error e => c.finish p e []
      | .ok b =>
        let es := (List.range count).map (fun i => ofLe ((b.drop (size * i)).take size))
        let look (e : Nat) : Nat := if first ≤ e ∧ e < first + count then es.getD (e - first) 0 else x.ahead tab e
        match (List.range count).find? (fun i => match ok x look (es.getD i 0) with | .ok r => !r | .error _ => true) with
        | some i => (match ok x look (es.getD i 0) with
          | .error s => c.finish p s []
          | .ok _ => c.finishI p st.bad (first + i) [])
        | none =>
          match c.needTable n (if tab = tSched then tPlan else tab) plots with
          | none => c.finish p 0x32C []
          | some c1 => (c1.change n (.words tab first es)).finish p 0 []

/-- A ring setting from a command's parameters (R140, R195, R294): base 64-byte aligned, a power of two of entries up to
65,536, enable 0 or 1. -/
def ringOf (base entries enable : Nat) : Option Ring :=
  if base % 64 ≠ 0 ∨ !isPow2 entries ∨ 65536 < entries ∨ 2 ≤ enable then none
  else some { base := base, entries := entries, enabled := enable = 1 }

end Sys2Proof.Machine
end

