-- ==== Sys2Proof/Machine/Reduce.lean ====
section
/-!
DEFINITION. The reduction unit: tree nodes, arrivals, deadlines, the owner's division, and the REDUCE action (R107, R269 to
R274, R357 to R362).
-/
namespace Sys2Proof.Machine
open Sys2Proof

/-! ## Trees and their nodes -/

/-- Tree `idx` of a tree-set entry: none beyond the list; an error where the list cannot be read. -/
def Core.treeAt (c : Core) (n tset idx : Nat) : Except Nat (Option Nat) :=
  let e := c.entry n tTree tset
  if e = 0 ∨ tsCount e ≤ idx then .ok none
  else match c.readBytes n (tsList e + 128 * idx) 128 with
    | .ok b => .ok (some (ofLe b))
    | .error k => .error k

/-- Tiles of a tree across and in all (R359). -/
def Core.treeCols (c : Core) (n t : Nat) : Nat := lyCols (c.entry n tLayer (trLayer t)) / 32
def Core.treeTiles (c : Core) (n t : Nat) : Nat := trRows t / 32 * c.treeCols n t

/-- The link die that serves a tree; none where relinking maps it to none, and then no program that reduces it fits (R362). -/
def Core.treeDie (c : Core) (t : Nat) : Option Nat := c.physDie 3 (trLdie t)

/-- A counter of the reduction unit that serves a tree (R372). -/
def Core.ruCount (c : Core) (t off w k : Nat) : Core :=
  match c.treeDie t with
  | some d => c.bump (subBase d 11 0 + off) w k
  | none => c

/-- Whether a tile has a trained element (R269). -/
def Core.tileTrained (c : Core) (n t tile : Nat) : Bool :=
  let nt := max 1 (c.treeCols n t)
  (List.range 32).any (fun i => c.trained n (trLayer t) (trRow0 t + 32 * (tile / nt) + i) (32 * (tile % nt)))

/-- An arriving tile with its untrained rows set to +0 (R269). -/
def Core.maskRows (c : Core) (n t tile : Nat) (sum : List Nat) : List Nat :=
  let nt := max 1 (c.treeCols n t)
  let keep := (List.range 32).map (fun i => c.trained n (trLayer t) (trRow0 t + 32 * (tile / nt) + i) (32 * (tile % nt)))
  (List.range 1024).map (fun i => if keep.getD (i / 32) true then sum.getD i 0 else 0)

/-- A node before its first arrival: a device without a gradient stands as having sent every tile (R360). -/
def Node.fresh (self t : Nat) : Node :=
  { deadline := none, tiles := [], nulls := if trOwn t then [] else [self], expired := false, late := 0, own := none }

/-- A node's state, and the state changed. -/
def Core.node (c : Core) (n tset idx t : Nat) : Node :=
  match c.ctx? n with
  | some x => kgetD x.nodes (tset, idx) (Node.fresh c.devNum t)
  | none => Node.fresh c.devNum t
def Core.setNode (c : Core) (n tset idx : Nat) (d : Node) : Core :=
  c.modCtx n (fun x => { x with nodes := kset x.nodes (tset, idx) d })

/-- A tile's record at a node. -/
def Node.tile (d : Node) (k : Nat) : TreeTile := kgetD d.tiles k { cnt := 0, sent := [], fwd := false }

/-- Whether a child, or the device itself, has sent a tile. -/
def Node.hasSent (d : Node) (child k : Nat) : Bool := d.nulls.contains child || (d.tile k).sent.contains child
def Node.complete (d : Node) (self t k : Nat) : Bool := (self :: trChildren t).all (fun ch => d.hasSent ch k)

/-- Where a tile's binary32 sum stands in the reduction area (R359). -/
def sumAddr (t tiles k : Nat) : Nat := cdiv (trArea t + 16 * tiles) 4096 * 4096 + 4096 * k

/-! ## The REDUCE that serves a tree set -/

/-- Units whose running action is a REDUCE of a tree set that has not reached its completion point. -/
def Core.reduceUnits (c : Core) (n tset : Nat) : List UnitId :=
  (c.cols.filter (fun e => match e.2.run with
    | some r => decide (r.a.op = 0x81 ∧ r.a.ctx = n ∧ aEntry r.a.bits = tset ∧ ¬ r.done)
    | none => false)).map Prod.fst

/-- The action that an event of a tree set names: the REDUCE running, else one issued, else none yet (R494). -/
def Core.reduceAction (c : Core) (n tset : Nat) : ActionInst :=
  let all := c.cols.flatMap (fun e => (match e.2.run with | some r => [r.a] | none => []) ++ e.2.queue)
  match all.find? (fun a => decide (a.op = 0x81 ∧ a.ctx = n ∧ aEntry a.bits = tset)) with
  | some a => a
  | none => { ctx := n, addr := 0, slotGroup := 0, word := 0, bits := 0x81 + tset * 2 ^ 116, ordinal := 0, group := [],
              loops := [], inst := 0 }

/-- A failure of the reduction unit's work for a tree set (R359): an action fault of its REDUCE, or the abandon flag where that
has not begun. -/
def Core.reduceFault (c : Core) (n tset reason detail : Nat) : Core :=
  match c.reduceUnits n tset with
  | u :: _ => c.actionFault u reason detail
  | [] => c.setAbandon n 0x01

/-- The reason of a failed read: a poisoned word, or another failure. -/
def readReason (k : Nat) : Nat := if k = 5 ∨ k = 7 then 0x0B else 0x0A

/-- Bytes that a reduction unit reads (R235, R248, R359): the object touched, each word checked; a failure is the REDUCE's. -/
def Core.ruRead (c : Core) (n tset a len detail : Nat) : Except Core (Core × List Byte) :=
  match (c.touchAt n a).hbmRead n a len with
  | (c1, true) => .error (c1.reduceFault n tset 9 detail)
  | (c1, false) => match c1.readBytes n a len with
    | .ok b => .ok (c1, b)
    | .error k => .error (c1.reduceFault n tset (readReason k) detail)

/-- Bytes that a reduction unit writes. -/
def Core.ruWrite (c : Core) (n tset a : Nat) (b : List Byte) (detail : Nat) : Except Core Core :=
  match c.writeBytes n a b with
  | .ok c1 => .ok (c1.touchAt n a)
  | .error e => .error (e.2.reduceFault n tset 0x0A detail)

/-- The NaN events of a tree set's arrivals (R134, R494): those met while its REDUCE runs are one action's, reported as it completes;
the first met before is reported at once, and each later one counts. -/
def Core.reduceEvents (c : Core) (u : UnitId) (n tset : Nat) (rep : Report) : Core :=
  let c1 := c.reportCounts n rep
  let e : ActEvs := match c1.ctx? n with | some x => kgetD x.redEvs tset ActEvs.none | none => ActEvs.none
  let put (c : Core) (e : ActEvs) : Core := c.modCtx n (fun x => { x with redEvs := kset x.redEvs tset e })
  if rep.best.isNone then c1
  else if e.told then (put c1 { e with input := e.input || rep.input }).censusAdd n 0x558 (rep.count + b2n (rep.input && !e.input))
  else if (c1.reduceUnits n tset).isEmpty then
    (put c1 { ActEvs.none with input := rep.input, told := true }).reportEvs u (c1.reduceAction n tset) (ActEvs.none.add rep)
  else put c1 (e.add rep)

/-- The adder residue of a tile that finishes, checked before it is forwarded or divided (R457, R464). Answers whether an injection
fails it. -/
def Core.tileCheck (c : Core) (n tset t tile : Nat) : Core × Bool :=
  match c.treeDie t with
  | none => (c, false)
  | some d =>
    match c.injections (UnitId.ru d).sunit 1 1 with
    | (c1, false) => (c1, false)
    | (c1, true) =>
      ((((c1.error (UnitId.ru d).sunit 1 0 (Config.syndrome c1.freeCtr % 2 ^ 32) false true true).drawn).reduceFault n tset 9 tile), true)

/-- Whether arrivals for a step are taken: the context is bound, the step is its current one, and it is not abandoned (R272,
R287). -/
def Core.takesStep (c : Core) (n step : Nat) : Bool :=
  match c.run? n with
  | some r => stepMod r.stepNo = stepMod step && r.step.abandon.isNone
  | none => false

/-! ## Finishing a tile -/

/-- A binary32 sum sent up in loam16, stochastically rounded (R126); the conversions count as gradients. -/
def Core.forwardCodes (c : Core) (n : Nat) (acc : List Nat) : Core × List Nat :=
  let res := (List.range acc.length).map (fun i =>
    fLoam.write (.st (Config.rand (c.freeCtr + i))) true (f32.decode (acc.getD i 0)))
  let rep := res.foldl (fun (r : Report) k => r.conv 0 1 2 k) Report.none
  let c1 := rep.census.foldl (fun c e => c.censusAdd n e.1 e.2) { c with freeCtr := c.freeCtr + acc.length }
  (c1, res.map (fun k => k.code))

/-- The bytes of a tile of loam16 codes. -/
def loamBytes (codes : List Nat) : List Byte := codes.flatMap (fun k => leBytes k 2)

/-- Where the presence map of an owner's tree begins (R298). -/
def Core.presenceAt (c : Core) (n t : Nat) : Nat := mapAt (trGrad t) (trRows t * lyCols (c.entry n tLayer (trLayer t)))

/-- One tile's bit of the presence map written. -/
def Core.putPresent (c : Core) (n tset t tile : Nat) (on : Bool) : Core :=
  let at_ := c.presenceAt n t + 8 + tile / 8
  match c.ruRead n tset at_ 1 tile with
  | .error c1 => c1
  | .ok (c1, b) =>
    let v := (b.getD 0 0).toNat
    let w := if bit v (tile % 8) = on then v else if on then v + 2 ^ (tile % 8) else v - 2 ^ (tile % 8)
    match c1.ruWrite n tset at_ [BitVec.ofNat 8 w] tile with
    | .ok c2 => c2
    | .error c2 => c2

/-- A divided tile's bit set; the step's first division into the shard clears the map and writes the step number (R298). -/
def Core.markPresent (c : Core) (n tset t tile : Nat) (first : Bool) : Core :=
  let m := c.presenceAt n t
  if first then
    match c.ruWrite n tset m (leBytes (c.stepOf n) 8 ++ zeros (cdiv (c.treeTiles n t) 8)) tile with
    | .ok c1 => c1.putPresent n tset t tile true
    | .error c1 => c1
  else c.putPresent n tset t tile true

/-- An empty tile's bit cleared (R273); a map of another step reads as all zero and stays. -/
def Core.markEmpty (c : Core) (n tset t tile : Nat) : Core :=
  match c.ruRead n tset (c.presenceAt n t) 8 tile with
  | .error c1 => c1
  | .ok (c1, h) => if ofLe h % 2 ^ 40 = c1.stepOf n then c1.putPresent n tset t tile false else c1

/-- The owner's division of one tile (R273, R274); `first` for the step's first division into the shard. -/
def Core.divideTile (c : Core) (n tset t tile : Nat) (acc : List Nat) (cnt : Nat) (first : Bool) : Core :=
  let d := (f32.round .ne false (Dy.ofInt cnt)).code
  let res := acc.map (fun a => fLoam.write .ne true (f32.decode (f32.div a d)))
  let rep := res.foldl (fun (r : Report) k => r.conv 0 1 2 k) Report.none
  let codes := res.map (fun k => k.code)
  let c1 := rep.census.foldl (fun c e => c.censusAdd n e.1 e.2) c
  let c2 := if codes.all fLoam.isFin then c1 else c1.raiseNonfinite n
  let c3 := c2.modStep n (fun s => { s with normSq := BitVec.ofNat 64 (codes.foldl (fun v k =>
    let w := (fLoam.conv f64 k).code; f64.add v (f64.mul w w)) s.normSq.toNat) })
  match c3.ruWrite n tset (trGrad t + 2048 * tile) (loamBytes codes) tile with
  | .error c4 => c4
  | .ok c4 => c4.markPresent n tset t tile first

/-- An empty tile at the owner (R273). -/
def Core.emptyTile (c : Core) (n tset t tile : Nat) : Core :=
  let c1 := c.modStep n (fun s => { s with emptyTiles := s.emptyTiles + 1 })
  match c1.ruWrite n tset (trGrad t + 2048 * tile) (zeros 2048) tile with
  | .ok c2 => c2.markEmpty n tset t tile
  | .error c2 => c2

/-- The payload of a contribution (R361); the places of its fields are the model's (assumption log). -/
def contribBytes (step t tile cnt : Nat) (codes : List Nat) : List Byte :=
  leBytes step 8 ++ leBytes (trSid t) 4 ++ leBytes tile 4 ++ leBytes cnt 8 ++ leBytes (trPslot t) 4 ++ zeros 4 ++ loamBytes codes

/-- A tile finishes at a node (R272). -/
def Core.finishTile (c : Core) (n tset idx t tile : Nat) : Core :=
  let d := c.node n tset idx t
  let k := d.tile tile
  let first := !(d.tiles.any (fun e => e.1 ≠ tile && e.2.fwd && e.2.cnt ≠ 0))
  let c1 := (c.setNode n tset idx { d with tiles := kset d.tiles tile { k with fwd := true } }).ruCount t 0x408 64 1
  let none_ := k.sent.isEmpty && d.nulls.isEmpty
  if trRole t = 2 ∧ (none_ ∨ k.cnt = 0) then c1.emptyTile n tset t tile
  else if none_ then c1
  else
    match (if k.sent.isEmpty then .ok (c1, zeros 4096) else c1.ruRead n tset (sumAddr t (c.treeTiles n t) tile) 4096 tile) with
    | .error c2 => c2
    | .ok (c2, b) =>
      match c2.tileCheck n tset t tile with
      | (c3, true) => c3
      | (c3, false) =>
      let acc := (List.range 1024).map (fun i => fieldAt b (4 * i) 4)
      if trRole t = 2 then c3.divideTile n tset t tile acc k.cnt first
      else
        let (c2, codes) := c3.forwardCodes n acc
        c2.send n (trParent t) kContrib (contribBytes (c2.stepOf n) t tile k.cnt codes)

/-- A tree's state at this node: whether the node has finished it. A leaf without a gradient has nothing but its null
contribution to send. -/
def Core.treeDone (c : Core) (n tset idx t : Nat) : Bool :=
  let d := c.node n tset idx t
  (trRole t = 0 && !trOwn t) || d.expired ||
  (List.range (c.treeTiles n t)).all (fun k => (d.tile k).fwd || !c.tileTrained n t k)

/-- REDUCE actions whose every tree has finished reach their completion point, and the device may contribute (R107, R275). -/
def Core.checkReduces (c : Core) (n : Nat) : Core :=
  let ended (r : RunAct) : Bool :=
    let tset := aEntry r.a.bits
    (List.range (tsCount (c.entry n tTree tset))).all (fun i => match c.treeAt n tset i with
      | .ok (some t) => c.treeDone n tset i t
      | _ => false)
  let us := (c.cols.filter (fun e => match e.2.run with
    | some r => decide (r.a.op = 0x81 ∧ r.a.ctx = n ∧ r.started ∧ ¬ r.done) && ended r
    | none => false)).map Prod.fst
  (us.foldl (fun c u => c.actDone u) c).tryContribute n

/-! ## Arrivals -/

/-- A late arrival (R272). -/
def Core.lateTile (c : Core) (n tset idx t k : Nat) : Core :=
  if k = 0 then c
  else
    let d := c.node n tset idx t
    ((c.setNode n tset idx { d with late := d.late + k }).ruCount t 0x410 64 k).modStep n
      (fun s => { s with lateTiles := s.lateTiles + k })

/-- The shard's deadline opened by its first arrival (R271), in ticks of the link die's region. -/
def Core.openDeadline (c : Core) (n tset idx t : Nat) : Core :=
  let d := c.node n tset idx t
  match d.deadline, c.treeDie t with
  | none, some die =>
    if trChildN t = 0 then c
    else
      let job := match c.ctx? n with | some x => x.deadline | none => 0
      c.setNode n tset idx { d with deadline := some (c.now (dieRegion die) + 100 * min (job * trHeight t) (2 ^ 32 - 1)) }
  | _, _ => c

/-- The sum of a tile as the arrival leaves it, stochastically rounded (R126), with the NaN events found: the first arrival
writes its sum. -/
def addSums (draw tile : Nat) (first : Bool) (old sum : List Nat) : List Nat × Report :=
  (List.range 1024).foldl (fun (acc : List Nat × Report) i =>
    let w := loamTo32 (sum.getD i 0)
    let rep := if fLoam.isNan (sum.getD i 0) then acc.2.event { cause := 3, row := tile, col := i, kpos := 0, opa := 0, opb := 0 } else acc.2
    if first then (acc.1 ++ [w], rep)
    else
      let r := f32.addR (.st (Config.rand (draw + i))) (old.getD i 0) w
      (acc.1 ++ [r.1], match r.2 with
        | some k => rep.event { cause := k, row := tile, col := i, kpos := 0, opa := 0, opb := 0 }
        | none => rep)) ([], Report.none)

/-- A tile's sum written, its record kept, and the tile finished once every child has sent it. The 16 record bytes in HBM are
free values: the spec gives them no layout (R359). -/
def Core.storeTile (c : Core) (n tset idx t child tile count : Nat) (acc : List Nat) : Core :=
  let d := c.node n tset idx t
  let k := d.tile tile
  let k1 : TreeTile := { k with cnt := min (k.cnt + count) (2 ^ 48 - 1), sent := k.sent ++ [child] }
  let c1 := c.setNode n tset idx { d with tiles := kset d.tiles tile k1 }
  if trRole t = 0 then
   match c1.tileCheck n tset t tile with
   | (c2, true) => c2
   | (c1, false) =>
    let (c2, codes) := c1.forwardCodes n acc
    let d2 := c2.node n tset idx t
    ((c2.setNode n tset idx { d2 with tiles := kset d2.tiles tile { k1 with fwd := true } }).ruCount t 0x408 64 1).send n (trParent t) kContrib (contribBytes (c.stepOf n) t tile k1.cnt codes)
  else
    let rec16 := (List.range 16).map (fun i => BitVec.ofNat 8 (Config.unstated 7 (c1.freeCtr + i)))
    match c1.ruWrite n tset (trArea t + 16 * tile) rec16 tile with
    | .error c2 => c2
    | .ok c2 =>
      match c2.ruWrite n tset (sumAddr t (c.treeTiles n t) tile) (acc.flatMap (fun w => leBytes w 4)) tile with
      | .error c3 => c3
      | .ok c3 =>
        let c4 := { c3 with freeCtr := c3.freeCtr + 16 }
        if (c4.node n tset idx t).complete c.devNum t tile then c4.finishTile n tset idx t tile else c4

/-- A tile arrives at a node from a child or from the device itself (R272). -/
def Core.arriveTile (c : Core) (n tset idx t child tile : Nat) (sum : List Nat) (count : Nat) : Core :=
  let d := c.node n tset idx t
  let k := d.tile tile
  match c.treeDie t with
  | none => c
  | some die =>
  if c.treeTiles n t ≤ tile ∨ !c.tileTrained n t tile then c
  else if d.expired || k.fwd || d.hasSent child tile then c.lateTile n tset idx t 1
  else
    let c1 := c.openDeadline n tset idx t
    let vals := c.maskRows n t tile sum
    let first := k.sent.isEmpty
    match (if first then .ok (c1, zeros 4096) else c1.ruRead n tset (sumAddr t (c.treeTiles n t) tile) 4096 tile) with
    | .error c2 => c2
    | .ok (c2, b) =>
      let c3 := if vals.all fLoam.isFin then c2 else c2.raiseNonfinite n
      let old := (List.range 1024).map (fun i => fieldAt b (4 * i) 4)
      let (acc, rep) := addSums c3.freeCtr tile first old vals
      let c4 := c3.reduceEvents (.ru die) n tset rep
      ({ c4 with freeCtr := c4.freeCtr + 1024 }).storeTile n tset idx t child tile count acc

/-- Every tile that all expected children have sent finishes. -/
def Core.finishReady (c : Core) (n tset idx t : Nat) : Core :=
  (List.range (c.treeTiles n t)).foldl (fun c k =>
    let d := c.node n tset idx t
    if !(d.tile k).fwd && d.complete c.devNum t k && c.tileTrained n t k then c.finishTile n tset idx t k else c) c

/-- A null contribution at a node: it stands for every tile with count 0 and a zero sum (R270). -/
def Core.arriveNull (c : Core) (n tset idx t child : Nat) : Core :=
  let d := c.node n tset idx t
  if d.nulls.contains child then c
  else
    let late := ((List.range (c.treeTiles n t)).filter (fun k =>
      (d.expired || (d.tile k).fwd || d.hasSent child k) && c.tileTrained n t k)).length
    let c1 := (c.openDeadline n tset idx t).lateTile n tset idx t late
    let d1 := c1.node n tset idx t
    let c2 := c1.setNode n tset idx { d1 with nulls := d1.nulls ++ [child] }
    if d1.expired then c2 else c2.finishReady n tset idx t

/-- The tree that a message's parent slot names (R361), or the message misrouted; of an empty slot, counted at logical link die 0
(assumption log). -/
def Core.slotTree (c : Core) (n sid pslot src : Nat) : Except Core (Nat × Nat × Nat) :=
  let tset := bits pslot 27 16
  let idx := pslot % 2 ^ 16
  match c.treeAt n tset idx with
  | .error k => .error (c.reduceFault n tset (readReason k) idx)
  | .ok none => .error (c.ruCount 0 0x418 32 1)
  | .ok (some t) => if trSid t = sid ∧ (trChildren t).contains src then .ok (tset, idx, t) else .error (c.ruCount t 0x418 32 1)

/-- CONTRIB_ARRIVE. -/
def execContribArrive (src job step sid tile count pslot : Nat) (sum : List (BitVec 16)) (s : State) :
    Host.Outcome State Fault Refusal :=
  s.onCore (fun d =>
    match d.c.jobCtx job with
    | none => d.c
    | some n =>
      match d.c.slotTree n sid pslot src with
      | .error c => c
      | .ok (tset, idx, t) =>
        if d.c.takesStep n step then
          (d.c.arriveTile n tset idx t src tile (sum.map BitVec.toNat) (count % 2 ^ 48)).checkReduces n
        else d.c)

/-- NULL_CONTRIB_ARRIVE. -/
def execNullContribArrive (src job step sid pslot : Nat) (s : State) : Host.Outcome State Fault Refusal :=
  s.onCore (fun d =>
    match d.c.jobCtx job with
    | none => d.c
    | some n =>
      match (d.c.hear n src).slotTree n sid pslot src with
      | .error c => c
      | .ok (tset, idx, t) =>
        if d.c.takesStep n step then ((d.c.hear n src).arriveNull n tset idx t src).checkReduces n else d.c.hear n src)

/-- REDUCE_DEADLINE: the shard's deadline has come, and every tile not finished finishes without the missing children. -/
def execReduceDeadline (ctx tset idx : Nat) (s : State) : Host.Outcome State Fault Refusal :=
  s.onCore (fun d =>
    match d.c.treeAt ctx tset idx with
    | .error k => d.c.reduceFault ctx tset (readReason k) idx
    | .ok none => d.c
    | .ok (some t) =>
      let nd := d.c.node ctx tset idx t
      match nd.deadline with
      | none => d.c
      | some at_ =>
        if nd.expired || (match d.c.treeDie t with | some die => decide (d.c.now (dieRegion die) < at_) | none => true) then d.c
        else
          let c1 := (List.range (d.c.treeTiles ctx t)).foldl (fun c k =>
            if !((c.node ctx tset idx t).tile k).fwd && c.tileTrained ctx t k then c.finishTile ctx tset idx t k else c) d.c
          let n1 := c1.node ctx tset idx t
          (c1.setNode ctx tset idx { n1 with expired := true }).checkReduces ctx)

/-! ## The device's own contribution (R360) -/

/-- The device's count, read from the buffer's header when its first tile arrives. -/
def Core.ownCount (c : Core) (n tset idx t : Nat) : Except Core (Core × Nat) :=
  let d := c.node n tset idx t
  match d.own with
  | some k => .ok (c, k)
  | none => match c.ruRead n tset (trCbuf t) 8 0 with
    | .ok (c1, b) => .ok (c1.setNode n tset idx { d with own := some (ofLe b % 2 ^ 48) }, ofLe b % 2 ^ 48)
    | .error c1 => .error c1

/-- One tile of the contribution buffer is whole. -/
def Core.ownTile (c : Core) (n tset idx t tile : Nat) : Core :=
  match c.ownCount n tset idx t with
  | .error c1 => c1
  | .ok (c1, k) =>
    match c1.ruRead n tset (trCbuf t + 256 + 2048 * tile) 2048 tile with
    | .error c2 => c2
    | .ok (c2, b) => c2.arriveTile n tset idx t c.devNum tile ((List.range 1024).map (fun i => fieldAt b (2 * i) 2)) k

/-- Trees with a gradient of this device whose contribution buffer a stretch touches: set, index, entry. -/
def Core.ownTrees (c : Core) (n a len : Nat) : List (Nat × Nat × Nat) :=
  match c.ctx? n with
  | none => []
  | some x => (x.tables.filter (fun e => e.1.1 = tTree)).flatMap (fun e =>
      (List.range (tsCount e.2)).filterMap (fun i => match c.treeAt n e.1.2 i with
        | .ok (some t) =>
          if trOwn t ∧ overlaps a len (trCbuf t + 256) (2048 * c.treeTiles n t) then some (e.1.2, i, t) else none
        | _ => none))

/-- Bytes of a contribution buffer that a pass of the step has written; tiles that they complete arrive at their node. -/
def Core.ownWritten (c : Core) (n a len : Nat) : Core :=
  if (c.job? n).isNone || !(c.takesStep n (c.stepOf n)) then c
  else
    (c.ownTrees n a len).foldl (fun c e =>
      let base := trCbuf e.2.2 + 256
      let lo := max a base - base
      let hi := min (a + len) (base + 2048 * c.treeTiles n e.2.2) - base
      (List.range (cdiv hi 2048 - lo / 2048)).foldl (fun c j =>
        let tile := lo / 2048 + j
        let old := match c.ctx? n with | some x => kgetD x.cbuf (e.1, e.2.1, tile) 0 | none => 0
        let s := max lo (2048 * tile) - 2048 * tile
        let f := min hi (2048 * (tile + 1)) - 2048 * tile
        let new := old ||| ((2 ^ (f - s) - 1) * 2 ^ s)
        let c1 := c.modCtx n (fun x => { x with cbuf := kset x.cbuf (e.1, e.2.1, tile) new })
        if new = 2 ^ 2048 - 1 ∧ old ≠ new then c1.ownTile n e.1 e.2.1 e.2.2 tile else c1) c) c |>.checkReduces n

/-! ## REDUCE -/

/-- The areas of a tree stand in floor objects (R359). -/
def Core.treeAreas (c : Core) (n t : Nat) : Bool :=
  match c.ctx? n with
  | none => false
  | some x =>
    let nt := c.treeTiles n t
    (!(trOwn t) || x.inFloor (trCbuf t) (256 + 2048 * nt)) &&
    (trRole t = 0 || x.inFloor (trArea t) (sumAddr t nt nt - trArea t)) &&
    (trRole t ≠ 2 || x.inFloor (trGrad t) (mapAt (trGrad t) (1024 * nt) + 8 + cdiv nt 8 - trGrad t))

/-- What a REDUCE does first (R270, R272): a leaf without a gradient of its own sends its null contribution once, and nodes finish
what waits for nobody. -/
def Core.reduceStart (c : Core) (u : UnitId) (n tset : Nat) (ts : List Nat) : Core :=
  (List.range ts.length).foldl (fun c i =>
    let t := ts.getD i 0
    let begun := match c.ctx? n with | some x => (kget x.nodes (tset, i)).isSome | none => false
    if trOwn t then c
    else if trRole t = 0 then
      (if begun then c
       else (c.setNode n tset i (Node.fresh c.devNum t)).send n (trParent t) kNull
         (leBytes (c.stepOf n) 8 ++ leBytes (trSid t) 4 ++ leBytes (trPslot t) 4))
    else c.finishReady n tset i t) (c.modRunning u (fun q => { q with started := true }))

/-- REDUCE begins: its checks (R105, R359), then a null contribution of each leaf without a gradient, and the tiles of nodes that
wait for nobody. -/
def Core.reduceBegin (c : Core) (die : Nat) : Core :=
  let u := UnitId.ru die
  match c.active u 0x81 with
  | none => c
  | some r =>
    let n := r.a.ctx
    let tset := aEntry r.a.bits
    let e := c.entry n tTree tset
    if r.started then c.checkReduces n
    else if e = 0 then c.actionFault u 4 tset
    else match c.actionReads u n [(tsList e, 128 * tsCount e)] with
    | (c1, true) => c1
    | (c, false) =>
      let trees := (List.range (tsCount e)).map (fun i => c.treeAt n tset i)
      match trees.findSome? (fun t => match t with | .error k => some k | _ => none) with
      | some k => c.actionFault u (readReason k) tset
      | none =>
        let ts := trees.filterMap (fun t => match t with | .ok o => o | .error _ => none)
        if !(match c.treeSetOk n e with | .ok b => b | .error _ => false) || !(ts.all (c.treeAreas n)) then c.actionFault u 4 tset
        else (c.reduceStart u n tset ts).checkReduces n

/-- REDUCE. -/
def execReduce (die : Nat) (s : State) : Host.Outcome State Fault Refusal :=
  s.guard (isLinkDie die) (fun d => d.c.reduceBegin die)

end Sys2Proof.Machine
end

