-- ==== Sys2Proof/Machine/Verdict.lean ====
section
/-!
DEFINITION. The verdict exchange between devices: the VERDICT action, contributions and records, beats, lost devices and the
successor root (R107, R275 to R284, R368).
-/
namespace Sys2Proof.Machine
open Sys2Proof

/-! ## VERDICT -/

/-- VERDICT has begun: the contribution goes when every REDUCE before it is complete, and the action is done once the record is
there. A context bound to no job has no verdict tree: the action waits. -/
def Core.verdictAct (c : Core) (die : Nat) : Core :=
  let u := UnitId.ru die
  match c.active u 0x82 with
  | none => c
  | some r =>
    if (c.stepSt r.a.ctx).verdict.isSome then c.actDone u
    else (c.modStep r.a.ctx (fun s => { s with contribPending := true })).tryContribute r.a.ctx

/-- VERDICT. -/
def execVerdict (die : Nat) (s : State) : Host.Outcome State Fault Refusal :=
  s.guard (isLinkDie die) (fun d => d.c.verdictAct die)

/-! ## Losses (R279 to R281) -/

/-- A context's job changed. -/
def Core.modJob (c : Core) (n : Nat) (f : Job → Job) : Core := c.modCtx n (fun x => { x with job := x.job.map f })

/-- A device counted as lost; the job enters recovery (R368). -/
def Core.declareLost (c : Core) (n dev : Nat) : Core :=
  (c.modJob n (fun j => { j with
    lost := if j.lost.contains dev then j.lost else j.lost ++ [dev], recovery := true, anyLoss := true })).modVnode n
      (fun v => { v with polling := v.polling.map (fun l => l.erase dev) })

/-- The device that acts as the root as far as this device knows. -/
def Job.rootNow (j : Job) : Nat := if j.lost.contains j.root then j.heir.getD j.root else j.root

/-- The step that a loss abandons (R280): the one under collection, else the device's own step, or the step after the last decided where
that one is decided already. -/
def Core.collecting (c : Core) (n : Nat) : Nat :=
  let v := c.vnode n
  match v.got.map (fun e => e.2.step), v.decided with
  | a :: r, _ => r.foldl min a
  | [], some d => max (d + 1) (c.stepOf n)
  | [], none => c.stepOf n

/-- The root's handling of a loss notice (R280). -/
def Core.lossAtRoot (c : Core) (n dev : Nat) : Core :=
  let s := c.collecting n
  ((c.rootDecide n (c.abandonRecord n s 0x08 (some dev) true ((c.vnode n).had s))).contributeLater n).send n dev kLoss (leBytes dev 2)

/-- The successor has heard from every live device: a record held for the step under collection stands, else the step is
abandoned; contributions that waited are taken (R281). -/
def Core.pollDone (c : Core) (n : Nat) : Core :=
  let v := c.vnode n
  match v.polling with
  | some [] =>
    let c1 := c.modVnode n (fun q => { q with polling := none, polled := none, later := [] })
    let c2 := match v.polled with
      | some r =>
        let c3 := (c1.modVnode n (fun q => { q with decided := some r.step })).spreadRecord n r
        (match (c1.vnode n).latest with
         | some l => if l.step = r.step then c3 else c3.deliverRecord n r
         | none => c3.deliverRecord n r)
      | none => (match c.job? n with
        | some j => c1.rootDecide n (c1.abandonRecord n (c.stepOf n) 0x08 j.lost.head? true (v.had (c.stepOf n)))
        | none => c1)
    v.later.foldl (fun c e => c.contribute n e.1 e.2) c2
  | _ => c

/-- This device becomes the root after the loss of `dev`, which was (R281): it asks every live device for its latest record by passing on
the notice. -/
def Core.becomeRoot (c : Core) (n : Nat) (j : Job) (dev : Nat) : Core :=
  let s := c.stepOf n
  let mine := match (c.vnode n).latest with | some r => if r.step = s then some r else none | none => none
  let c1 := (c.modJob n (fun q => { q with actingRoot := true })).modVnode n (fun q => { q with
    decided := q.latest.map (fun r => r.step), polling := some (j.live c.devNum), polled := mine })
  ((j.live c.devNum).foldl (fun c d => c.send n d kLoss (leBytes dev 2)) c1).pollDone n

/-- What a device without a record sends in its place (DESIGN CHOICE, assumption log): decision 3, which decides nothing. -/
def Core.nullRecord (c : Core) (n : Nat) : VRecord :=
  { step := c.stepOf n, decision := 3, flags := 0, cause := 0, origin := 0, root := c.devNum, normSq := 0, devices := 0, empty := 0, late := 0 }

/-- The latest record sent to the first live successor (R281). -/
def Core.sendLatest (c : Core) (n dst : Nat) : Core :=
  c.send n dst kVerdRecord (vrBytes ((c.vnode n).latest.getD (c.nullRecord n)) 0)

/-- The loss of a device taken into account here: by the root, by the successor of a root, the first or one that acted, or by another
device. -/
def Core.afterLoss (c : Core) (n dev : Nat) (notify : Bool) : Core :=
  match c.job? n with
  | none => c
  | some j =>
    if j.rootHere then c.lossAtRoot n dev
    else if dev = { j with lost := j.lost.erase dev }.rootNow then
      (match j.heir with
       | some h =>
         if h = c.devNum then c.becomeRoot n j dev
         else (if notify then c.send n h kLoss (leBytes dev 2) else c).sendLatest n h
       | none => c)
    else if notify then c.send n j.rootNow kLoss (leBytes dev 2)
    else c

/-- Whether a device is a neighbour of this one in the verdict tree. -/
def Job.neighbour (j : Job) (dev : Nat) : Bool := (!j.isRoot && j.parent = dev) || j.children.contains dev

/-- LIVENESS_TIMEOUT: a neighbour silent for the liveness timeout. -/
def execLivenessTimeout (ctx dev : Nat) (s : State) : Host.Outcome State Fault Refusal :=
  s.onCore (fun d =>
    match d.c.ctx? ctx with
    | none => d.c
    | some x =>
      match x.job with
      | none => d.c
      | some j =>
        if !(j.neighbour dev) || j.lost.contains dev || d.c.now 0 < kgetD j.heard dev 0 + 100000 * x.liveMs then d.c
        else ((d.c.declareLost ctx dev).afterLoss ctx dev true).pollDone ctx)

/-! ## Beats (R279) -/

/-- BEAT_SEND. -/
def execBeatSend (ctx : Nat) (s : State) : Host.Outcome State Fault Refusal :=
  s.onCore (fun d =>
    match d.c.ctx? ctx with
    | none => d.c
    | some x =>
      match x.job with
      | none => d.c
      | some j =>
        let halted := match x.run with | some r => r.halted | none => false
        if halted || x.stopped || d.c.devState = .stopped then d.c
        else ((if j.isRoot then [] else [j.parent]) ++ j.children).foldl (fun c n => c.send ctx n kBeat []) d.c)

/-- BEAT_ARRIVE. -/
def execBeatArrive (src job : Nat) (s : State) : Host.Outcome State Fault Refusal :=
  s.onCore (fun d => match d.c.jobCtx job with
    | some n => d.c.hear n src
    | none => d.c)

/-! ## Contributions and records -/

/-- VERD_CONTRIB_ARRIVE. -/
def execVerdContribArrive (src job : Nat) (v : VContrib) (s : State) : Host.Outcome State Fault Refusal :=
  s.onCore (fun d => match d.c.jobCtx job with
    | some n => ((d.c.hear n src).contribute n src v).pollDone n
    | none => d.c)

/-- A record taken as this device's next one: the losses it reports, the way down the tree, its delivery (R278, R284, R368). -/
def Core.takeRecord (c : Core) (n src : Nat) (j : Job) (v : VRecord) : Core :=
  let c1 := if v.flags.getLsbD 3 then
      (c.modJob n (fun q => { q with recovery := true, anyLoss := true })).modJob n (fun q =>
        let dev := v.origin.toNat % 2 ^ 15
        if v.origin.getLsbD 15 && v.cause = 0x08 && !(q.lost.contains dev) then { q with lost := q.lost ++ [dev] } else q)
    else c
  let c2 := if src = j.parent ∧ ¬ v.flags.getLsbD 3 ∧ ¬ j.anyLoss then
      j.children.foldl (fun c d => c.send n d kVerdRecord (vrBytes v 0)) c1
    else c1
  (c2.deliverRecord n v).contributeLater n

/-- VERD_RECORD_ARRIVE. -/
def execVerdRecordArrive (src job : Nat) (v : VRecord) (s : State) : Host.Outcome State Fault Refusal :=
  s.onCore (fun d =>
    match d.c.jobCtx job with
    | none => d.c
    | some n =>
      let c := d.c.hear n src
      match c.job? n with
      | none => c
      | some j =>
        if (c.vnode n).polling.isSome then
          (c.modVnode n (fun q => { q with
            polling := q.polling.map (fun l => l.erase src),
            polled := if v.step = c.stepOf n ∧ v.decision ≤ 2 then some v else q.polled })).pollDone n
        else
          let seen := match (c.vnode n).latest with | some l => decide (v.step ≤ l.step) | none => false
          if j.rootHere || seen || v.step < c.stepOf n || 2 < v.decision then c
          else c.takeRecord n src j v)

end Sys2Proof.Machine
end

