-- ==== Sys2Proof/Machine/Walk.lean ====
section
/-!
DEFINITION. The walk of a stream pass: its tiles and elements, the memory address of an element, index streams, memory reads and
writes by global address, and the faults that a tile meets (R34 to R37, R169 to R175, R181 to R186, R209 to R211, R440, R441).
-/
namespace Sys2Proof.Machine
open Sys2Proof

/-! ## Tiles and elements (R171) -/

/-- Tiles of a pass. -/
def planeTiles (d : Nat) : Nat := cdiv (dLen d 1) 32 * cdiv (dLen d 0) 32
def passTiles (d : Nat) : Nat :=
  if dFlat d then cdiv (dLen d 0 * dLen d 1 * dLen d 2 * dLen d 3 * dLen d 4) 1024
  else dLen d 2 * dLen d 3 * dLen d 4 * planeTiles d

/-- Element slots of a tile: 1,024, fewer in the last tile of a flat pass. -/
def tileSlots (d n : Nat) : Nat :=
  if dFlat d then min 1024 (dLen d 0 * dLen d 1 * dLen d 2 * dLen d 3 * dLen d 4 - 1024 * n) else 1024

/-- The five indices of element slot e of tile n, whether or not they lie within the lengths. -/
def rawPos (d n e : Nat) : List Nat :=
  if dFlat d then
    let g := 1024 * n + e
    let q1 := g / dLen d 0
    let q2 := q1 / dLen d 1
    let q3 := q2 / dLen d 2
    [g % dLen d 0, q1 % dLen d 1, q2 % dLen d 2, q3 % dLen d 3, q3 / dLen d 3]
  else
    let pt := max 1 (planeTiles d)
    let ct := max 1 (cdiv (dLen d 0) 32)
    let pl := n / pt
    let q3 := pl / dLen d 2
    [32 * (n % pt % ct) + e % 32, 32 * (n % pt / ct) + e / 32, pl % dLen d 2, q3 % dLen d 3, q3 / dLen d 3]

/-- The indices of a real element; none for padding. -/
def elemPos (d n e : Nat) : Option (List Nat) :=
  let p := rawPos d n e
  if p.getD 0 0 < dLen d 0 ∧ p.getD 1 0 < dLen d 1 then some p else none

/-! ## Index streams (R174, R175, R209) -/

/-- What a position of the index dimension takes: a hole, a slice at an index, or a slice of a page at its global address. -/
inductive Slice where
  | hole
  | index (i : Nat)
  | page (addr : Nat)
  deriving DecidableEq, Repr

/-- The index that a list or a list of pairs supplies at a position, with the entry it comes from; none once it has run out. -/
def supplyPairs : List Nat → Nat → Nat → Option (Nat × Nat)
  | [], _, _ => none
  | e :: r, ent, pos =>
    let cnt := e / 2 ^ 32
    if pos < cnt then some (if e % 2 ^ 32 = 0xFFFFFFFF then 0xFFFFFFFF else e % 2 ^ 32 + pos, ent)
    else supplyPairs r (ent + 1) (pos - cnt)
def supply (kind : Nat) (es : List Nat) (pos : Nat) : Option (Nat × Nat) :=
  if kind = 2 then supplyPairs es 0 pos else es[pos]?.map (fun v => (v, pos))

/-- Indices that an index stream supplies in all. -/
def supplied (kind : Nat) (es : List Nat) : Nat := if kind = 2 then (es.map (fun e => e / 2 ^ 32)).sum else es.length

/-- Indices of the memory side of an element: the position on the index dimension gives way to its slice's index. -/
def memIndices (d : Nat) (sl : Slice) (pos : List Nat) : List Nat :=
  match sl with
  | .index i => if dIdxEn d then pos.set (dIdxDim d) i else pos
  | _ => pos

/-- The bit address of an element on the memory side (R169, R210). -/
def elemBit (d : Nat) (sl : Slice) (pos : List Nat) : Int :=
  let mi := memIndices d sl pos
  let paged : Bool := match sl with | .page _ => true | _ => false
  let base : Int := match sl with | .page a => ((a + dBase d % 2 ^ 45 : Nat) : Int) | _ => ((dBase d : Nat) : Int)
  let off := ((List.range 5).map (fun n =>
    if paged && n = dIdxDim d then (0 : Int) else (mi.getD n 0 : Int) * dStride d n)).foldl (· + ·) 0
  8 * (base + off) +
    (if fmtBits (dMem d) < 8 && !(paged && dIdxDim d = 0) then ((mi.getD 0 0 * fmtBits (dMem d) : Nat) : Int) else 0)

/-- The grain of an element on the memory side (R169). -/
def grainOf (d : Nat) (sl : Slice) (pos : List Nat) : Nat :=
  let mi := memIndices d sl pos
  (((mi.getD 4 0 * dLen d 3 + mi.getD 3 0) * dLen d 2 + mi.getD 2 0) * dLen d 1 + mi.getD 1 0) * cdiv (dLen d 0) 32 + mi.getD 0 0 / 32

/-! ## What stops a tile -/

/-- Why a tile is not moved now: nothing to do yet, READs to issue, a stream fault (cause, global address, write, index stream,
index entry), an action fault, a page copy to wait for, or a version that abandons the step for a cause (R265). -/
inductive Stop where
  | wait
  | miss (reads : List (Nat × Nat))
  | fault (cause addr : Nat) (write index : Bool) (ix : Option Nat)
  | act (reason detail : Nat)
  | copy
  | stale (cause : Nat)
  deriving DecidableEq, Repr

/-- The global address of a local one. -/
def Core.globalOf (c : Core) (a : Nat) : Nat := c.devNum * 2 ^ 45 + a

/-- Where the first stretch of a local range that cannot be read begins. -/
def Core.firstBad (c : Core) (n l len : Nat) : Nat :=
  ((chunks l (len + 1) len).findSome? (fun k => match c.readChunk n k.1 k.2 with | .error _ => some k.1 | .ok _ => none)).getD l

/-- Bytes at a global address through a pass's context: HBM, sealed or plain host memory, or what READs have brought in. -/
def Core.gRead (c : Core) (p : Pass) (a : Int) (len : Nat) (index : Bool) : Except Stop (List Byte) :=
  if a < 0 ∨ 2 ^ 60 ≤ a + len then .error (.fault 4 (a % 2 ^ 60).toNat false index none)
  else
    let g := a.toNat
    match c.localOf g with
    | some l => (match c.readBytes p.ctx l len with
      | .ok b => .ok b
      | .error k => .error (.fault k (c.globalOf (c.firstBad p.ctx l len)) false index none))
    | none =>
      if inWindow g ∨ hbmEnd ≤ g % 2 ^ 45 then .error (.fault 4 g false index none)
      else if (List.range len).all (fun i => (mget p.remote (g + i)).isSome) then
        .ok ((List.range len).map (fun i => (mget p.remote (g + i)).getD 0))
      else .error (.miss [(g, len)])

/-- A list of reads, all made: the first fault decides, READs still missing are asked for together. -/
def gatherReads (l : List (Except Stop (List Byte))) : Except Stop (List (List Byte)) :=
  let bad := l.findSome? (fun r => match r with
    | .error (.miss _) => none
    | .error e => some e
    | .ok _ => none)
  match bad with
  | some e => .error e
  | none =>
    let miss := l.flatMap (fun r => match r with | .error (.miss m) => m | _ => [])
    if miss.isEmpty then .ok (l.map (fun r => match r with | .ok b => b | .error _ => []))
    else .error (.miss miss)

/-- An element's code read at a bit address. -/
def Core.codeBits (c : Core) (p : Pass) (b : Int) (n : Nat) : Except Stop (List Byte) :=
  c.gRead p (b / 8) (((b % 8).toNat + n + 7) / 8) false
def codeFrom (bytes : List Byte) (b : Int) (n : Nat) : Nat := ofLe bytes / 2 ^ (b % 8).toNat % 2 ^ n

/-! ## Writes -/

/-- Bits to write, by byte: the bits written and their values. -/
structure Patch where
  mask : Mem
  vals : Mem
  deriving DecidableEq, Repr

def Patch.empty : Patch := { mask := [], vals := [] }

/-- `n` bits of a code put at a bit address. -/
def Patch.put (w : Patch) (b n code : Nat) : Patch :=
  let s := b % 8
  let m := (2 ^ n - 1) * 2 ^ s
  let v := code % 2 ^ n * 2 ^ s
  (List.range ((s + n + 7) / 8)).foldl (fun (w : Patch) i =>
    let a := b / 8 + i
    { mask := mput w.mask a ((mget w.mask a).getD 0 ||| BitVec.ofNat 8 (m / 256 ^ i)),
      vals := mput w.vals a (((mget w.vals a).getD 0 &&& ~~~(BitVec.ofNat 8 (m / 256 ^ i))) ||| BitVec.ofNat 8 (v / 256 ^ i)) }) w

/-- Whole bytes put. -/
def Patch.bytes (w : Patch) (a : Nat) (l : List Byte) : Patch :=
  (List.range l.length).foldl (fun (w : Patch) i => w.put (8 * (a + i)) 8 (l.getD i 0).toNat) w

/-- Runs of consecutive bytes of a memory. -/
def runsOf : Mem → List (Nat × List Byte)
  | [] => []
  | (a, b) :: r => match runsOf r with
    | (a', l) :: rest => if a' = a + 1 then (a, b :: l) :: rest else (a, [b]) :: (a', l) :: rest
    | [] => [(a, [b])]

/-- A byte as memory holds it, poison or not, for the bits of it that a write leaves alone. -/
def Core.oldByte (c : Core) (p : Pass) (g : Nat) : Byte :=
  match c.localOf g with
  | some l => (match c.locate p.ctx l with
    | .hbm q _ => (mget c.hbm q).getD 0
    | .host _ bus _ => (c.hostRead bus 1).getD 0 0
    | .fault _ _ => 0)
  | none => (mget p.remote g).getD 0

/-- The runs of bytes that a patch writes. -/
def Core.patchRuns (c : Core) (p : Pass) (w : Patch) : List (Nat × List Byte) :=
  runsOf (w.vals.map (fun e =>
    let m := (mget w.mask e.1).getD 0
    (e.1, if m = 0xFF then e.2 else (c.oldByte p e.1 &&& ~~~m) ||| e.2)))

/-- Whether a local stretch lies in window frames of a confidential context, where writes are whole sealed units (R441). -/
def Core.sealed (c : Core) (n l : Nat) : Bool := (match c.ctx? n with | some x => x.conf | none => false) && inWindow l

/-- The first thing that keeps a run from being written through a context. -/
def Core.runStop (c : Core) (n : Nat) (a : Nat) (len tile : Nat) : Option Stop :=
  if 2 ^ 60 ≤ a + len then some (.fault 4 (a % 2 ^ 60) true false none)
  else
    match c.localOf a with
    | none => if inWindow a ∨ hbmEnd ≤ a % 2 ^ 45 then some (.fault 4 a true false none) else none
    | some l =>
      match (chunks l (len + 1) len).findSome? (fun k => match c.locate n k.1 with
        | .fault q _ => some (q, k.1)
        | _ => none) with
      | some (q, b) => some (.fault q (c.globalOf b) true false none)
      | none =>
        if c.sealed n l then
          (if l % 4096 ≠ 0 ∨ len % 4096 ≠ 0 then some (.act 0x0A tile)
           else match c.ctx? n with
             | some x => if (List.range (len / 4096)).all (fun i => (kget x.sealArea ((l + 4096 * i - winLo) / plotBytes)).isSome)
                 then none else some (.fault 4 (c.globalOf l) true false none)
             | none => some (.fault 4 (c.globalOf l) true false none))
        else none

/-- One unit sealed and written, its data before its entry (R440, R441). -/
def Core.sealUnit (c : Core) (n l : Nat) (b : List Byte) : Core :=
  match c.ctx? n with
  | none => c
  | some x =>
    let f := (l - winLo) / plotBytes
    let u := l % plotBytes / 4096
    match kget x.sealArea f, kget c.frames f, x.dataKey with
    | some ar, some fr, some k =>
      let nonce := 2 ^ 95 + k.sealCtr % 2 ^ 95
      let (ct, tag) := Config.gcmSeal k.key nonce (sealAad n f u k.keyId) b
      ((c.dma (fr.addr + 4096 * u) ct).dma (ar + 32 * u) (leBytes nonce 12 ++ zeros 4 ++ tag)).modCtx n
        (fun x => { x with dataKey := some { k with sealCtr := k.sealCtr + 1 } })
    | _, _, _ => c

/-- The stash high-water mark after a write (R266). -/
def Core.raiseStash (c : Core) (n l len : Nat) : Core :=
  match c.ctx? n with
  | none => c
  | some x =>
    match x.objOf n x.stash with
    | none => c
    | some (_, o) =>
      let spill := match x.objOf n x.spill with | some (_, q) => q.size | none => 0
      if o.base ≤ l ∧ l < o.base + o.size + spill then
        c.modCtx n (fun x => { x with stashHigh := max x.stashHigh (l + len - o.base) })
      else c

/-- Pieces of at most `k` bytes. -/
def pieces (k : Nat) (a : Nat) (l : List Byte) : Nat → List (Nat × List Byte)
  | 0 => []
  | fuel + 1 => if l.isEmpty then [] else (a, l.take k) :: pieces k (a + k) (l.drop k) fuel

/-- A remote write's messages (R338), each kept until its WRITE_DONE; the tags are the pass's. -/
def Core.writeRemote (c : Core) (n : Nat) (u : UnitId) (a : Nat) (l : List Byte) : Core × List Nat :=
  (pieces 7168 a l (l.length + 1)).foldl (fun (acc : Core × List Nat) q =>
    let tag := acc.1.nextTag % 2 ^ 20
    (acc.1.request n (q.1 / 2 ^ 45) kWrite (leBytes (q.1 % 2 ^ 45) 8 ++ q.2) u, acc.2 ++ [tag])) (c, [])

/-- Runs written through a context that nothing stops: local bytes, sealed units, or WRITEs. Answers the tags to await. -/
def Core.commit (c : Core) (n : Nat) (u : UnitId) (runs : List (Nat × List Byte)) : Core × List Nat :=
  runs.foldl (fun (acc : Core × List Nat) r =>
    match acc.1.localOf r.1 with
    | none =>
      let (c1, tags) := acc.1.writeRemote n u r.1 r.2
      (c1, acc.2 ++ tags)
    | some l =>
      let c1 := if acc.1.sealed n l then
          (pieces 4096 l r.2 (r.2.length + 1)).foldl (fun c q => c.sealUnit n q.1 q.2) acc.1
        else match acc.1.writeBytes n l r.2 with | .ok c2 => c2 | .error e => e.2
      (((c1.touchAt n l).raiseStash n l r.2.length).ownWritten n l r.2.length, acc.2)) (c, [])

/-- The first stop among runs. -/
def Core.runsStop (c : Core) (p : Pass) (tile : Nat) (runs : List (Nat × List Byte)) : Option Stop :=
  runs.findSome? (fun r => c.runStop p.ctx r.1 r.2.length tile)

/-! ## Gathered versions (R264, R265) -/

/-- One version returned with a read: the ledger takes it, or the step is to be abandoned and the pass stops. -/
def Core.ledgerTake (c : Core) (n sid ver : Nat) : Core × Option Stop :=
  match c.ctx? n with
  | none => (c, none)
  | some x =>
    match kget x.ledger sid with
    | some (s, g) => (c, if (s, g) = (ver % 2 ^ 40, ver / 2 ^ 40 % 2 ^ 8) then none else some (.stale 0x04))
    | none =>
      if 131072 ≤ x.ledger.length then (c, some (.stale 0x0B))
      else (c.modCtx n (fun x => { x with ledger := kset x.ledger sid (ver % 2 ^ 40, ver / 2 ^ 40 % 2 ^ 8) }), none)

/-- Versions taken in turn, up to one that stops the pass. -/
def Core.ledgerTakes (c : Core) (n : Nat) (vs : List (Nat × Nat)) : Core × Option Stop :=
  vs.foldl (fun (acc : Core × Option Stop) v => if acc.2.isNone then acc.1.ledgerTake n v.1 v.2 else acc) (c, none)

/-- The versions of local stretches. -/
def Core.ledgerAll (c : Core) (n : Nat) (reads : List (Nat × Nat)) : Core × Option Stop :=
  c.ledgerTakes n ((reads.flatMap (fun r => match c.localOf r.1 with | some l => c.versions n l r.2 | none => [])).eraseDups)

/-- Local stretches that a tile has read, touched (R235). -/
def Core.touchReads (c : Core) (n : Nat) (reads : List (Nat × Nat)) : Core :=
  ((reads.filterMap (fun r => c.localOf r.1)).map (fun l => l / plotBytes)).eraseDups.foldl (fun c q => c.touchAt n (q * plotBytes)) c

/-- The HBM words of local stretches that a pass reads, each checked once (R248, R464): a parity error is to fault its action. -/
def Core.wordChecks (c : Core) (n : Nat) (reads : List (Nat × Nat)) : Core × Option Stop :=
  if c.hbmQuiet then (c, none)
  else ((reads.flatMap (fun r => match c.localOf r.1 with
    | some l => chunks l (r.2 + 1) r.2
    | none => [])).map (fun k => k.1 / 64)).eraseDups.foldl (fun (acc : Core × Option Stop) w =>
      if acc.2.isSome then acc
      else match acc.1.hbmRead n (64 * w) 64 with
        | (c1, true) => (c1, some (.act 9 0))
        | (c1, false) => (c1, none)) (c, none)

/-! ## Stops and parks (R181 to R184, R267) -/

/-- The cursor of a tile: the five indices of its first element and the index-stream entry of that position. -/
def Core.cursorOf (c : Core) (p : Pass) : List Nat × Nat :=
  let pos := rawPos p.image p.tile 0
  let i := pos.getD (dIdxDim p.image) 0
  let kind := dKind (c.entry p.ctx tDesc (dIdxDesc p.image))
  (pos, if dIdxEn p.image then (match supply kind p.index i with | some (_, e) => if kind = 2 then e else i | none => i) else 0)

/-- An engine changed. -/
def Core.modEngine (c : Core) (d e : Nat) (f : Engine → Engine) : Core := { c with engines := kmod c.engines (d, e) f }

/-- A pass put back into its engine, with its cursor shown. -/
def Core.setPass (c : Core) (d e : Nat) (p : Pass) : Core :=
  let k := c.cursorOf p
  c.modEngine d e (fun g => { g with pass := some p, cursor := k.1, curTile := p.tile, curIx := k.2 })

/-- The object handle at a global address. -/
def Core.handleAt (c : Core) (n g : Nat) : Nat :=
  match c.localOf g, c.ctx? n with
  | some l, some x => (match x.objAt l with | some (i, o) => handleOf n i o.gen | none => 0)
  | _, _ => 0

/-- The unresolved-fault path (R184): a record if none is pending, the pass stopped and its action complete, the abandon flag. -/
def Core.unresolved (c : Core) (d e : Nat) (p : Pass) (cause addr flags ix abandon : Nat) : Core :=
  let u := UnitId.se d e
  let k := c.cursorOf p
  let c1 := if p.ff ≠ 0 then c
    else c.writeFault p.ctx d e cause addr (c.handleAt p.ctx addr) p.desc (flags + 8) p.tile k.1 ix
  let c2 := match c.running u with | some r => c1.stopAction u r.a | none => c1
  (c2.modEngine d e (fun g => { g with stopping := true, cursor := k.1, curTile := p.tile, curIx := k.2, faultAddr := addr })).setAbandon
    p.ctx abandon

/-- A pass parked (R182), with its record unless the device itself resolves the fault (R267). -/
def Core.park (c : Core) (d e : Nat) (p : Pass) (cause addr flags ix : Nat) (record : Bool) : Core :=
  let k := c.cursorOf p
  let c1 := if record then c.writeFault p.ctx d e cause addr (if cause = 3 then 0 else c.handleAt p.ctx addr) p.desc flags p.tile k.1 ix else c
  ((c1.setPass d e { p with parked := some cause, faultAddr := addr % 2 ^ 45, faultIx := ix, ff := if record then flags else 0, fside := flags / 2 % 4 }).modEngine d e
    (fun g => { g with faultAddr := addr })).bump (subBase d 7 e + 0x440) 32 1

/-- A stream fault taken (R181); cause 7, a sealed unit that does not authenticate, counts and is reported as poison (R441). -/
def Core.streamFault (c : Core) (d e : Nat) (p : Pass) (cause addr : Nat) (write index : Bool) (ix : Option Nat) : Core :=
  let c := if cause = 7 then c.authFail else c
  let cause := if cause = 7 then 5 else cause
  let k := c.cursorOf p
  let entry := ix.getD k.2
  let flags := 2 * b2n index + 4 * b2n write
  if cause = 4 ∨ cause = 5 ∨ cause = 6 then c.unresolved d e p cause addr flags entry 0x02
  else
    let spill : Option (Nat × Nat) := match c.localOf addr, c.ctx? p.ctx with
      | some l, some x => (match x.objAt l with
        | some (i, o) => if cause = 1 ∧ x.spill ≠ 0 ∧ x.spill = handleOf p.ctx i o.gen then some (i, (l - o.base) / plotBytes) else none
        | none => none)
      | _, _ => none
    match spill with
    | none => c.park d e p cause addr (1 + flags) entry true
    | some (i, plot) =>
      match c.resolveSpill p.ctx i plot with
      | some c1 => c1.park d e p cause addr (1 + flags) entry false
      | none => c.unresolved d e p cause addr (1 + flags) entry 0x05

/-- A stop of a tile put into effect; the tile is not delivered. -/
def Core.stopTile (c : Core) (d e : Nat) (p : Pass) : Stop → Core
  | .wait => c
  | .copy => c
  | .stale k => (match c.running (.se d e) with | some r => c.stopAction (.se d e) r.a | none => c).setAbandon p.ctx k
  | .act r k => c.actionFault (.se d e) r k
  | .fault k a w i x => c.streamFault d e p k a w i x
  | .miss rs =>
    if !p.asked.isEmpty then c
    else
      let runs := runsOf (rs.foldl (fun (m : Mem) r => (List.range r.2).foldl (fun m i => mput m (r.1 + i) 0) m) [])
      let todo := runs.flatMap (fun r => (pieces 4096 r.1 r.2 (r.2.length + 1)).map (fun q => (q.1, q.2.length)))
      let res := todo.foldl (fun (acc : Core × List Nat) q =>
        (acc.1.request p.ctx (q.1 / 2 ^ 45) kRead (leBytes (q.1 % 2 ^ 45) 8 ++ leBytes q.2 4) (.se d e),
         acc.2 ++ [acc.1.nextTag % 2 ^ 20])) (c, [])
      res.1.setPass d e { p with asked := res.2 }

end Sys2Proof.Machine
end

