-- ==== Sys2Proof/Machine/Tile.lean ====
section
/-!
DEFINITION. One tile of a stream pass: its index stream and page checks, its data and scales, its conversion, and where it goes
(R171 to R175, R210, R211, R215, R216, R219).
-/
namespace Sys2Proof.Machine
open Sys2Proof

/-! ## Where a tile goes (R172, R173) -/

/-- The physical cells that CELL_MASK selects, ascending. -/
def Core.cellsOf (c : Core) (die m : Nat) : List Nat :=
  (List.range 16).filterMap (fun i => if bit m i then (c.usableCells (tensorIdx die))[i]? else none)

/-- The cells of one tile. -/
def tileCells (d : Nat) (cs : List Nat) (n : Nat) : List Nat :=
  if dSplit d = 1 then (cs[n / dRun d % max 1 cs.length]?).toList else cs

/-- Whether a tile is the last that its cells take part in. -/
def lastOfCell (d : Nat) (cs : List Nat) (n : Nat) : Bool :=
  if dSplit d = 1 then
    !((n + 1 < passTiles d && (n + 1) / dRun d = n / dRun d) || (n / dRun d + cs.length) * dRun d < passTiles d)
  else n + 1 = passTiles d

/-- The tiles that the cells of a tile take part in. -/
def cellTiles (d : Nat) (cs : List Nat) (n : Nat) : List Nat :=
  (List.range (passTiles d)).filter (fun m => dSplit d ≠ 1 || m / dRun d % max 1 cs.length = n / dRun d % max 1 cs.length)

/-- Whether scales travel with the data. -/
def scalesTravel (d : Nat) : Bool := grainScaled (dXfer d) && dConv d ≠ 2 && (dConv d = 1 || dSbase d ≠ 0)

/-- Bytes, granules and lines of a tile in the transfer format. -/
def tileLen (d n : Nat) : Nat := cdiv (tileSlots d n * fmtBits (dXfer d)) 8
def tileGran (d n : Nat) : Nat := cdiv (tileLen d n) 256
def tileLines (d n : Nat) : Nat := cdiv (tileSlots d n) 32

/-- Bytes of all data of a memory-to-memory pass at XBASE, and of the tiles before tile n. -/
def xferTotal (d : Nat) : Nat :=
  if dFlat d then cdiv (dLen d 0 * dLen d 1 * dLen d 2 * dLen d 3 * dLen d 4 * fmtBits (dXfer d)) 8
  else passTiles d * (128 * fmtBits (dXfer d))

/-! ## Slices of the positions of a tile (R175, R209 to R211, R219) -/

/-- The extent of a page's slice: lowest and highest byte offset in the page (R211). -/
def sliceExtent (d : Nat) : Int × Int :=
  let base : Int := ((dBase d % 2 ^ 45 : Nat) : Int)
  let term (n : Nat) : Int := ((dLen d n - 1 : Nat) : Int) * dStride d n
  let ns := (List.range 5).filter (· ≠ dIdxDim d)
  let unit : Nat := if fmtBits (dMem d) < 8 then (if dIdxDim d = 0 then 1 else cdiv (dLen d 0 * fmtBits (dMem d)) 8) else fmtBits (dMem d) / 8
  ((ns.map (fun n => min 0 (term n))).foldl (· + ·) base, (ns.map (fun n => max 0 (term n))).foldl (· + ·) (base + unit))

/-- The check of a page at the first tile that touches it (R211, R216, R219); `entry` is the global address of the page-table entry
that names it. -/
def Core.touchPage (c : Core) (p : Pass) (u : UnitId) (entry pg gen : Nat) : Core × Pass × Except Stop Slice :=
  let g := c.page p.ctx pg
  let write := decide (dDir p.image = 1)
  let ext := sliceExtent p.image
  let at_ := c.globalOf g.addr
  if p.pinned.contains pg || p.written.contains pg then (c, p, .ok (.page at_))
  else if g.st = .free ∨ g.st = .copying ∨ g.gen ≠ gen then (c, p, .error (.fault 4 at_ write false none))
  else if ext.1 < 0 ∨ (pageSize g.cls : Int) < ext.2 then (c, p, .error (.fault 4 at_ write false none))
  else if g.st = .fallow then
    (if write then
      (match c.giveMemory p.ctx pg with
       | none => (c, p, .error (.act 0x0A pg))
       | some c1 => (c1, { p with written := p.written ++ [pg] }, .ok (.page (c1.globalOf (c1.page p.ctx pg).addr))))
     else (c.drawn, p, .error (.fault 3 (Config.unstated 3 c.freeCtr % 2 ^ 60) false false (some pg))))
  else if write then
    (if 2 ≤ g.refs ∨ 1 ≤ g.pins then
      (match c.startCopy p.ctx pg entry u with
       | none => (c, p, .error (.act 0x0A pg))
       | some (c1, q) => (c1, { p with copyWait := some q }, .error .copy))
     else (c, { p with written := p.written ++ [pg] }, .ok (.page at_)))
  else if 65535 ≤ g.pins then (c, p, .error (.act 0x0A pg))
  else (c.pinPage p.ctx pg, { p with pinned := p.pinned ++ [pg] }, .ok (.page at_))

/-- A page-table entry read: its word checked, its versions taken (R248, R264, R265). -/
def Core.entryRead (c : Core) (p : Pass) (a : Nat) : Core × Except Stop (List Byte) :=
  match c.wordChecks p.ctx [(a, 8)] with
  | (c1, some s) => (c1, .error s)
  | (c1, none) => match c1.gRead p (a : Int) 8 true with
    | .error s => (c1, .error s)
    | .ok b => match c1.ledgerAll p.ctx [(a, 8)] with
      | (c2, some s) => (c2, .error s)
      | (c2, none) => (c2.touchReads p.ctx [(a, 8)], .ok b)

/-- One position of the index dimension resolved. -/
def Core.slice (c : Core) (p : Pass) (u : UnitId) (pos : Nat) : Core × Pass × Except Stop Slice :=
  let d := p.image
  let ix := c.entry p.ctx tDesc (dIdxDesc d)
  let limit (v : Nat) : Bool := dLimit d ≤ v
  if dKind ix = 3 then
    if dLen ix 0 ≤ pos then (c, p, .ok .hole)
    else match c.entryRead p (dBase ix + 8 * pos) with
      | (c, .error s) => (c, p, .error s)
      | (c, .ok b) =>
        let pg := ofLe b % 2 ^ 32
        if pg = 0xFFFFFFFF then (c, p, .ok .hole)
        else if limit pg then (c, p, .error (.act 5 pg))
        else c.touchPage p u (dBase ix + 8 * pos) pg (ofLe b / 2 ^ 32 % 2 ^ 16)
  else match supply (dKind ix) p.index pos with
    | none => (c, p, .ok .hole)
    | some (v, _) => if v = 0xFFFFFFFF then (c, p, .ok .hole) else if limit v then (c, p, .error (.act 5 v)) else (c, p, .ok (.index v))

/-- The positions of some tiles resolved in order, up to the first that stops. -/
def Core.slices (c : Core) (p : Pass) (u : UnitId) (ps : List Nat) : Core × Pass × Except Stop (KMap Nat Slice) :=
  if dIdxEn p.image then
    ps.foldl (fun (acc : Core × Pass × Except Stop (KMap Nat Slice)) pos =>
      match acc.2.2 with
      | .error s => (acc.1, acc.2.1, .error s)
      | .ok m => match acc.1.slice acc.2.1 u pos with
        | (c1, p1, .ok s) => (c1, p1, .ok (kset m pos s))
        | (c1, p1, .error s) => (c1, p1, .error s)) (c, p, .ok [])
  else (c, p, .ok [])

/-- Positions on the index dimension that some tiles visit. -/
def tilePositions (d : Nat) (tiles : List Nat) : List Nat :=
  if dIdxEn d then
    (tiles.flatMap (fun n => (List.range (tileSlots d n)).filterMap (fun e => (elemPos d n e).map (fun q => q.getD (dIdxDim d) 0)))).eraseDups
  else []

/-- The slice of an element. -/
def sliceAt (d : Nat) (m : KMap Nat Slice) (pos : List Nat) : Slice := kgetD m (pos.getD (dIdxDim d) 0) (.index (pos.getD (dIdxDim d) 0))

/-! ## Elements and scales -/

/-- A real element whose slice is no hole: its indices and slice. -/
def elemAt (d n e : Nat) (m : KMap Nat Slice) : Option (List Nat × Slice) :=
  match elemPos d n e with
  | none => none
  | some pos => match sliceAt d m pos with
    | .hole => none
    | s => some (pos, s)

/-- The scale byte of a grain: at SBASE, or a free value where there are no scales there. -/
def Core.scaleByte (c : Core) (p : Pass) (g : Nat) : Except Stop (List Byte) :=
  if dSbase p.image = 0 then .ok [BitVec.ofNat 8 (Config.unstated 8 g)]
  else c.gRead p ((dSbase p.image + g : Nat) : Int) 1 false

/-- The grain of a line of a tile: that of its first real element. -/
def lineGrain (d n r : Nat) (m : KMap Nat Slice) : Option Nat :=
  ((List.range 32).findSome? (fun k => if 32 * r + k < tileSlots d n then elemAt d n (32 * r + k) m else none)).map (fun e => grainOf d e.2 e.1)

/-- The scale bytes of lines, given as (tile, line); 0 for a line without an element. -/
def Core.lineScales (c : Core) (p : Pass) (m : KMap Nat Slice) (ls : List (Nat × Nat)) : Except Stop (List Byte) :=
  match gatherReads (ls.map (fun l => match lineGrain p.image l.1 l.2 m with
    | some g => c.scaleByte p g
    | none => .ok [0])) with
  | .ok bs => .ok (bs.map (fun b => b.getD 0 0))
  | .error s => .error s

/-- The grains of the lines of a tile that has an element in them: where their scale bytes stand (R169). -/
def lineScaleReads (d : Nat) (m : KMap Nat Slice) (ls : List (Nat × Nat)) : List (Nat × Nat) :=
  if dSbase d = 0 then [] else ls.filterMap (fun l => (lineGrain d l.1 l.2 m).map (fun g => (dSbase d + g, 1)))

/-- The global stretches that a tile of a pass reads beside its index stream: elements, and scales where they are used (R171, R173). A
survey reads the grains whose last element lies in the tile. -/
def tileReads (d n : Nat) (m : KMap Nat Slice) : List (Nat × Nat) :=
  let nb := fmtBits (dMem d)
  let els := (List.range (tileSlots d n)).filterMap (fun e => elemAt d n e m)
  let stretch (b : Int) : Option (Nat × Nat) := if b < 0 then none else some ((b / 8).toNat, ((b % 8).toNat + nb + 7) / 8)
  let scales := if dConv d = 1 && (grainScaled (dMem d) || grainScaled (dXfer d)) && dSbase d ≠ 0 then
      els.map (fun e => (dSbase d + grainOf d e.2 e.1, 1)) else []
  if dDir d = 1 then scales
  else if dConv d = 2 then
    (els.filter (fun e => e.1.getD 0 0 % 32 = 31 || e.1.getD 0 0 + 1 = dLen d 0)).flatMap (fun e =>
      (List.range (e.1.getD 0 0 % 32 + 1)).filterMap (fun k => stretch (elemBit d e.2 (e.1.set 0 (e.1.getD 0 0 / 32 * 32 + k)))))
  else els.filterMap (fun e => stretch (elemBit d e.2 e.1)) ++ scales ++
    (if dDir d = 2 ∧ scalesTravel d then lineScaleReads d m ((List.range (tileLines d n)).map (fun r => (n, r))) else [])

/-- One element converted from a code of one format into another (R173): its new code and what it reports. -/
def convElem (d src dst scale n e code : Nat) (r : Report) : Nat × Report :=
  if dConv d = 1 then
    let v := readElem src scale code
    let k := writeElem dst scale .ne true v
    let ev (cause : Nat) (r : Report) : Report := r.event { cause := cause, row := n, col := e, kpos := 0, opa := 0, opb := 0 }
    let r1 := match v with | .nan _ _ => ev 3 r | _ => r
    let r2 := match k.2 with | some q => ev q r1 | none => r1
    (k.1.code, r2.conv src dst (dClass d) k.1)
  else (code, r)

/-- Codes packed into a tile's bytes. -/
def packTile (d n : Nat) (codes : List Nat) : List Byte :=
  ((List.range (tileLines d n)).flatMap (fun r => lineBytes (dXfer d) ((List.range 32).map (fun k => codes.getD (32 * r + k) 0)))).take (tileLen d n)

/-- A tile read from memory (R171, R173): its codes in the transfer format, holes and padding zero, and its report. -/
def Core.readTile (c : Core) (p : Pass) (m : KMap Nat Slice) : Except Stop (List Nat × Report) :=
  let d := p.image
  let n := p.tile
  let nb := fmtBits (dMem d)
  let els := (List.range (tileSlots d n)).map (fun e => elemAt d n e m)
  let need := dConv d = 1 && (grainScaled (dMem d) || grainScaled (dXfer d))
  match gatherReads (els.map (fun x => match x with | some e => c.codeBits p (elemBit d e.2 e.1) nb | none => .ok [])),
        gatherReads (els.map (fun x => match x with
          | some e => if need then c.scaleByte p (grainOf d e.2 e.1) else .ok [127]
          | none => .ok [127])) with
  | .error (.miss a), .error (.miss b) => .error (.miss (a ++ b))
  | .error (.miss _), .error s => .error s
  | .error s, _ => .error s
  | _, .error s => .error s
  | .ok cs, .ok ss =>
    let res := (List.range els.length).foldl (fun (acc : List Nat × Report) i =>
      match els.getD i none with
      | none => (acc.1 ++ [0], acc.2)
      | some e =>
        let k := convElem d (dMem d) (dXfer d) ((ss.getD i []).getD 0 0).toNat n i (codeFrom (cs.getD i []) (elemBit d e.2 e.1) nb) acc.2
        (acc.1 ++ [k.1], k.2)) ([], Report.none)
    .ok res

/-- A tile from a cell as memory takes it (R173): the patch and the report. -/
def Core.writeTile (c : Core) (p : Pass) (m : KMap Nat Slice) (bytes : List Byte) : Except Stop (Patch × Report) :=
  let d := p.image
  let n := p.tile
  let xb := fmtBits (dXfer d)
  let els := (List.range (tileSlots d n)).map (fun e => elemAt d n e m)
  let need := dConv d = 1 && (grainScaled (dMem d) || grainScaled (dXfer d))
  let low := els.findSome? (fun x => match x with
    | some e => let b := elemBit d e.2 e.1; if b < 0 then some (Stop.fault 4 (b / 8 % 2 ^ 60).toNat true false none) else none
    | none => none)
  match low, gatherReads (els.map (fun x => match x with
      | some e => if need then c.scaleByte p (grainOf d e.2 e.1) else .ok [127]
      | none => .ok [127])) with
  | some s, _ => .error s
  | none, .error s => .error s
  | none, .ok ss =>
    .ok ((List.range els.length).foldl (fun (acc : Patch × Report) i =>
      match els.getD i none with
      | none => acc
      | some e =>
        let code := ofLe ((bytes.drop (i * xb / 8)).take 8) / 2 ^ (i * xb % 8) % 2 ^ xb
        let k := convElem d (dXfer d) (dMem d) ((ss.getD i []).getD 0 0).toNat n i code acc.2
        (acc.1.put (elemBit d e.2 e.1).toNat (fmtBits (dMem d)) k.1, k.2)) (Patch.empty, Report.none))

/-- The survey of the grains whose last element lies in the tile (R118, R119, R173). -/
def Core.surveyTile (c : Core) (p : Pass) (m : KMap Nat Slice) : Except Stop (Patch × Report) :=
  let d := p.image
  let n := p.tile
  let nb := fmtBits (dMem d)
  let ends := (List.range (tileSlots d n)).filterMap (fun e => match elemAt d n e m with
    | some (pos, s) => if pos.getD 0 0 % 32 = 31 ∨ pos.getD 0 0 + 1 = dLen d 0 then some (e, pos, s) else none
    | none => none)
  let bitsOf (pos : List Nat) (s : Slice) : List Int :=
    (List.range (pos.getD 0 0 % 32 + 1)).map (fun k => elemBit d s (pos.set 0 (pos.getD 0 0 / 32 * 32 + k)))
  match gatherReads (ends.flatMap (fun x => (bitsOf x.2.1 x.2.2).map (fun b => c.codeBits p b nb))) with
  | .error s => .error s
  | .ok _ =>
    .ok (ends.foldl (fun (acc : Patch × Report) x =>
      let bs := bitsOf x.2.1 x.2.2
      let vs := bs.map (fun b => match c.codeBits p b nb with
        | .ok l => readElem (dMem d) 127 (codeFrom l b nb)
        | .error _ => readElem (dMem d) 127 0)
      let sc := surveyScale (dXfer d) vs
      (acc.1.put (8 * (dSbase d + grainOf d x.2.2 x.2.1)) 8 sc, acc.2.join (surveyEvent sc n x.1 vs))) (Patch.empty, Report.none))

/-! ## Checks of the hardware on the way (R457, R464) -/

/-- One injected check of a block that is not the engine's own: an injected error faults the action. -/
def Core.blockCheck (c : Core) (u : UnitId) (blk : SUnit) (det : Nat) : Core × Bool :=
  match c.injections blk det 1 with
  | (c1, true) => (((c1.error blk det 0 (Config.syndrome c1.freeCtr % 2 ^ 32) false true true).drawn).actionFault u 9 det, true)
  | (c1, false) => (c1, false)

/-! ## One tile -/

/-- Granules put into the landing buffers of cells from an engine; granules taken from an intake buffer. -/
def Core.deliver (c : Core) (cells : List Nat) (e : Nat) (g : List (List Byte)) : Core := cells.foldl (fun c t => c.putLand t e g) c
def Core.takeIn (c : Core) (d e cell k : Nat) : Core :=
  { c with intake := kset c.intake (d, e, cell) ((c.taking d e cell).drop k) }

/-- Granules cut from bytes. -/
def granules (b : List Byte) : Nat → List (List Byte)
  | 0 => []
  | k + 1 => padTo 256 (b.take 256) :: granules (b.drop 256) k

/-- The pass moves on by one tile, its counts reported and its NaN events kept for the action's end (R130, R134); its action completes
with the last, once every WRITE is done. -/
def Core.nextTile (c : Core) (d e : Nat) (p : Pass) (rep : Report) (gran : Nat) (hold : Bool) : Core :=
  let u := UnitId.se d e
  let c1 := (c.reportCounts p.ctx rep).modRunning u (fun r => { r with evs := r.evs.add rep })
  let q := { p with
    tile := if hold then p.tile else p.tile + 1, scale := if hold then 1 else 0, remote := [], asked := [] }
  let c2 := (c1.setPass d e q).bump (subBase d 7 e + 0x438) 64 gran
  if q.tile = passTiles p.image ∧ q.writes.isEmpty ∧ ¬ hold then c2.actDone u else c2

/-- The least room among landing buffers. -/
def Core.roomFor (c : Core) (cells : List Nat) (e : Nat) : Nat :=
  (cells.map (fun t => landRoom - (c.land t e).length)).foldl min landRoom

/-- The lines of the tiles that a tile's cells take part in, in the order their scales stand. -/
def cellLines (d : Nat) (cs : List Nat) (n : Nat) : List (Nat × Nat) :=
  (cellTiles d cs n).flatMap (fun m => (List.range (tileLines d m)).map (fun r => (m, r)))

/-- The scale granules that follow the last data granule of a cell (R173). -/
def Core.scalePhase (c : Core) (d e : Nat) (p : Pass) : Core :=
  let im := p.image
  let cs := c.cellsOf d (dMask im)
  let tgt := tileCells im cs p.tile
  let ls := cellLines im cs p.tile
  let total := cdiv ls.length 256
  let k := p.scale - 1
  let have_ := if dDir im = 0 then c.roomFor tgt e else (tgt.map (fun t => (c.taking d e t).length)).foldl min landRoom
  let j := min have_ (total - k)
  if j = 0 then c
  else
    let part := (ls.drop (256 * k)).take (256 * j)
    let go (c1 : Core) (p1 : Pass) : Core :=
      let c2 := if k + j = total then c1.nextTile d e p1 Report.none j false
        else (c1.setPass d e { p1 with scale := p1.scale + j, remote := [], asked := [] }).bump (subBase d 7 e + 0x438) 64 j
      c2
    match c.slices p (.se d e) (tilePositions im (part.map Prod.fst).eraseDups) with
    | (c0, p0, .error s) => (c0.setPass d e p0).stopTile d e p0 s
    | (c0, p0, .ok m) =>
      if dDir im = 0 then
        let reads := lineScaleReads im m part
        match c0.wordChecks p0.ctx reads with
        | (c1, some s) => (c1.setPass d e p0).stopTile d e p0 s
        | (c1, none) =>
        match c1.lineScales p0 m part, c1.ledgerAll p0.ctx reads with
        | .error s, _ => (c1.setPass d e p0).stopTile d e p0 s
        | .ok _, (c2, some s) => (c2.setPass d e p0).stopTile d e p0 s
        | .ok b, (c2, none) => go ((c2.touchReads p0.ctx reads).deliver tgt e (granules b j)) p0
      else
        let t := tgt.getD 0 0
        let b := ((c0.taking d e t).take j).flatMap (padTo 256)
        let patch := (List.range part.length).foldl (fun (w : Patch) i =>
          let l := part.getD i (0, 0)
          match lineGrain im l.1 l.2 m with
          | some g => w.put (8 * (dSbase im + g)) 8 (b.getD i 0).toNat
          | none => w) Patch.empty
        let runs := if dConv im = 0 then c0.patchRuns p0 patch else []
        match c0.runsStop p0 p.tile runs with
        | some s => (c0.setPass d e p0).stopTile d e p0 s
        | none =>
          let (c1, tags) := (c0.takeIn d e t j).commit p0.ctx (.se d e) runs
          go c1 { p0 with writes := p0.writes ++ tags }

/-- The data of one tile. -/
def Core.dataPhase (c : Core) (d e : Nat) (p : Pass) : Core :=
  let im := p.image
  let u := UnitId.se d e
  let cs := c.cellsOf d (dMask im)
  let tgt := tileCells im cs p.tile
  let g := tileGran im p.tile
  let waits : Bool := match dDir im with
    | 0 => decide (c.roomFor tgt e < g)
    | 1 => tgt.isEmpty || tgt.any (fun t => decide ((c.taking d e t).length < g))
    | _ => false
  let hold := dDir im ≠ 2 && scalesTravel im && lastOfCell im cs p.tile
  if waits then c
  else
    match c.slices p u (tilePositions im [p.tile]) with
    | (c0, p0, .error s) => (c0.setPass d e p0).stopTile d e p0 s
    | (c0, p0, .ok m) =>
      let reads := tileReads im p.tile m
      match c0.wordChecks p0.ctx reads with
      | (c1, some s) => (c1.setPass d e p0).stopTile d e p0 s
      | (c0, none) =>
        let stop (s : Stop) : Core := (c0.setPass d e p0).stopTile d e p0 s
        if dDir im = 1 then
          let t := tgt.getD 0 0
          match c0.writeTile p0 m (((c0.taking d e t).take g).flatMap (padTo 256)) with
          | .error s => stop s
          | .ok (w, rep) =>
            let runs := c0.patchRuns p0 w
            match c0.runsStop p0 p.tile runs with
            | some s => stop s
            | none =>
              match c0.ledgerAll p0.ctx reads with
              | (c1, some s) => (c1.setPass d e p0).stopTile d e p0 s
              | (c1, none) =>
                let (c2, tags) := ((c1.touchReads p0.ctx reads).takeIn d e t g).commit p0.ctx u runs
                c2.nextTile d e { p0 with writes := p0.writes ++ tags } rep g hold
        else if dConv im = 2 then
          match c0.surveyTile p0 m with
          | .error s => stop s
          | .ok (w, rep) =>
            let runs := c0.patchRuns p0 w
            match c0.runsStop p0 p.tile runs, c0.ledgerAll p0.ctx reads with
            | some s, _ => stop s
            | none, (c1, some s) => (c1.setPass d e p0).stopTile d e p0 s
            | none, (c1, none) =>
              let (c2, tags) := (c1.touchReads p0.ctx reads).commit p0.ctx u runs
              c2.nextTile d e { p0 with writes := p0.writes ++ tags } rep g false
        else
          match c0.readTile p0 m, (if dDir im = 2 ∧ scalesTravel im then
              c0.lineScales p0 m ((List.range (tileLines im p.tile)).map (fun r => (p.tile, r))) else .ok []) with
          | .error (.miss a), .error (.miss b) => stop (.miss (a ++ b))
          | .error s, _ => stop s
          | _, .error s => stop s
          | .ok (codes, rep), .ok sc =>
            let bytes := packTile im p.tile codes
            if dDir im = 2 then
              let w := (Patch.empty.bytes (dXbase im + p.tile * (128 * fmtBits (dXfer im))) bytes).bytes (dXbase im + xferTotal im + 32 * p.tile) sc
              let runs := c0.patchRuns p0 w
              match c0.runsStop p0 p.tile runs, c0.ledgerAll p0.ctx reads with
              | some s, _ => stop s
              | none, (c1, some s) => (c1.setPass d e p0).stopTile d e p0 s
              | none, (c1, none) =>
                let (c2, tags) := (c1.touchReads p0.ctx reads).commit p0.ctx u runs
                c2.nextTile d e { p0 with writes := p0.writes ++ tags } rep g false
            else
              match c0.ledgerAll p0.ctx reads with
              | (c1, some s) => (c1.setPass d e p0).stopTile d e p0 s
              | (c1, none) => ((c1.touchReads p0.ctx reads).deliver tgt e (granules bytes g)).nextTile d e p0 rep g hold

/-- The index list of a pass, read whole before its first tile, its words checked and its versions taken (R174, R175, R264, R265). -/
def Core.indexPhase (c : Core) (d e : Nat) (p : Pass) : Except Core (Core × Pass) :=
  let im := p.image
  let ix := c.entry p.ctx tDesc (dIdxDesc im)
  let len := dLen im (dIdxDim im)
  let marked (c : Core) (over_ : Bool) : Core := c.modEngine d e (fun g => { g with overrun := g.overrun || over_ })
  if !(dIdxEn im) || !p.index.isEmpty then .ok (c, p)
  else if dKind ix = 3 then
    let surplus := decide (len < dLen ix 0)
    .ok (marked c surplus, { p with overrun := surplus })
  else
    let sz := if dKind ix = 2 then 8 else 4
    let reads := [(dBase ix, sz * dLen ix 0)]
    match c.wordChecks p.ctx reads with
    | (c1, some s) => .error (c1.stopTile d e p s)
    | (c1, none) =>
      match c1.gRead p ((dBase ix : Nat) : Int) (sz * dLen ix 0) true with
      | .error s => .error ((c1.setPass d e p).stopTile d e p s)
      | .ok b =>
        match c1.ledgerAll p.ctx reads with
        | (c2, some s) => .error (c2.stopTile d e p s)
        | (c2, none) =>
          let es := (List.range (dLen ix 0)).map (fun i => fieldAt b (sz * i) sz)
          let surplus := decide (len < supplied (dKind ix) es)
          .ok (marked (c2.touchReads p.ctx reads) surplus, { p with index := es, overrun := surplus })

/-- The engine moves one tile of its pass, if the pass can move: not parked, no copy, READ or fault outstanding, its cells ready. -/
def Core.tileStep (c : Core) (d e : Nat) (ups : List Upset) : Core :=
  let u := UnitId.se d e
  match (kget c.engines (d, e)).bind (fun g => g.pass), c.running u with
  | some p, some r =>
    if r.done || p.parked.isSome || p.copyWait.isSome || !p.asked.isEmpty || passTiles p.image ≤ p.tile then c
    else match c.indexPhase d e p with
      | .error c1 => c1
      | .ok (c1, p1) =>
        if 1 ≤ p1.scale then (c1.setPass d e p1).scalePhase d e p1
        else
          match c1.checks u ups (if dPersist p1.image then [(1, 1)] else []) with
          | (c2, true) => c2
          | (c2, false) =>
            match c2.pathChecks u with
            | (c3, true) => c3
            | (c3, false) => (c3.setPass d e p1).dataPhase d e p1
  | _, _ => c

end Sys2Proof.Machine
end

