-- ==== Sys2Proof/Machine/Streams.lean ====
section
/-!
DEFINITION. The stream engines' rows: ARM, REARM, DISARM, tiles, parks and limits, the completions of remote accesses and page
copies, and the stream commands (R104, R105, R165, R176, R178, R182 to R185, R195, R196, R216, R267).
-/
namespace Sys2Proof.Machine
open Sys2Proof

/-! ## ARM, REARM, DISARM (R105, R170, R176) -/

/-- The CELLS value of a physical tensor die in the running program's header. -/
def Core.dieCells (c : Core) (d : Nat) : Nat :=
  match c.running?, findIx c.usableRegions (fun r => r = dieRegion d) with
  | some (_, _, g), some q => if isTensor d then hdrCells g.units (9 * q + (dieLocal d - 1)) else 0
  | _, _ => 0

/-- The checks that ARM and REARM make of a descriptor: the reason and detail of the fault, if any. -/
def Core.armFault (c : Core) (n d entry image : Nat) : Option (Nat × Nat) :=
  match c.ctx? n with
  | none => some (4, entry)
  | some x =>
    if image = 0 ∨ !(dataOk x.conf (x.kvEntries.getD 0) (x.entry tDesc (dIdxDesc image)) image) then some (4, entry)
    else if dDir image ≠ 2 ∧ (!(isTensor d) ∨ 2 ^ c.dieCells d ≤ dMask image) then some (4, entry)
    else if dCrypt image ∧ x.dataKey.isNone then some (0x0A, entry)
    else none

/-- Whether another engine holds an entry armed. -/
def Core.armedElsewhere (c : Core) (d e entry : Nat) : Bool :=
  c.engines.any (fun g => g.1 ≠ (d, e) && g.2.armed.any (fun a => a.desc = entry))

/-- An engine's state. -/
def Engine.idle : Engine :=
  { pass := none, cursor := [0, 0, 0, 0, 0], curTile := 0, curIx := 0, lastCtx := 0, lastDesc := 0, overrun := false,
    stopping := false, faultAddr := 0, armed := [] }
def Core.engine (c : Core) (d e : Nat) : Engine := kgetD c.engines (d, e) Engine.idle

/-- A pass begins from a descriptor. -/
def Core.startPass (c : Core) (d e n entry image : Nat) : Core :=
  let g := c.engine d e
  let p : Pass := {
    ctx := n, desc := entry, image := image, tile := 0, scale := 0, index := [], overrun := false, parked := none,
    faultAddr := 0, faultIx := 0, ff := 0, fside := 0, remote := [], asked := [], writes := [], pinned := [], written := [],
    copyWait := none }
  let c1 := { c with engines := kset c.engines (d, e) { g with lastCtx := n, lastDesc := entry, overrun := false, stopping := false } }
  (c1.setPass d e p).modRunning (.se d e) (fun r => { r with started := true })

/-- ARM (op 0x61) and REARM (op 0x62) by an engine whose action has begun. -/
def Core.armAct (c : Core) (d e op : Nat) : Core :=
  let u := UnitId.se d e
  match c.active u op with
  | none => c
  | some r =>
    if r.started then c
    else
      let entry := aEntry r.a.bits
      let g := c.engine d e
      let copy := g.armed.find? (fun a => a.desc = entry)
      let stored := match copy with | some a => a.image | none => c.entry r.a.ctx tDesc entry
      let image := if op = 0x62 then stored - fieldN stored 0 8 + aBase r.a.bits else stored
      match (if stored = 0 then some (4, entry) else c.armFault r.a.ctx d entry image) with
      | some f => c.actionFault u f.1 f.2
      | none =>
        if op = 0x62 ∧ ¬ dPersist image then c.actionFault u 4 entry
        else if c.armedElsewhere d e entry then c.actionFault u 0x0A entry
        else if dPersist image then
          (if copy.isNone ∧ 4 ≤ g.armed.length then c.actionFault u 0x0A entry
           else
             let fresh : Armed := { desc := entry, image := image, pace := 0 }
             let armed := (g.armed.filter (fun a => a.desc ≠ entry)) ++ [fresh]
             { c with engines := kset c.engines (d, e) { g with armed := armed } }.startPass d e r.a.ctx entry image)
        else c.startPass d e r.a.ctx entry image

/-- ARM. -/
def execArm (die eng : Nat) (s : State) : Host.Outcome State Fault Refusal :=
  s.guard (UnitId.se die eng).valid (fun d => d.c.armAct die eng 0x61)

/-- REARM. -/
def execRearm (die eng : Nat) (s : State) : Host.Outcome State Fault Refusal :=
  s.guard (UnitId.se die eng).valid (fun d => d.c.armAct die eng 0x62)

/-- DISARM: the column's order puts it after any pass in progress. -/
def Core.disarmAct (c : Core) (d e : Nat) : Core :=
  let u := UnitId.se d e
  match c.active u 0x63 with
  | none => c
  | some r =>
    let entry := aEntry r.a.bits
    let g := c.engine d e
    let stored := match g.armed.find? (fun a => a.desc = entry) with | some a => a.image | none => c.entry r.a.ctx tDesc entry
    if stored = 0 ∨ ¬ dPersist stored then c.actionFault u 4 entry
    else { c with engines := kset c.engines (d, e) { g with armed := g.armed.filter (fun a => a.desc ≠ entry) } }.actDone u

/-- DISARM. -/
def execDisarm (die eng : Nat) (s : State) : Host.Outcome State Fault Refusal :=
  s.guard (UnitId.se die eng).valid (fun d => d.c.disarmAct die eng)

/-! ## Tiles, retries, limits -/

/-- TILE_DELIVER. -/
def execTileDeliver (die eng : Nat) (ups : List Upset) (s : State) : Host.Outcome State Fault Refusal :=
  s.guard (UnitId.se die eng).valid (fun d => d.c.tileStep die eng ups)

/-- An engine's pass. -/
def Core.passOf (c : Core) (d e : Nat) : Option Pass := (kget c.engines (d, e)).bind (fun g => g.pass)

/-- STREAM_RETRY: the faulting tile is tried again once its page has left fallow, or every plot that it touches is resident (or
the device itself has begun to resolve another plot of the spill object). -/
def Core.retry (c : Core) (d e : Nat) : Core :=
  match c.passOf d e with
  | none => c
  | some p =>
    match p.parked with
    | none => c
    | some k =>
      if k = 3 ∧ (c.page p.ctx p.faultIx).st = .fallow then c
      else
        let c1 := (c.setPass d e { p with parked := none, ff := 0 }).tileStep d e []
        match c1.passOf d e with
        | some q => (match q.parked with
          | some j => if (j = 1 ∨ j = 2) ∧ k ≠ 3 ∧ (q.ff ≠ 0 ∨ q.faultAddr = p.faultAddr) then c else c1
          | none => c1)
        | none => c1

/-- STREAM_RETRY. -/
def execStreamRetry (die eng : Nat) (s : State) : Host.Outcome State Fault Refusal :=
  s.guard (UnitId.se die eng).valid (fun d => d.c.retry die eng)

/-- A parked pass takes the unresolved-fault path (R184). -/
def Core.giveUp (c : Core) (d e : Nat) : Core :=
  match c.passOf d e with
  | none => c
  | some p => match p.parked with
    | none => c
    | some k => c.unresolved d e p k (c.engine d e).faultAddr (1 + 2 * p.fside) p.faultIx 0x02

/-- PARK_LIMIT_EXPIRE. -/
def execParkLimitExpire (die eng : Nat) (s : State) : Host.Outcome State Fault Refusal :=
  s.guard (UnitId.se die eng).valid (fun d => d.c.giveUp die eng)

/-- Whether an engine's pass is parked or waits for a page copy. -/
def Core.engineHolds (c : Core) (d e : Nat) : Bool :=
  match c.passOf d e with | some p => p.parked.isSome || p.copyWait.isSome | none => false

/-- Whether a port action exchanges granules with such an engine. -/
def Core.heldPort (c : Core) (n : Nat) (a : ActionInst) : Bool :=
  (a.op = 0x42 || a.op = 0x52) && !(sRing a.bits) && c.engineHolds (cellDie n) (sENG a.bits)

/-- Whether a window is one of a RECEIVE or a SEND that waits on such an engine. -/
def Core.heldWin (c : Core) (w : Win) : Bool :=
  match kget c.cols (.cell w.by_ w.owner) with
  | some col => ((match col.run with | some r => [r.a] | none => []) ++ col.queue).any (fun a => w.isOf w.by_ w.owner a && c.heldPort w.by_ a)
  | none => false

/-- Whether a port's running action waits for granules or room that only such an engine gives. -/
def Core.portHeld (c : Core) (n : Nat) (a : ActionInst) : Bool :=
  c.heldPort n a && (if a.op = 0x42 then (c.land n (recvSrc a.bits)).isEmpty
    else decide (landRoom ≤ (c.taking (cellDie n) (sENG a.bits) n).length))

/-- What a unit's own row would do to its running action. -/
def unitRow (u : UnitId) (r : RunAct) (s : State) : Host.Outcome State Fault Refusal :=
  match u with
  | .cell n .f => execFProduct n [] s
  | .cell n .b => execBProduct n [] s
  | .cell n .v =>
    if r.a.op = 0x32 then execConvert n [] s else if r.a.op = 0x33 then execSurvey n [] s
    else if r.a.op = 0x34 then execUnary n [] s else if r.a.op = 0x35 then execBinary n [] s
    else if r.a.op = 0x36 then execRowreduce n [] s else if r.a.op = 0x38 then execFlagw n s
    else if vFUNC r.a.bits = 0 then execSoftmaxOnline n [] s else if vFUNC r.a.bits = 1 then execSoftmaxFinish n [] s
    else execSoftmaxBackward n [] s
  | .cell n .sin => execReceive n s
  | .cell n .sout => if r.a.op = 0x53 then execSilt n s else if r.started then execGranuleLand n s else execSend n s
  | .se d e => execTileDeliver d e [] s
  | _ => .next s

/-- Whether a unit's running action waits: its own row changes nothing now. -/
def unitWaits (u : UnitId) (s : State) : Bool :=
  match s.dev.c.running u with
  | some r => !r.done && (match unitRow u r s with | .next t => t = s | _ => false)
  | none => false

/-- Waits on a parked pass are exempt from the stall limit (R178, R182, R216): that of a port on its own engine, and one that would end
were it not for windows of ports that wait so. -/
def exempt (u : UnitId) (s : State) : Bool :=
  let c := s.dev.c
  match u with
  | .cell n _ => (match c.running u with | some r => c.portHeld n r.a | none => false) ||
      !unitWaits u { s with dev := { s.dev with c := { c with wins := c.wins.filter (fun w => !c.heldWin w) } } }
  | .se d e => (match c.passOf d e with
    | some p => p.parked.isSome || p.copyWait.isSome || !p.asked.isEmpty || p.tile = passTiles p.image
    | none => true)
  | _ => true

/-- STALL_LIMIT_EXPIRE. -/
def execStallLimitExpire (u : UnitId) (s : State) : Host.Outcome State Fault Refusal :=
  s.guard u.valid (fun d => if unitWaits u s && !(exempt u s) then d.c.actionFault u 7 0 else d.c)

/-! ## Completions that a pass waits for -/

/-- READ_DATA for a pass (R265, R339, R342): the bytes land in its space, or the status becomes a stream fault. -/
def Core.passData (c : Core) (d e : Nat) (req : Request) (status : Nat) (versions : List (Nat × Nat)) (data : List Byte) : Core :=
  match c.passOf d e with
  | none => c
  | some p =>
    if !(p.asked.contains req.msg.tag) then c
    else
      let g := req.msg.dst * 2 ^ 45 + fieldAt req.msg.payload 0 8
      let len := fieldAt req.msg.payload 8 4
      if status = 0 then
        match c.ledgerTakes p.ctx versions with
        | (c1, some s) => c1.stopTile d e p s
        | (c1, none) => c1.setPass d e { p with
            asked := p.asked.erase req.msg.tag, remote := mputs p.remote g (padTo len data) }
      else c.streamFault d e p (if status = 1 then 6 else if status = 2 then 4 else 5) g false false none

/-- WRITE_DONE for a pass: one WRITE fewer to await; the last of a pass completes its action. -/
def Core.passWritten (c : Core) (d e : Nat) (req : Request) (status : Nat) : Core :=
  match c.passOf d e with
  | none => c
  | some p =>
    if !(p.writes.contains req.msg.tag) then c
    else if status ≠ 0 then
      c.streamFault d e p (if status = 1 then 6 else if status = 2 then 4 else 5)
        (req.msg.dst * 2 ^ 45 + fieldAt req.msg.payload 0 8) true false none
    else
      let q := { p with writes := p.writes.erase req.msg.tag }
      let c1 := c.setPass d e q
      if q.writes.isEmpty ∧ q.tile = passTiles q.image then c1.actDone (.se d e) else c1

/-- PAGE_COPY_DONE: `page` is the page copied into (R216). The entry that the pass read is rewritten, with or without the pass (R220), and
the waiting tile moves. While the entry's own plot is away the copy has not ended. -/
def Core.pageCopied (c : Core) (n q : Nat) : Core :=
  match c.copies.find? (fun k => k.ctx = n && k.page = q), (c.page n q).st, (c.page n q).link with
  | some k, .copying, some src =>
    let stop := c.runStop n k.entry 8 0
    if (match stop with | some (.fault b _ _ _ _) => decide (b ≤ 2) | _ => false) then c
    else
      let entry := leBytes q 4 ++ leBytes (c.page n q).gen 2 ++ zeros 2
      let c1 := { c.endCopy n q src with copies := c.copies.filter (fun m => !(m.ctx = n && m.page = q)) }
      let (c2, tags) := if stop.isSome then (c1, []) else c1.commit n k.eng [(k.entry, entry)]
      match k.eng with
      | .se d e => (match c2.passOf d e with
        | some p =>
          if p.ctx = n ∧ p.copyWait = some q then
            (c2.setPass d e { p with
              copyWait := none, written := p.written ++ [q], writes := p.writes ++ tags,
              remote := if (c.localOf k.entry).isSome then p.remote else mputs p.remote k.entry entry }).tileStep d e []
          else c2
        | none => c2)
      | _ => c2
  | _, _, _ => c

/-- PAGE_COPY_DONE. -/
def execPageCopyDone (ctx page : Nat) (s : State) : Host.Outcome State Fault Refusal :=
  s.guard (ctx < 16) (fun d => d.c.pageCopied ctx page)

/-- Passes that met a plot of the spill object while it moved out, now that it is host: the new record of R240, and then the device's own
resolution of their fault, as of any other on that object (R267; assumption log). -/
def Core.respill (c : Core) (n plot i k : Nat) : Core :=
  let met := c.engines.filter (fun e => match e.2.pass with
    | some q => q.ctx = n && q.parked = some 2 && q.faultAddr / plotBytes = plot
    | none => false)
  (met.map Prod.fst).foldl (fun c e => match c.resolveSpill n i k, c.passOf e.1 e.2 with
    | some c1, _ => c1
    | none, some q => c.unresolved e.1 e.2 q 1 (c.globalOf q.faultAddr) (1 + 2 * q.fside) q.faultIx 0x05
    | none, none => c) (c.reparks n plot)

/-- STASH_DEMOTE_DONE: a leaving plot of the spill object stands in its frame, and its physical plot serves the promotion that
waits (R267); a plot that must not leave in clear stays (R246). -/
def execStashDemoteDone (ctx plot : Nat) (s : State) : Host.Outcome State Fault Refusal :=
  s.guard (ctx < 16) (fun d =>
    match d.c.entryAt ctx plot with
    | none => d.c
    | some (i, k, o, e) =>
      let spill : Bool := match d.c.ctx? ctx with | some x => x.isSpill ctx i o | none => false
      if e.st ≠ .leaving ∨ ¬ spill ∨ ¬ d.stacksUp then d.c
      else
        let may : Bool := match d.c.ctx? ctx with | some x => x.maySpill | none => false
        let c1 := if may then ((d.c.plotOut ctx plot i k o e).respill ctx plot i k).arrivals ctx i else d.c.plotKept ctx i k e
        (c1.endFree ctx i).servePool)

/-! ## Commands (R195, R196) -/

/-- DESC_LOAD. -/
def execDescLoad (p : Packet) (s : State) : Host.Outcome State Fault Refusal :=
  hostCmd (Cmd.plain 0x306 true [64, 64, 64]) p s (fun d =>
    d.c.loadTable p tDesc 128 4096 1 (p.arg 0) (p.arg 1) (p.arg 2) { beyond := 0x342, handle := 0x343, bad := 0x340 }
      (fun x look e => .ok (descOk x.conf (x.kvEntries.getD 0) look e)))

/-- SILT_ROUTES. -/
def execSiltRoutes (p : Packet) (s : State) : Host.Outcome State Fault Refusal :=
  hostCmd (Cmd.plain 0x307 true [64, 64, 64]) p s (fun d =>
    d.c.loadTable p tRoute 16 4096 1 (p.arg 0) (p.arg 1) (p.arg 2) { beyond := 0x342, handle := 0x343, bad := 0x341 }
      (fun x _ e => .ok (routeOk x.conf e)))

/-- FAULT_RING. -/
def execFaultRing (p : Packet) (s : State) : Host.Outcome State Fault Refusal :=
  hostCmd (Cmd.plain 0x308 true [64, 64, 64]) p s (fun d =>
    match ringOf (p.arg 0) (p.arg 1) (p.arg 2) with
    | none => d.c.finish p 0x343 []
    | some r => (d.c.applyPend p.ctxNum (.ring 0 r)).finish p 0 [])

/-- FAULT_ABORT. -/
def execFaultAbort (p : Packet) (s : State) : Host.Outcome State Fault Refusal :=
  hostCmd (Cmd.plain 0x309 true []) p s (fun d =>
    let es := (d.c.engines.filter (fun g => match g.2.pass with | some q => q.ctx = p.ctxNum && q.parked.isSome | none => false)).map Prod.fst
    if es.isEmpty then d.c.finish p 0x344 []
    else (es.foldl (fun c e => c.giveUp e.1 e.2) d.c).finish p 0 [])

/-- STREAM_LIMITS. -/
def execStreamLimits (p : Packet) (s : State) : Host.Outcome State Fault Refusal :=
  hostCmd (Cmd.plain 0x30A true [64, 64]) p s (fun d =>
    if p.arg 0 < 1 ∨ 65535 < p.arg 0 ∨ p.arg 1 < 1 ∨ 4294967295 < p.arg 1 then d.c.finish p 0x343 []
    else (d.c.change p.ctxNum (.limits (p.arg 0) (p.arg 1))).finish p 0 [])

end Sys2Proof.Machine
end

