-- ==== Sys2Proof/Machine/Update.lean ====
section
/-!
DEFINITION. The arithmetic of the update unit: the scalars of a step, the update rules, sediment, and one shard's update
computed from its arrays (R301 to R313).
-/
namespace Sys2Proof.Machine
open Sys2Proof

/-! ## Scalars (R304, R305) -/

/-- The schedule value at a step (R304). -/
def schedAt (sch s : Nat) : Nat :=
  let segs := ((List.range 16).map (segAt sch)).filter (fun g => segPresent g && segStart g ≤ s)
  match segs.getLast? with
  | none => 0
  | some g =>
    let tau := s - segStart g
    let p := segLen g
    let q := f64ofNat (min tau p)
    let pf := f64ofNat p
    match segKind g with
    | 0 => segV0 g
    | 1 => f64.add (segV0 g) (f64.div (f64.mul (f64.sub (segV1 g) (segV0 g)) q) pf)
    | 2 => f64.add (segV1 g) (f64.div (f64.mul (f64.sub (segV0 g) (segV1 g)) (f64.add one64 (cosPi64 (min tau p) p))) (f64ofNat 2))
    | 3 => f64.mul (segV0 g) (pow64 (f64.div pf (f64ofNat (tau + p))) 1 2)
    | _ => f64.mul (segV0 g) (pow64 (segV1 g) tau p)

/-- The loss scale 2^e in binary64 (R301). -/
def lossScale (e : Int) : Nat := (f64.round .ne false { neg := false, m := 1, e := e }).code

/-- The scalars of a plan for one step: three binary64 figures and ten binary32 ones. -/
structure Scalars where
  sched : Nat
  kappa : Nat
  gnorm : Nat
  gs : Nat
  eta : Nat
  etawd : Nat
  b1 : Nat
  c1 : Nat
  b2 : Nat
  c2 : Nat
  eps : Nat
  ib1 : Nat
  ib2 : Nat
  deriving DecidableEq, Repr

/-- The scalars in the order that R305 rounds them, as the conversions of the ten binary64 values. -/
def scalarConvs (plan sch s : Nat) (e : Int) (applied normSq : Nat) : List Conv × Nat × Nat × Nat :=
  let ls := lossScale e
  let gn := f64.div (f64.sqrt normSq) ls
  let clip := uNum plan 0x40
  let kappa := if f64.lt 0 clip && f64.lt clip gn then f64.div clip gn else one64
  let sv := schedAt sch s
  let eta := f64.mul (uNum plan 0x18) sv
  let t := applied + 1
  let b1 := uNum plan 0x20
  let b2 := uNum plan 0x28
  let inv (b : Nat) : Nat := if bit (uFlags plan) 2 then f64.div one64 (f64.sub one64 (pow64 b t 1)) else one64
  ([f64.div kappa ls, eta, f64.mul eta (uNum plan 0x38), b1, f64.sub one64 b1, b2, f64.sub one64 b2, uNum plan 0x30, inv b1,
    inv b2].map (f64.conv f32), sv, kappa, gn)

/-- The scalars of R305. -/
def scalars (plan sch s : Nat) (e : Int) (applied normSq : Nat) : Scalars :=
  let r := scalarConvs plan sch s e applied normSq
  let v (i : Nat) : Nat := (r.1.map (fun k => k.code)).getD i 0
  { sched := r.2.1, kappa := r.2.2.1, gnorm := r.2.2.2, gs := v 0, eta := v 1, etawd := v 2, b1 := v 3, c1 := v 4, b2 := v 5,
    c2 := v 6, eps := v 7, ib1 := v 8, ib2 := v 9 }

/-! ## Checked binary32 arithmetic: the NaN events of R133 are kept beside the value -/

/-- Events of one element: cause and operands. -/
abbrev Calc := StateM (List (Nat × Nat × Nat))

/-- An operation's result, with its event. -/
def calcOp (v : Nat) (cause : Option Nat) (a b : Nat) : Calc Nat := fun l =>
  (v, match cause with | some k => l ++ [(k, a, b)] | none => l)
def cMul (a b : Nat) : Calc Nat := let r := f32.mulC a b; calcOp r.1 r.2 a b
def cAdd (a b : Nat) : Calc Nat := let r := f32.addR .ne a b; calcOp r.1 r.2 a b
def cSub (a b : Nat) : Calc Nat :=
  if f32.isNan a || f32.isNan b then calcOp (f32.sub a b) none a b
  else let r := f32.addR .ne a (f32.neg b); calcOp r.1 r.2 a b
def cDiv (a b : Nat) : Calc Nat :=
  let r := f32.div a b
  calcOp r (if f32.isNan r && !f32.isNan a && !f32.isNan b then some 7 else none) a b
def cSqrt (a : Nat) : Calc Nat :=
  let r := f32.sqrt a
  calcOp r (if f32.isNan r && !f32.isNan a then some 5 else none) a 0

/-- sign (x): −1, 0 or +1; of a NaN, the NaN. -/
def sign32 (a : Nat) : Nat :=
  if f32.isNan a then a
  else if a % 2 ^ 31 = 0 then 0
  else if bit a 31 then 0xBF800000 else one32

/-- The rules of R306 but the factored one: the update, and the new moments. -/
def ruleStep (rule : Nat) (k : Scalars) (g m v : Nat) : Calc (Nat × Nat × Nat) := do
  match rule with
  | 0 =>
    let m1 ← cAdd (← cMul k.b1 m) (← cMul k.c1 g)
    let v1 ← cAdd (← cMul k.b2 v) (← cMul k.c2 (← cMul g g))
    let den ← cAdd (← cSqrt (← cMul v1 k.ib2)) k.eps
    let u ← cDiv (← cMul m1 k.ib1) den
    return (u, m1, v1)
  | 1 =>
    let m1 ← cAdd (← cMul k.b1 m) g
    return (m1, m1, v)
  | _ =>
    let x ← cAdd (← cMul k.b1 m) (← cMul k.c1 g)
    let m1 ← cAdd (← cMul k.b2 m) (← cMul k.c2 g)
    return (sign32 x, m1, v)

/-- The factored rule's second pass (R306, R307). -/
def factoredStep (k : Scalars) (hasM : Bool) (g m row col mean : Nat) : Calc (Nat × Nat) := do
  let vh ← cDiv (← cMul row col) mean
  let m1 ← if hasM then cAdd (← cMul k.b1 m) (← cMul k.c1 g) else pure g
  let u ← cDiv (← cMul m1 k.ib1) (← cSqrt (← cMul vh k.ib2))
  return (u, m1)

/-- The weight after an update u; decay uses the old weight. -/
def newWeight (k : Scalars) (w u : Nat) : Calc Nat := do
  cSub (← cSub w (← cMul k.eta u)) (← cMul k.etawd w)

/-! ## Sediment (R309) -/

/-- The exponent of unit(E) for a loam16 code. -/
def sedExp (w16 : Nat) : Int := (max (bits w16 14 7) 1 : Int) - 142

/-- A loam16 master with its sediment restored, exact in binary32. -/
def restore (w16 d : Nat) : Nat :=
  let s := sext 8 d
  f32.add (loamTo32 w16) (f32.round .ne false { neg := s < 0, m := s.natAbs, e := sedExp w16 }).code

/-- The sediment of a new weight against its loam16 code. -/
def sediment (wNew w16 : Nat) : Nat :=
  match f32.decode wNew, fLoam.decode w16 with
  | .fin a, .fin b =>
    let r := a.add { b with neg := !b.neg } false
    let k : Int := roundAt .ne r.neg r.m r.e (sedExp w16)
    tc 8 (max (-128) (min 127 (if r.neg then -k else k)))
  | _, _ => 0

/-! ## One shard -/

/-- A shard's arrays as read for the sweep: sizes, the state arrays' bytes (none for an absent one), the gradient codes and the
presence bits. -/
structure ShardIn where
  np : Nat
  rows : Nat
  ct : Nat
  mas : List Byte
  sed : List Byte
  m1 : List Byte
  m2 : List Byte
  m2c : List Byte
  grad : List Byte
  present : List Byte
  deriving DecidableEq, Repr

/-- Row, column and index of a parameter (R145, R261). -/
def paramRow (ct n : Nat) : Nat := 32 * (n / 1024 / max 1 ct) + n % 1024 / 32
def paramCol (ct n : Nat) : Nat := 32 * (n / 1024 % max 1 ct) + n % 32
def paramAt (ct r j : Nat) : Nat := 1024 * (r / 32 * ct + j / 32) + 32 * (r % 32) + j % 32

/-- Code n of an array of `w`-byte elements. -/
def codeAt (l : List Byte) (w n : Nat) : Nat := fieldAt l (w * n) w

/-- Whether a tile is present (R298). -/
def ShardIn.has (x : ShardIn) (tile : Nat) : Bool := (x.present.getD (tile / 8) 0).getLsbD (tile % 8)

/-- A moment read as binary32. -/
def momAt (wide : Bool) (l : List Byte) (n : Nat) : Nat := if wide then codeAt l 4 n else loamTo32 (codeAt l 2 n)

/-- The outcome for one element: whether the sweep takes it, whether R312 keeps it, the old and new weight, the codes to write,
its events, whether it read a NaN, and the conversions by format, class and source. -/
structure ElemOut where
  on : Bool
  kept : Bool
  w : Nat
  wNew : Nat
  mas : Nat
  sed : Nat
  m1 : Nat
  m2 : Nat
  evs : List (Nat × Nat × Nat)
  nanIn : Bool
  convs : List (Nat × Conv)
  deriving DecidableEq, Repr

/-- An element left as it is. -/
def ElemOut.off (w : Nat) : ElemOut :=
  { on := false, kept := false, w := w, wNew := w, mas := 0, sed := 0, m1 := 0, m2 := 0, evs := [], nanIn := false, convs := [] }

/-- A moment written: loam16 stochastically rounded, binary32 as it is (R310). -/
def momWrite (wide : Bool) (draw v : Nat) : Nat × List (Nat × Conv) :=
  if wide then (v, [])
  else let k := fLoam.write (.st (Config.rand draw)) true (f32.decode v); (k.code, [(3, k)])

/-- Whether a moment as written is finite. -/
def momFin (wide : Bool) (code : Nat) : Bool := if wide then f32.isFin code else fLoam.isFin code

/-- The weight of an element: the binary32 master, or the loam16 master restored. -/
def ShardIn.weight (x : ShardIn) (plan n : Nat) : Nat :=
  if uLoam plan then restore (codeAt x.mas 2 n) (codeAt x.sed 1 n) else codeAt x.mas 4 n

/-- One trained element of a present tile (R306, R309, R310, R312). `row`, `col`, `mean` are the factored statistics. -/
def ShardIn.elem (x : ShardIn) (plan : Nat) (k : Scalars) (draw n row col mean : Nat) : ElemOut :=
  let wide := uWide plan
  let w := x.weight plan n
  let q := codeAt x.grad 2 n
  let m := momAt wide x.m1 n
  let v := momAt wide x.m2 n
  let fact := uRule plan = 2
  let hasM := !x.m1.isEmpty
  let prog : Calc (Nat × Nat × Nat × Nat) := do
    let g ← cMul (loamTo32 q) k.gs
    if fact then
      let (u, m1) ← factoredStep k hasM g m row col mean
      return (← newWeight k w u, u, m1, v)
    else
      let (u, m1, v1) ← ruleStep (uRule plan) k g m v
      return (← newWeight k w u, u, m1, v1)
  let r := prog []
  let wNew := r.1.1
  let hasV := uRule plan = 0
  let a := if hasM then momWrite wide (draw + 2 * n) r.1.2.2.1 else (0, [])
  let b := if hasV then momWrite wide (draw + 2 * n + 1) r.1.2.2.2 else (0, [])
  let kw := fLoam.write .ne true (f32.decode wNew)
  let code := if uLoam plan then kw.code else wNew
  let fin := f32.isFin w && f32.isFin wNew && (if uLoam plan then fLoam.isFin code else true) &&
    (!hasM || momFin wide a.1) && (!hasV || momFin wide b.1) && !(fact && mean % 2 ^ 31 = 0)
  let nanIn := f32.isNan w || fLoam.isNan q || (hasM && f32.isNan m) || (hasV && f32.isNan v)
  if fin then
    { on := true, kept := false, w := w, wNew := wNew, mas := code, sed := if uLoam plan then sediment wNew code else 0,
      m1 := a.1, m2 := b.1, evs := r.2, nanIn := nanIn, convs := (if uLoam plan then [(0, kw)] else []) ++ a.2 ++ b.2 }
  else
    { ElemOut.off w with on := true, kept := true, evs := r.2, nanIn := nanIn }

/-! ## Factored statistics (R307) -/

/-- The mean of g × g + ε over some parameters in order, and the statistic it gives; unchanged with none. -/
def statStep (x : ShardIn) (k : Scalars) (ns : List Nat) (old : Nat) : Calc Nat := do
  if ns.isEmpty then return old
  else
    let s ← ns.foldlM (fun acc n => do
      let g ← cMul (loamTo32 (codeAt x.grad 2 n)) k.gs
      let t ← cAdd (← cMul g g) k.eps
      match acc with
      | none => return some t
      | some a => return some (← cAdd a t)) (none : Option Nat)
    let mean ← cDiv (s.getD 0) (f32.round .ne false (Dy.ofInt ns.length)).code
    cAdd (← cMul k.b2 old) (← cMul k.c2 mean)

/-- Row statistics, column statistics and row mean after the first pass, with the events and the parameter each is put down to. -/
structure Stats where
  row : List Nat
  col : List Nat
  mean : Nat
  evs : List (Nat × Nat × Nat × Nat)
  deriving DecidableEq, Repr

/-- The first pass. `on` tells the trained elements of present tiles. A statistic that is NaN in memory is a NaN the action reads
(R133): a row's always, for the row mean takes them all, and a column's where the column has a trained element. -/
def firstPass (x : ShardIn) (k : Scalars) (on : Nat → Bool) : Stats :=
  let line (l : List (List Nat)) (old : List Byte) (all : Bool) : List (Nat × List (Nat × Nat × Nat × Nat)) :=
    (List.range l.length).map (fun i =>
      let ns := (l.getD i []).filter on
      let at_ := ns.headD ((l.getD i []).headD 0)
      let was := codeAt old 4 i
      let r := statStep x k ns was []
      (r.1, (if f32.isNan was && (all || !ns.isEmpty) then [(at_, 3, 0, 0)] else []) ++ r.2.map (fun e => (at_, e))))
  let rs := line ((List.range x.rows).map (fun r => (List.range (32 * x.ct)).map (fun j => paramAt x.ct r j))) x.m2 true
  let cs := line ((List.range (32 * x.ct)).map (fun j => (List.range x.rows).map (fun r => paramAt x.ct r j))) x.m2c false
  let rows := rs.map Prod.fst
  let mean : Calc Nat := do
    let s ← (rows.drop 1).foldlM (fun a b => cAdd a b) (rows.headD 0)
    cDiv s (f32.round .ne false (Dy.ofInt x.rows)).code
  let r := mean []
  { row := rows, col := cs.map Prod.fst, mean := r.1,
    evs := rs.flatMap Prod.snd ++ cs.flatMap Prod.snd ++ r.2.map (fun e => (0, e)) }

/-! ## A shard's update as a whole -/

/-- What a sweep makes of one shard: its elements, and its statistics under the factored rule. -/
structure ShardOut where
  elems : List ElemOut
  stats : Option Stats
  deriving DecidableEq, Repr

/-- Every element of a shard, in order (R306 to R312). -/
def ShardIn.run (x : ShardIn) (plan : Nat) (k : Scalars) (draw : Nat) (on : Nat → Bool) : ShardOut :=
  let st := if uRule plan = 2 then some (firstPass x k on) else none
  { stats := st,
    elems := (List.range x.np).map (fun n =>
      if on n then
        let s := match st with
          | some s => (s.row.getD (paramRow x.ct n) 0, s.col.getD (paramCol x.ct n) 0, s.mean)
          | none => (0, 0, one32)
        x.elem plan k draw n s.1 s.2.1 s.2.2
      else ElemOut.off (x.weight plan n)) }

/-- An array with the changed elements' codes put in. -/
def newArray (old : List Byte) (w : Nat) (es : List ElemOut) (f : ElemOut → Nat) : List Byte :=
  (List.range es.length).flatMap (fun n => match es[n]? with
    | some e => if e.on && !e.kept then leBytes (f e) w else (old.drop (w * n)).take w
    | none => [])

/-- The arrays after the update: master, sediment, first moment, second moment or row statistics, column statistics. -/
def ShardIn.after (x : ShardIn) (plan : Nat) (o : ShardOut) : List (List Byte) :=
  let mw := if uWide plan then 4 else 2
  [newArray x.mas (if uLoam plan then 2 else 4) o.elems (fun e => e.mas),
   if x.sed.isEmpty then [] else newArray x.sed 1 o.elems (fun e => e.sed),
   if x.m1.isEmpty then [] else newArray x.m1 mw o.elems (fun e => e.m1),
   (match o.stats with
    | some s => s.row.flatMap (fun v => leBytes v 4)
    | none => if x.m2.isEmpty then [] else newArray x.m2 mw o.elems (fun e => e.m2)),
   (match o.stats with | some s => s.col.flatMap (fun v => leBytes v 4) | none => [])]

/-- The binary64 sum of (w_new − w)² over the changed elements, its root (R313). -/
def updateNorm (o : ShardOut) : Nat :=
  f64.sqrt (o.elems.foldl (fun s e =>
    if e.on && !e.kept then
      let d := f64.sub (f32.conv f64 e.wNew).code (f32.conv f64 e.w).code
      f64.add s (f64.mul d d)
    else s) 0)

/-- Whether a shard holds an absurd value (R313). -/
def isAbsurd (plan : Nat) (o : ShardOut) : Bool :=
  (f64.lt 0 (uNum plan 0x48) && f64.lt (uNum plan 0x48) (updateNorm o)) ||
  (f64.lt 0 (uNum plan 0x50) && o.elems.any (fun e => e.on && !e.kept &&
    f64.lt (uNum plan 0x50) ((f32.conv f64 e.wNew).code % 2 ^ 63)))

/-- Events and census counts of a shard's update (R133, R310, R494). -/
def ShardOut.report (o : ShardOut) (sid : Nat) : Report :=
  let ev (n : Nat) (e : Nat × Nat × Nat) : NanEv :=
    { cause := e.1, row := sid, col := n, kpos := 0, opa := if e.1 = 1 then e.2.1 else 0, opb := if e.1 = 1 then e.2.2 else 0 }
  let r0 := match o.stats with
    | some s => s.evs.foldl (fun (r : Report) e => r.event (ev e.1 e.2)) Report.none
    | none => Report.none
  (List.range o.elems.length).foldl (fun (r : Report) n => match o.elems[n]? with
    | some e =>
      let r1 := e.evs.foldl (fun (r : Report) q => r.event (ev n q)) r
      let r2 := if e.nanIn then r1.event (ev n (3, 0, 0)) else r1
      e.convs.foldl (fun (r : Report) q => r.conv 0 1 q.1 q.2) r2
    | none => r) r0

/-! ## The published copy (R262, R310) -/

/-- The runs of bytes of a published copy that differ from the master: each line with a swept element; a kept element of an
unscaled format is left alone. Addresses count from S_PUB. -/
def published (fmt np : Nat) (es : List ElemOut) (sid : Nat) : List (Nat × List Byte) × Report :=
  let bytes := cdiv (np * fmtBits fmt) 8
  (List.range (np / 32)).foldl (fun (acc : List (Nat × List Byte) × Report) l =>
    let ln := (es.drop (32 * l)).take 32
    if ln.all (fun e => !e.on) then acc
    else if grainScaled fmt then
      let vs := ln.map (fun e => f32.decode e.wNew)
      let sc := surveyScale fmt vs
      let ks := vs.map (fun v => writeElem fmt sc .ne true v)
      let packed := (List.range 32).foldl (fun a i => a + ((ks.map (fun k => k.1.code)).getD i 0) * 2 ^ (fmtBits fmt * i)) 0
      let rep := (List.range 32).foldl (fun (r : Report) i => match ks[i]? with
        | some k =>
          let r1 := r.conv 0 fmt 0 k.1
          (match k.2 with
           | some q => r1.event { cause := q, row := sid, col := 32 * l + i, kpos := 0, opa := 0, opb := 0 }
           | none => r1)
        | none => r) acc.2
      -- R119: a grain that takes the scale 0xFF for an infinity forms one event
      let rep1 := if sc = 255 && !(vs.any (fun v => match v with | .nan _ _ => true | _ => false)) then
          (match vs.findIdx? (fun v => match v with | .inf _ => true | _ => false) with
           | some i => rep.event { cause := 7, row := sid, col := 32 * l + i, kpos := 0, opa := 0, opb := 0 }
           | none => rep)
        else rep
      (acc.1 ++ [(l * (4 * fmtBits fmt), leBytes packed (4 * fmtBits fmt)), (bytes + l, leBytes sc 1)], rep1)
    else
      (List.range 32).foldl (fun (acc : List (Nat × List Byte) × Report) i => match ln[i]? with
        | some e =>
          if e.kept || !e.on then acc
          else
            let k := writeElem fmt 127 .ne true (f32.decode e.wNew)
            (acc.1 ++ [((32 * l + i) * (fmtBits fmt / 8), leBytes k.1.code (fmtBits fmt / 8))], acc.2.conv 0 fmt 0 k.1)
        | none => acc) acc) ([], Report.none)

end Sys2Proof.Machine
end

