-- ==== Sys2Proof/Machine/Sweep.lean ====
section
/-!
DEFINITION. The update unit's sweep and the state difference stream: SWEEP, its shards, the host path, export records and their
rings (R106, R299, R300, R305, R311 to R326, R443).
-/
namespace Sys2Proof.Machine
open Sys2Proof

/-! ## Access by the update unit (R300, R314, R315) -/

/-- Bytes of a local stretch wherever its plots lie: HBM, or their frames (the host path). Errors as R181's causes, 5 poison. -/
def Core.uuRead (c : Core) (n a len : Nat) : Except Nat (List Byte) :=
  match c.ctx? n with
  | none => .error 4
  | some x =>
    (List.range len).foldl (fun acc k => match acc with
      | .error e => .error e
      | .ok l => match x.objAt (a + k) with
        | none => .error 4
        | some (i, o) => match c.objByte n i o (a + k - o.base) with
          | .ok b => .ok (l ++ [b])
          | .error e => .error e) (.ok [])

/-- The address plot of an update unit's stretch, written by DMA where it is a host plot. -/
def Core.uuPut (c : Core) (n a : Nat) (b : List Byte) : Core :=
  match c.entryAt n (a / plotBytes) with
  | some (_, _, _, e) =>
    if e.st = .host then
      (match e.frame.bind (fun f => kget c.frames f) with
       | some fr => c.dma (fr.addr + a % plotBytes) b
       | none => c)
    else (match c.writeChunk n a b with | .ok c1 => c1 | .error _ => c)
  | none => c

/-- Bytes written wherever their plots lie. -/
def Core.uuWrite (c : Core) (n a : Nat) (b : List Byte) : Core :=
  ((chunks a (b.length + 1) b.length).foldl (fun (c : Core) k => c.uuPut n k.1 ((b.drop (k.1 - a)).take k.2)) c).touchAt n a

/-- Address plots of a stretch. -/
def plotsOf (a len : Nat) : List Nat :=
  if len = 0 then [] else (List.range ((a + len - 1) / plotBytes + 1 - a / plotBytes)).map (fun k => a / plotBytes + k)

/-- The two stacks of an update unit's port die. -/
def uuStack (d m : Nat) : Bool := m / 2 = 3 * dieRegion d + (dieLocal d - 10)

/-- A stretch within the unit's two stacks (R300). -/
def uuRange (d a len : Nat) : Bool := (plotsOf a len).all (fun p => uuStack d (p / 32768))

/-- Address plots of a shard's state arrays, and with them those of its published copy. -/
def Core.statePlots (c : Core) (n p e : Nat) : List Nat := ((c.stateArrays n p e).flatMap (fun r => plotsOf r.1 r.2)).eraseDups
def Core.shardPlots (c : Core) (n p e : Nat) : List Nat :=
  let sh := c.entry n tShard (slReg e)
  (c.statePlots n p e ++ plotsOf (shPub sh) (c.pubBytes n sh)).eraseDups

/-- The state of an address plot; none where no object holds it. -/
def Core.plotSt (c : Core) (n plot : Nat) : Option PlotSt := (c.entryAt n plot).map (fun q => q.2.2.2.st)

/-- Whether a host plot can be reached through the host path: not in a confidential context, unless all it holds is poison. -/
def Core.hostPath (c : Core) (n plot : Nat) : Bool :=
  !(match c.ctx? n with | some x => x.conf | none => true) ||
  (match c.entryAt n plot with | some (_, _, _, e) => e.poison && e.frame.isNone | none => false)

/-! ## A SWEEP's beginning (R296, R299, R300, R305, R314, R320) -/

/-- R300's and R320's checks of a list entry. -/
def Core.sweepEntryOk (c : Core) (n d plan e : Nat) : Bool :=
  match c.ctx? n with
  | none => false
  | some x =>
    let np := c.shardParams n (c.entry n tShard (slReg e))
    let map := mapAt (slGrad e) np
    let acc := 256 + c.imageLen n plan e
    c.shardListOk n plan e && x.inFloor (slGrad e) (2 * np) && x.inFloor map (8 + cdiv (np / 1024) 8) &&
    (c.stateArrays n plan e).all (fun r => uuRange d r.1 r.2) && uuRange d (slGrad e) (map + 8 + cdiv (np / 1024) 8 - slGrad e) &&
    (slXacc e = 0 || (x.inFloor (slXacc e) acc && uuRange d (slXacc e) acc)) &&
    (match (if uExports plan then kget x.exports (uExport plan) else none) with
     | some q => q.kind = 0 || c.largestRecord n plan e ≤ q.bytes - 256
     | none => true)

/-- The scalars of a sweep's step, from the verdict record and the loss scale in force (R305). -/
def Core.sweepScalars (c : Core) (n plan : Nat) : Scalars :=
  let l := match c.ctx? n with | some x => (x.loss.e, x.loss.applied) | none => (0, 0)
  let norm := match (c.stepSt n).verdict with | some v => v.normSq.toNat | none => 0
  scalars plan (c.entry n tSched (uSched plan)) (c.stepOf n) l.1 l.2 norm

/-- The ten roundings of the scalars counted (R305). -/
def Core.countScalars (c : Core) (n plan : Nat) : Core :=
  let l := match c.ctx? n with | some x => (x.loss.e, x.loss.applied) | none => (0, 0)
  let norm := match (c.stepSt n).verdict with | some v => v.normSq.toNat | none => 0
  let ks := (scalarConvs plan (c.entry n tSched (uSched plan)) (c.stepOf n) l.1 l.2 norm).1
  (ks.foldl (fun (r : Report) k => r.conv 10 0 0 k) Report.none).census.foldl (fun c e => c.censusAdd n e.1 e.2) c

/-- Whether an address plot is on its way into HBM, or waits to be. -/
def Core.coming (c : Core) (n p : Nat) : Bool :=
  match c.entryAt n p with
  | some (_, k, o, e) => o.want.contains k || e.st = .arriving
  | none => false

/-- Plots asked for, at most 512 of those the SWEEP has asked for outstanding at once, in list order (R314). The plots of a shard are
those of its state arrays and of its published copy. -/
def Core.sweepRequest (c : Core) (d : Nat) : Core :=
  match kget c.sweeps d with
  | none => c
  | some w =>
    let plan := c.entry w.ctx tPlan w.plan
    match c.shardList w.ctx plan with
    | .error _ => c
    | .ok l =>
      let plots := ((w.order.drop w.pos).flatMap (fun i => c.shardPlots w.ctx plan (l.getD i 0))).eraseDups
      let res := plots.foldl (fun (acc : Core × List Nat) p =>
        match acc.1.entryAt w.ctx p with
        | some (i, k, _, e) =>
          let out := (acc.2.filter (acc.1.coming w.ctx)).length
          if e.st = .resident ∨ acc.2.contains p ∨ 512 ≤ out then acc
          else (if acc.1.coming w.ctx p then acc.1 else acc.1.promote w.ctx i k 1, acc.2 ++ [p])
        | none => acc) (c, w.asked.filter (c.coming w.ctx))
      { res.1 with sweeps := kmod res.1.sweeps d (fun w => { w with asked := res.2 }) }

/-- Every sweep in progress asks for more. -/
def Core.allRequests (c : Core) : Core := (keys c.sweeps).foldl (fun c d => c.sweepRequest d) c

/-- Shards whose version already carries the step are skipped; the objects of the next one are held from eviction (R311, R314). -/
def Core.skipSwept (c : Core) (n plan : Nat) (l : List Nat) : List Nat → Nat → Nat
  | [], pos => pos
  | i :: r, pos =>
    if shVersion (c.entry n tShard (slReg (l.getD i 0))) % 2 ^ 40 = c.stepOf n then c.skipSwept n plan l r (pos + 1) else pos
def Core.sweepAdvance (c : Core) (d : Nat) : Core :=
  match kget c.sweeps d with
  | none => c
  | some w =>
    let plan := c.entry w.ctx tPlan w.plan
    match c.shardList w.ctx plan with
    | .error _ => c
    | .ok l =>
      let pos := c.skipSwept w.ctx plan l (w.order.drop w.pos) w.pos
      let hold := match w.order[pos]? with
        | some i => ((c.shardPlots w.ctx plan (l.getD i 0)).filterMap (fun p => (c.entryAt w.ctx p).map (fun q => q.1))).eraseDups
        | none => []
      { c with sweeps := kset c.sweeps d { w with pos := pos, hold := hold } }

/-! ## Export records (R319 to R326, R443) -/

/-- Zero bytes at the head of a list. -/
def zeroHead : List Byte → Nat
  | [] => 0
  | b :: r => if b = 0 then zeroHead r + 1 else 0

/-- A literal's tokens, and a zero run's. -/
def literal (l : List Byte) : List Byte :=
  (pieces 32767 0 l (l.length + 1)).flatMap (fun q => leBytes (0x8000 + q.2.length) 2 ++ q.2)
def zeroTokens (z : Nat) : List Byte :=
  (List.range (z / 32767)).flatMap (fun _ => leBytes 32767 2) ++ (if z % 32767 = 0 then [] else leBytes (z % 32767) 2)

/-- The run-length form of a difference (R323). A zero run of four bytes or more stands by itself, so that a literal it divides
costs no more than R320 allows (DESIGN CHOICE: the spec fixes the tokens, not the division). -/
def runLength : Nat → List Byte → List Byte → List Byte
  | 0, _, lit => literal lit
  | fuel + 1, l, lit =>
    if l.isEmpty then literal lit
    else
      let z := zeroHead l
      if 4 ≤ z then literal lit ++ zeroTokens z ++ runLength fuel (l.drop z) []
      else runLength fuel (l.drop (max z 1)) (lit ++ l.take (max z 1))

/-- Bytes XORed. -/
def xorBytes (a b : List Byte) : List Byte := (List.range a.length).map (fun i => a.getD i 0 ^^^ b.getD i 0)

/-- Whether a context's records of a host ring are sealed (R324). -/
def Ctx.seals (x : Ctx) (q : Export) : Bool := x.conf && q.kind = 1

/-- A record in clear: header and body, before its tag and padding (R322). -/
def recordBytes (step kind shard gen form params len since : Nat) (body : List Byte) : List Byte :=
  leBytes (stepMod step + kind * 2 ^ 40) 8 ++ leBytes shard 4 ++ leBytes gen 1 ++ leBytes form 1 ++ zeros 2 ++ leBytes params 4 ++
  leBytes len 4 ++ leBytes (since % 2 ^ 40) 8 ++ body

/-- Bytes that a record takes in its ring. -/
def recordLen (sealed : Bool) (rec : List Byte) : Nat := cdiv (rec.length + (if sealed then 16 else 0)) 64 * 64

/-- "GNW-EXPORT", the info of an export entry's subkey (R443). -/
def exportInfo : List Byte := [0x47, 0x4E, 0x57, 0x2D, 0x45, 0x58, 0x50, 0x4F, 0x52, 0x54]

/-- A record as it stands in the ring: its body sealed in a confidential context's host ring, padded (R322, R324, R443). -/
def Ctx.ringRecord (x : Ctx) (entry : Nat) (q : Export) (rec : List Byte) : List Byte :=
  let full := match x.seals q, x.dataKey with
    | true, some k =>
      let sub := Config.hkdf [] k.key (exportInfo ++ leBytes entry 1 ++ leBytes q.sets 4) 32
      let s := Config.gcmSeal sub q.producer (rec.take 32) (rec.drop 32)
      rec.take 32 ++ s.1 ++ s.2
    | _, _ => rec
  padTo (recordLen (x.seals q) rec) full

/-- Whether a record may be written now: room by R319's test, and the key at hand where it must be sealed. -/
def Ctx.fits (x : Ctx) (q : Export) (rec : List Byte) : Bool :=
  (q.producer + recordLen (x.seals q) rec + 2 ^ 64 - q.consumer) % 2 ^ 64 ≤ q.bytes - 256 && (!(x.seals q) || x.dataKey.isSome)

/-- The stretches of a ring that bytes at an offset take, the wrap included. -/
def ringStretches (q : Export) (l : List Byte) : List (Nat × List Byte) :=
  let room := q.bytes - 256
  let start := q.producer % room
  let first := l.take (room - start)
  let rest := l.drop (room - start)
  (256 + start, first) :: (if rest.isEmpty then [] else [(256, rest)])

/-- The producer offset made visible (R319). -/
def Core.writeProducer (c : Core) (n d : Nat) (q : Export) : Core :=
  if q.kind = 1 then (if c.reach q.base 8 then c.dma q.base (leBytes q.producer 8) else c)
  else c.request n (q.base / 2 ^ 45) kWrite (leBytes (q.base % 2 ^ 45) 8 ++ leBytes q.producer 8) (.uu d)

/-- An export entry changed. -/
def Core.modExport (c : Core) (n entry : Nat) (f : Export → Export) : Core :=
  c.modCtx n (fun x => { x with exports := kmod x.exports entry f })

/-- One record handed on: by DMA with the producer offset after it, or by WRITEs, whose completion moves the offset. -/
def Core.handOn (c : Core) (n entry d : Nat) (rec : List Byte) : Core :=
  match c.ctx? n with
  | none => c
  | some x =>
    match kget x.exports entry with
    | none => c
    | some q =>
      let full := x.ringRecord entry q rec
      let q1 := { q with producer := (q.producer + full.length) % 2 ^ 64 }
      let c1 := c.bump (subBase d 8 0 + 0x430) 64 full.length
      if q.kind = 1 then
        let c2 := (ringStretches q full).foldl (fun c r =>
          if c.reach (q.base + r.1) r.2.length then c.dma (q.base + r.1) r.2 else c) c1
        (c2.modExport n entry (fun _ => q1)).writeProducer n d q1
      else
        let todo := (ringStretches q full).flatMap (fun r => pieces 7168 (q.base + r.1) r.2 (r.2.length + 1))
        let res := todo.foldl (fun (acc : Core × List Nat) r =>
          (acc.1.request n (r.1 / 2 ^ 45) kWrite (leBytes (r.1 % 2 ^ 45) 8 ++ r.2) (.uu d), acc.2 ++ [acc.1.nextTag % 2 ^ 20])) (c1, [])
        res.1.modExport n entry (fun _ => { q1 with tags := q.tags ++ res.2 })

/-- The waiting records of an entry handed on in order, as far as there is room. -/
def Core.flushExport (c : Core) (n entry : Nat) : Nat → Core
  | 0 => c
  | fuel + 1 =>
    match c.ctx? n with
    | none => c
    | some x =>
      match kget x.exports entry with
      | none => c
      | some q =>
        match q.waiting with
        | [] => c
        | (_, d, rec) :: rest =>
          if x.fits q rec then
            ((c.modExport n entry (fun q => { q with waiting := rest })).handOn n entry d rec).flushExport n entry fuel
          else c

/-- One record dropped (R326): counted, and its shard's next emission forced to be bedrock. -/
def Core.dropRecord (c : Core) (n entry d acc : Nat) : Core :=
  ((c.modExport n entry (fun q => { q with emitted := q.emitted.filter (· ≠ acc) })).modCtx n (fun x => { x with
    updStat := { x.updStat with overrun := (x.updStat.overrun + 1) % 2 ^ 32 } })).bump (subBase d 8 0 + 0x42C) 32 1

/-- A record enters its entry's queue, or is dropped with the rest of its sweep's. -/
def Core.emitRecord (c : Core) (n entry d acc : Nat) (rec : List Byte) : Core :=
  match (c.ctx? n).bind (fun x => kget x.exports entry) with
  | none => c
  | some q =>
    if q.dropping.contains d then c.dropRecord n entry d acc
    else (c.modExport n entry (fun q => { q with waiting := q.waiting ++ [(acc, d, rec)] })).flushExport n entry (q.waiting.length + 1)

/-- Whether records of a unit still wait for room. -/
def Core.recordsWait (c : Core) (n d : Nat) : Bool :=
  match c.ctx? n with
  | some x => x.exports.any (fun q => q.2.waiting.any (fun r => r.2.1 = d))
  | none => false

/-- The export of a finished shard (R321): the record of its condition, or the difference folded into the accumulator. -/
def Core.exportShard (c : Core) (n d plan e : Nat) (old new : List Byte) : Core :=
  match (c.ctx? n).bind (fun x => (kget x.exports (uExport plan)).map (fun q => (x, q))) with
  | none => c
  | some (x, q) =>
    if !(uExports plan) || q.kind = 0 then c
    else
      let acc := slXacc e
      let s := c.stepOf n
      let sh := c.entry n tShard (slReg e)
      match c.uuRead n acc 256 with
      | .error _ => c
      | .ok hd =>
        let last := fieldAt hd 0 8 % 2 ^ 40
        let pend := fieldAt hd 8 2
        let extra := if x.seals q then 16 else 0
        let form := uRule plan % 4 + 4 * b2n (uLoam plan) + 8 * b2n (uWide plan) + 16 * b2n (slM1 e ≠ 0)
        let emit (c : Core) (kind since : Nat) (body : List Byte) : Core :=
          let c1 := c.uuWrite n acc (leBytes s 8 ++ zeros (248 + old.length))
          let c2 := (c1.modCtx n (fun x => { x with bedrock := x.bedrock.filter (· ≠ acc) })).modExport n (uExport plan) (fun q =>
            { q with emitted := (q.emitted ++ [acc]).eraseDups })
          c2.emitRecord n (uExport plan) d acc (recordBytes s kind (shId sh) (shVersion sh / 2 ^ 40 % 256) form
            (c.shardParams n sh) (body.length + extra) since body)
        let step := xorBytes old new
        if hd.all (fun b => b = 0) || x.bedrock.contains acc || !(q.emitted.contains acc) then emit c 2 0 new
        else if 0 < q.interval ∧ s % q.interval = 0 then emit c 2 0 new
        else
          match (if q.stride = 1 then .ok (zeros old.length) else c.uuRead n (acc + 256) old.length) with
          | .error _ => c
          | .ok area =>
            let sum := xorBytes area step
            if pend + 1 = q.stride then emit c 1 (last + 1) (runLength (sum.length + 1) sum [])
            else (c.uuWrite n (acc + 256) sum).uuWrite n (acc + 8) (leBytes (pend + 1) 2)

/-! ## The end of a SWEEP -/

/-- The end-of-sweep record (R321, R322). The spec gives no generation, first-moment bit or E_SINCE for it: free values. -/
def Core.endRecord (c : Core) (d : Nat) (w : SweepSt) : Core :=
  let plan := c.entry w.ctx tPlan w.plan
  match (c.ctx? w.ctx).bind (fun x => (kget x.exports (uExport plan)).map (fun q => (x, q))) with
  | none => c
  | some (x, q) =>
    if !(uExports plan) || q.kind = 0 then c
    else
      let f (i m : Nat) : Nat := Config.unstated 9 (c.freeCtr + i) % m
      { c with freeCtr := c.freeCtr + 3 }.emitRecord w.ctx (uExport plan) d 0
        (recordBytes (c.stepOf w.ctx) 3 w.plan (f 0 256) (uRule plan % 4 + 4 * b2n (uLoam plan) + 8 * b2n (uWide plan) + 16 * f 1 2)
          w.finished (if x.seals q then 16 else 0) (f 2 (2 ^ 40)) [])

/-- Once every shard is finished or skipped the end-of-sweep record follows; once no record waits the action completes (R83). -/
def Core.sweepEnd (c : Core) (d : Nat) : Core :=
  match c.active (.uu d) 0x71, kget c.sweeps d with
  | some r, some w =>
    if w.pos < w.order.length ∨ c.recordsWait w.ctx d then c
    else
      let c1 := if w.pos = w.order.length then
          ({ c with sweeps := kset c.sweeps d { w with pos := w.pos + 1, hold := [] } }).endRecord d w
        else c
      if c1.recordsWait w.ctx d then c1
      else ((c1.actDone (.uu d)).modCtx w.ctx (fun x => { x with
        exports := x.exports.map (fun (q : Nat × Export) => (q.1, { q.2 with dropping := q.2.dropping.filter (· ≠ d) })) })).sweepEvents d r.a
  | _, _ => c

/-- A SWEEP that applies begins (R305, R314, R330): its scalars, and its shards in order, warm ones first. -/
def Core.sweepStart (c : Core) (d n pe : Nat) (l : List Nat) : Core :=
  let plan := c.entry n tPlan pe
  let k := c.sweepScalars n plan
  let warm (i : Nat) : Bool := (c.statePlots n plan (l.getD i 0)).all (fun p => c.plotSt n p = some .resident)
  let order := (List.range l.length).filter warm ++ (List.range l.length).filter (fun i => !(warm i))
  let c1 := (c.countScalars n plan).modCtx n (fun x => { x with
    exports := x.exports.map (fun (q : Nat × Export) => (q.1, { q.2 with dropping := q.2.dropping.filter (· ≠ d) })),
    updStat := { x.updStat with
    step := c.stepOf n, sched := BitVec.ofNat 64 k.sched, kappa := BitVec.ofNat 64 k.kappa, gnorm := BitVec.ofNat 64 k.gnorm } })
  let w : SweepSt := { ctx := n, plan := pe, order := order, pos := 0, finished := 0, hold := [], asked := [], evs := 0, input := false,
                       best := none }
  ({ c1 with sweeps := kset c1.sweeps d w }).modRunning (.uu d) (fun q => { q with started := true })

/-- The stretches that the sweep of one shard reads: its arrays, its gradient and presence map, its published copy's object, and the
accumulator of an exporting plan. -/
def Core.shardReads (c : Core) (n plan e : Nat) : List (Nat × Nat) :=
  let np := c.shardParams n (c.entry n tShard (slReg e))
  let map := mapAt (slGrad e) np
  c.stateArrays n plan e ++ [(slGrad e, 2 * np), (map, 8 + cdiv (np / 1024) 8)] ++
    (if uExports plan && slXacc e ≠ 0 then [(slXacc e, 256 + c.imageLen n plan e)] else [])

/-- Stretches read for the action of an update unit: their objects touched (R235), their words checked (R248). Answers whether the
action faulted. -/
def Core.unitReads (c : Core) (u : UnitId) (n : Nat) (l : List (Nat × Nat)) : Core × Bool :=
  (l.foldl (fun c r => if r.2 = 0 then c else c.touchAt n r.1) c).actionReads u n l

/-- SWEEP begins (R106, R296, R300, R305, R314), or looks again at its end. -/
def Core.sweepAct (c : Core) (d : Nat) : Core :=
  let u := UnitId.uu d
  match c.active u 0x71 with
  | none => c
  | some r =>
    let n := r.a.ctx
    let pe := aEntry r.a.bits
    let plan := c.entry n tPlan pe
    if r.started then c.sweepEnd d
    else if plan = 0 then c.actionFault u 4 pe
    else if !(match c.ctx? n with | some x => x.inFloor (uList plan) (128 * uCount plan) | none => false) then c.actionFault u 4 pe
    else match c.unitReads u n [(uList plan, 128 * uCount plan)] with
    | (c, true) => c
    | (c, false) => match c.shardList n plan with
      | .error k => c.actionFault u (readReason k) pe
      | .ok l =>
        match (List.range l.length).find? (fun i => !(c.sweepEntryOk n d plan (l.getD i 0))) with
        | some i => c.actionFault u 4 i
        | none =>
          match (c.stepSt n).verdict with
          | none => c
          | some v =>
            if v.decision ≠ 0 then c.actDone u
            else (((c.sweepStart d n pe l).sweepAdvance d).sweepRequest d).sweepEnd d

/-- SWEEP. -/
def execSweep (die : Nat) (s : State) : Host.Outcome State Fault Refusal := s.guard (isPort die) (fun d => d.c.sweepAct die)

/-! ## One shard (R306 to R313) -/

/-- A shard's arrays and its gradient as the sweep reads them. -/
def Core.readShard (c : Core) (n plan e : Nat) : Except Nat ShardIn :=
  let sh := c.entry n tShard (slReg e)
  let np := c.shardParams n sh
  let ct := lyCols (c.entry n tLayer (shLayer sh)) / 32
  let mw := if uWide plan then 4 else 2
  let opt (a len : Nat) : Except Nat (List Byte) := if a = 0 then .ok [] else c.uuRead n a len
  match c.uuRead n (slMaster e) (np * (if uLoam plan then 2 else 4)), opt (slSed e) np, opt (slM1 e) (np * mw),
      opt (slM2 e) (if uRule plan = 2 then 4 * shRows sh else np * mw), opt (slM2c e) (128 * ct),
      c.uuRead n (slGrad e) (2 * np), c.uuRead n (mapAt (slGrad e) np) (8 + cdiv (np / 1024) 8) with
  | .ok mas, .ok sed, .ok m1, .ok m2, .ok m2c, .ok g, .ok map =>
    .ok { np := np, rows := shRows sh, ct := ct, mas := mas, sed := sed, m1 := m1, m2 := m2, m2c := m2c, grad := g,
          present := if fieldAt map 0 8 % 2 ^ 40 = c.stepOf n then map.drop 8 else [] }
  | a, b, d, e, f, g, h => .error (([a, b, d, e, f, g, h].findSome? (fun r => match r with | .error k => some k | .ok _ => none)).getD 5)

/-- A shard's state image from its arrays (R323). -/
def ShardIn.image (x : ShardIn) : List Byte := x.mas ++ x.sed ++ x.m1 ++ x.m2 ++ x.m2c

/-- The reports of a shard kept until the SWEEP ends, its census counts made now. -/
def Core.sweepReport (c : Core) (d n : Nat) (r : Report) : Core :=
  let c1 := r.census.foldl (fun c e => c.censusAdd n e.1 e.2) c
  match kget c1.sweeps d with
  | none => c1
  | some w =>
    let join : Option (Nat × Nat × Nat × Nat × Nat) := match w.best, r.best with
      | some b, some e => if causeRank e.cause < causeRank b.1 ∨
          (causeRank e.cause = causeRank b.1 ∧ (e.row < b.2.1 ∨ (e.row = b.2.1 ∧ e.col < b.2.2.1))) then
            some (e.cause, e.row, e.col, e.opa, e.opb) else some b
      | some b, none => some b
      | none, some e => some (e.cause, e.row, e.col, e.opa, e.opb)
      | none, none => none
    { c1 with sweeps := kset c1.sweeps d { w with evs := w.evs + r.count, input := w.input || r.input, best := join } }

/-- The counters of a finished shard (R312, R313, R327). -/
def Core.countShard (c : Core) (d n plan sid : Nat) (host : Bool) (o : ShardOut) : Core :=
  let b := subBase d 8 0
  let upd := (o.elems.filter (fun e => e.on && !e.kept)).length
  let kept := (o.elems.filter (fun e => e.kept)).length
  let bad := isAbsurd plan o
  let c1 := (c.bump (b + 0x410) 64 upd).bump (b + 0x418) 64 (if host then upd else 0)
  let c2 := c1.bump (b + 0x420) 32 kept
  let c3 := if bad then (c2.bump (b + 0x424) 32 1).rset (b + 0x428) sid else c2
  if 0 < kept ∨ (bad ∧ bit (uFlags plan) 3) then c3.modCtx n (fun x => { x with absurdNext := true }) else c3

/-- One shard swept: arrays, published copy, counters, version, export. -/
def Core.sweepShard (c : Core) (d n plan e : Nat) (x : ShardIn) (host : Bool) : Core :=
  let reg := slReg e
  let sh := c.entry n tShard reg
  let on (k : Nat) : Bool := x.has (k / 1024) &&
    c.trained n (shLayer sh) (shRow0 sh + paramRow x.ct k) (paramCol x.ct k)
  let o := x.run plan (c.sweepScalars n plan) c.freeCtr on
  let new := x.after plan o
  let c1 := { c with freeCtr := c.freeCtr + 2 * x.np }
  let c2 := (List.zip [slMaster e, slSed e, slM1 e, slM2 e, slM2c e] new).foldl (fun c r =>
    if r.2.isEmpty then c else c.uuWrite n r.1 r.2) c1
  let pub := if shPub sh = slMaster e then ([], Report.none) else published (shFmt sh) x.np o.elems (shId sh)
  let c3 := pub.1.foldl (fun c r => c.uuWrite n (shPub sh + r.1) r.2) c2
  let c4 := (c3.sweepReport d n ((o.report (shId sh)).join pub.2)).countShard d n plan (shId sh) host o
  let ver := shVersion sh / 2 ^ 40 * 2 ^ 40 + c.stepOf n
  (c4.setVersion n reg ver).exportShard n d plan e x.image new.flatten

/-- SHARD_SWEEP_DONE: the next shard in the sweep's order is finished, if its plots allow it now (R314, R315). -/
def Core.shardDone (c : Core) (d : Nat) : Core :=
  let u := UnitId.uu d
  match c.active u 0x71, kget c.sweeps d with
  | some r, some w =>
    let n := w.ctx
    let plan := c.entry n tPlan w.plan
    if c.recordsWait n d ∨ w.order.length ≤ w.pos then c.sweepEnd d
    else match c.shardList n plan with
      | .error k => c.actionFault u (readReason k) (aEntry r.a.bits)
      | .ok l =>
        let i := w.order.getD w.pos 0
        let e := l.getD i 0
        let plots := c.shardPlots n plan e
        if plots.any (fun p => (c.plotSt n p).isNone) then c.actionFault u 0x0A i
        else if plots.any (fun p => c.plotSt n p ≠ some .resident && !(c.plotSt n p = some .host && c.hostPath n p)) then c.sweepRequest d
        else match c.unitReads u n (c.shardReads n plan e) with
        | (c, true) => c
        | (c, false) => match c.readShard n plan e with
          | .error k => c.actionFault u (readReason k) i
          | .ok x =>
            match c.checks u [] [(1, x.np)] with
            | (c1, true) => c1
            | (c1, false) =>
              let c2 := c1.sweepShard d n plan e x (plots.any (fun p => c.plotSt n p = some .host))
              let next (v : SweepSt) : SweepSt := { v with pos := v.pos + 1, finished := v.finished + 1 }
              (({ c2 with sweeps := kmod c2.sweeps d next }.sweepAdvance d).sweepRequest d).sweepEnd d
  | _, _ => c

/-- SHARD_SWEEP_DONE. -/
def execShardSweepDone (die : Nat) (s : State) : Host.Outcome State Fault Refusal :=
  s.guard (isPort die) (fun d => d.c.shardDone die)

/-- PLOT_PROMOTE_DONE: the move's own end, then the sweeps' next requests. -/
def execPlotPromoteDone (ctx plot : Nat) (authOk : Bool) (s : State) : Host.Outcome State Fault Refusal :=
  s.guard (ctx < 16) (fun d => if !d.stacksUp then d.c else (d.c.promoteDone ctx plot authOk).allRequests)

/-! ## Rings (R319, R326) -/

/-- Every sweep of a context looks at its end. -/
def Core.sweepEnds (c : Core) (n : Nat) : Core :=
  (c.sweeps.filter (fun w => w.2.ctx = n)).foldl (fun c w => c.sweepEnd w.1) c

/-- EXPORT_RING_ROOM: the consumer offset as read again; the waiting records that now fit are handed on. -/
def execExportRingRoom (ctx entry consumer : Nat) (s : State) : Host.Outcome State Fault Refusal :=
  s.guard (ctx < 16 && entry < 16 && consumer < 2 ^ 64) (fun d =>
    match (d.c.ctx? ctx).bind (fun x => kget x.exports entry) with
    | none => d.c
    | some q =>
      ((d.c.modExport ctx entry (fun q => { q with consumer := consumer })).flushExport ctx entry (q.waiting.length + 1)).sweepEnds ctx)

/-- EXPORT_RECORD_DROP: the record that waits longest, and those of its sweep behind it, are dropped. -/
def execExportRecordDrop (ctx entry : Nat) (s : State) : Host.Outcome State Fault Refusal :=
  s.guard (ctx < 16 && entry < 16) (fun d =>
    match (d.c.ctx? ctx).bind (fun x => kget x.exports entry) with
    | none => d.c
    | some q =>
      match q.waiting with
      | [] => d.c
      | (_, die, _) :: _ =>
        let gone := q.waiting.filter (fun r => r.2.1 = die)
        let live := (d.c.active (.uu die) 0x71).isSome
        let c1 := gone.foldl (fun c r => c.dropRecord ctx entry die r.1) d.c
        ((c1.modExport ctx entry (fun q => { q with
          waiting := q.waiting.filter (fun r => r.2.1 ≠ die),
          dropping := if live && !(q.dropping.contains die) then q.dropping ++ [die] else q.dropping })).flushExport ctx entry
            (q.waiting.length + 1)).sweepEnds ctx)

/-! ## PUSH (R106, R317) -/

/-- The messages of one push: pieces of the published range, the last marked; a range of no bytes is one empty piece. -/
def pushPieces (sid ver : Nat) (b : List Byte) : List (List Byte) :=
  let ps := if b.isEmpty then [(0, [])] else pieces 7168 0 b (b.length + 1)
  (List.range ps.length).map (fun i =>
    let q := ps.getD i (0, [])
    leBytes sid 4 ++ leBytes ver 8 ++ leBytes q.1 8 ++ leBytes (b2n (i + 1 = ps.length)) 1 ++ q.2)

/-- A published range sent to one device; answers the tags of its messages. -/
def Core.sendPush (c : Core) (n d dst sid ver : Nat) (b : List Byte) : Core × List Nat :=
  (pushPieces sid ver b).foldl (fun (acc : Core × List Nat) pl =>
    (acc.1.request n dst kPush pl (.uu d), acc.2 ++ [acc.1.nextTag % 2 ^ 20])) (c, [])

/-- PUSH is complete once the far ends have acknowledged all of its flits. -/
def Core.pushEnd (c : Core) (d : Nat) : Core :=
  match c.active (.uu d) 0x72 with
  | none => c
  | some r =>
    if r.started ∧ (kgetD c.pushTags d []).isEmpty then { c with pushTags := kdel c.pushTags d }.actDone (.uu d) else c

/-- One shard of the plan pushed to each of its holders. -/
def Core.pushShard (c : Core) (n d e : Nat) : Except Nat (Core × List Nat) :=
  let sh := c.entry n tShard (slReg e)
  match c.uuRead n (slPush e) (2 * slNpush e), c.uuRead n (shPub sh) (c.pubBytes n sh) with
  | .ok l, .ok b =>
    .ok ((List.range (slNpush e)).foldl (fun (acc : Core × List Nat) i =>
      let r := acc.1.sendPush n d (fieldAt l (2 * i) 2 % 2 ^ 15) (shId sh) (shVersion sh) b
      (r.1, acc.2 ++ r.2)) (c, []))
  | .error k, _ => .error k
  | _, .error k => .error k

/-- Every shard of the plan's list that has push holders pushed; the tags of the messages. -/
def Core.pushAll (c : Core) (n d : Nat) (l : List Nat) : Except (Nat × Core) (Core × List Nat) :=
  (l.filter (fun e => slNpush e ≠ 0)).foldl (fun acc e => match acc with
    | .error k => .error k
    | .ok (c, ts) => match c.pushShard n d e with
      | .ok (c1, more) => .ok (c1, ts ++ more)
      | .error k => .error (k, c)) (.ok (c.modRunning (.uu d) (fun q => { q with started := true }), []))

/-- PUSH begins, or looks again at its end. -/
def Core.pushAct (c : Core) (d : Nat) : Core :=
  let u := UnitId.uu d
  match c.active u 0x72 with
  | none => c
  | some r =>
    let n := r.a.ctx
    let pe := aEntry r.a.bits
    let plan := c.entry n tPlan pe
    if r.started then c.pushEnd d
    else if plan = 0 then c.actionFault u 4 pe
    else match (c.stepSt n).verdict with
      | none => c
      | some v =>
        if v.decision ≠ 0 then c.actDone u
        else match c.unitReads u n [(uList plan, 128 * uCount plan)] with
        | (c, true) => c
        | (c, false) => match c.shardList n plan with
          | .error k => c.actionFault u (readReason k) pe
          | .ok l =>
          match c.unitReads u n ((l.filter (fun e => slNpush e ≠ 0)).flatMap (fun e =>
            [(slPush e, 2 * slNpush e), (shPub (c.entry n tShard (slReg e)), c.pubBytes n (c.entry n tShard (slReg e)))])) with
          | (c, true) => c
          | (c, false) =>
            match c.pushAll n d l with
            | .error (k, c1) => c1.actionFault u (readReason k) pe
            | .ok (c1, ts) => { c1 with pushTags := kset c1.pushTags d ts }.pushEnd d

/-- PUSH. -/
def execPush (die : Nat) (s : State) : Host.Outcome State Fault Refusal := s.guard (isPort die) (fun d => d.c.pushAct die)

end Sys2Proof.Machine
end

