-- ==== Sys2Proof/Machine/StepCmds.lean ====
section
/-!
DEFINITION. The host commands over a training step: numeric mode, census and traps, layers and shards, rings, update plans,
schedules, the loss scale and exports (R131, R132, R138, R140, R141, R259 to R267, R291 to R295, R301, R318, R320, R329 to R331).
-/
namespace Sys2Proof.Machine
open Sys2Proof

/-! ## Numeric commands -/

/-- NUM_MODE. -/
def execNumMode (p : Packet) (s : State) : Host.Outcome State Fault Refusal :=
  hostCmd (Cmd.plain 0x501 true [64, 64]) p s (fun d =>
    match d.c.ctx? p.ctxNum with
    | none => d.c.finish p 4 []
    | some x =>
      if !x.progs.isEmpty then d.c.finish p 0x540 []
      else if 2 ≤ p.arg 0 ∨ p.arg 1 < 10 ∨ 16 < p.arg 1 then d.c.finish p 0x541 []
      else (d.c.modCtx p.ctxNum (fun x => { x with strict := p.arg 0 = 1, lsum := p.arg 1 })).finish p 0 [])

/-- A census snapshot of the counts as they stand (R132). A counter at its largest value counts as saturated. -/
def Ctx.census' (x : Ctx) (n step : Nat) (part abandoned : Bool) : List Byte :=
  let sat := x.census.any (fun e => e.2 = 2 ^ 48 - 1)
  leBytes (stepMod step) 8 ++ leBytes x.snapSeq 4 ++ leBytes n 1 ++
  leBytes (b2n x.trap.isSome + 2 * b2n part + 4 * b2n sat + 8 * b2n abandoned + 16 * b2n x.strict) 1 ++ leBytes x.lsum 1 ++ zeros 49 ++
  ((List.range 164).flatMap (fun i => leBytes (kgetD x.census (0x40 + 8 * i) 0) 8)) ++ zeros 0x60 ++
  (match x.trap with | some t => t.bytes | none => zeros 64)

/-- CENSUS_READ. Before the first snapshot the spec states no contents: the record is a free value. -/
def execCensusRead (p : Packet) (s : State) : Host.Outcome State Fault Refusal :=
  hostCmd (Cmd.plain 0x502 true [64]) p s (fun d =>
    match d.c.ctx? p.ctxNum with
    | none => d.c.finish p 4 []
    | some x =>
      if p.arg 0 % 64 ≠ 0 then d.c.finish p 0x541 []
      else
        let halted := match x.run with | some r => r.halted | none => false
        let rec_ := if halted then x.census' p.ctxNum (d.c.stepOf p.ctxNum) true (d.c.stepSt p.ctxNum).abandon.isSome
          else x.snapshot.getD ((List.range 1536).map (fun i => BitVec.ofNat 8 (Config.unstated 10 (d.c.freeCtr + i))))
        match d.c.hostRecord (p.arg 0) rec_ with
        | some c1 => { c1 with freeCtr := c1.freeCtr + 1536 }.finish p 0 []
        | none => d.c.finish p 0x102 [])

/-- CENSUS_RING. -/
def execCensusRing (p : Packet) (s : State) : Host.Outcome State Fault Refusal :=
  hostCmd (Cmd.plain 0x503 true [64, 64, 64]) p s (fun d =>
    match ringOf (p.arg 0) (p.arg 1) (p.arg 2) with
    | none => d.c.finish p 0x541 []
    | some r => (d.c.applyPend p.ctxNum (.ring 2 r)).finish p 0 [])

/-- TRAP_MODE. -/
def execTrapMode (p : Packet) (s : State) : Host.Outcome State Fault Refusal :=
  hostCmd (Cmd.plain 0x504 true [64]) p s (fun d =>
    if 2 ≤ p.arg 0 then d.c.finish p 0x541 [] else (d.c.change p.ctxNum (.trap (p.arg 0 = 1))).finish p 0 [])

/-- TRAP_RESUME: the run goes on, and this command replies in PROG_RUN's place. -/
def execTrapResume (p : Packet) (s : State) : Host.Outcome State Fault Refusal :=
  hostCmd (Cmd.plain 0x505 true [64]) p s (fun d =>
    match d.c.run? p.ctxNum with
    | none => d.c.finish p 0x542 []
    | some r =>
      if 2 ≤ p.arg 0 then d.c.finish p 0x541 []
      else if !r.halted then d.c.finish p 0x542 []
      else
        let c1 := (d.c.modRun p.ctxNum (fun r => { r with halted := false })).wait p .resume
        if p.arg 0 = 1 then c1.setAbandon p.ctxNum 0x06 else c1)

/-! ## Step commands -/

/-- Whether the stash reservation and the spill object meet R266 and R267. -/
def Ctx.stashOk (x : Ctx) (n stash spill : Nat) : Bool :=
  let st := if stash = 0 then none else x.objOf n stash
  let sp := if spill = 0 then none else x.objOf n spill
  (stash = 0 || (match st with | some (_, o) => o.floor && !o.window | none => false)) &&
  (spill = 0 || (match sp, st with
    | some (_, q), some (_, o) => !q.floor && !q.window && q.hint = 2 && q.base = o.base + o.size
    | _, _ => false))

/-- STEP_PARAMS. -/
def execStepParams (p : Packet) (s : State) : Host.Outcome State Fault Refusal :=
  hostCmd (Cmd.plain 0x440 true [64, 64, 64, 64]) p s (fun d =>
    match d.c.ctx? p.ctxNum with
    | none => d.c.finish p 4 []
    | some x =>
      if p.arg 0 < 1 ∨ 4294967295 < p.arg 0 ∨ p.arg 1 < 1 ∨ 65535 < p.arg 1 then d.c.finish p 0x460 []
      else if !x.stashOk p.ctxNum (p.arg 2) (p.arg 3) then d.c.finish p 0x463 []
      else (d.c.change p.ctxNum (.params (p.arg 0) (p.arg 1) (p.arg 2) (p.arg 3))).finish p 0 [])

/-- LAYER_LOAD. -/
def execLayerLoad (p : Packet) (s : State) : Host.Outcome State Fault Refusal :=
  hostCmd (Cmd.plain 0x441 true [64, 64, 64]) p s (fun d =>
    d.c.loadTable p tLayer 32 4096 1 (p.arg 0) (p.arg 1) (p.arg 2) { beyond := 0x464, handle := 0x463, bad := 0x461 }
      (fun _ _ e => .ok (layerOk e)))

/-- SHARD_LOAD. -/
def execShardLoad (p : Packet) (s : State) : Host.Outcome State Fault Refusal :=
  hostCmd (Cmd.plain 0x442 true [64, 64, 64]) p s (fun d =>
    d.c.loadTable p tShard 64 65536 2 (p.arg 0) (p.arg 1) (p.arg 2) { beyond := 0x464, handle := 0x463, bad := 0x462 }
      (fun x _ e => .ok (shardOk (x.ahead tLayer) e)))

/-- A step in progress that a redrawn mapping or register ends everywhere (R292, R369): no contribution holds this abandon off. -/
def Core.redraw (c : Core) : Core :=
  match c.cur with
  | none => c
  | some n =>
    match c.ctx? n with
    | none => c
    | some x => (match x.run with
      | some r => if x.atEnd r then c else c.forceAbandon n 0x07
      | none => c)

/-- Whether a context's job is in recovery. -/
def Core.inRecovery (c : Core) (n : Nat) : Bool := match c.job? n with | some j => j.recovery | none => false

/-- RESHARD: the whole register, checked and installed; in recovery the step in progress is abandoned (R291, R292). -/
def execReshard (p : Packet) (s : State) : Host.Outcome State Fault Refusal :=
  hostCmd (Cmd.plain 0x443 true [64, 64]) p s (fun d =>
    let n := p.ctxNum
    match d.c.ctx? n with
    | none => d.c.finish p 4 []
    | some x =>
      if 65536 < p.arg 0 then d.c.finish p 0x464 []
      else
       let d := { d with c := d.c.checkObj n (p.arg 1) 0 (64 * p.arg 0) }
       match d.c.byHandle n (p.arg 1) 0 (64 * p.arg 0) 0x463 with
        | .error e => d.c.finish p e []
        | .ok b =>
          let es := (List.range (p.arg 0)).map (fun i => ofLe ((b.drop (64 * i)).take 64))
          match (List.range es.length).find? (fun i => !(shardOk (x.ahead tLayer) (es.getD i 0))) with
          | some i => d.c.finishI p 0x462 i []
          | none =>
            match d.c.needTable n tShard 2 with
            | none => d.c.finish p 0x32C []
            | some c1 =>
              let c2 := c1.change n (.register es)
              (if c2.cur = some n ∧ c2.inRecovery n then c2.redraw else c2).finish p 0 [])

/-- VERDICT_RING. -/
def execVerdictRing (p : Packet) (s : State) : Host.Outcome State Fault Refusal :=
  hostCmd (Cmd.plain 0x444 true [64, 64, 64]) p s (fun d =>
    match ringOf (p.arg 0) (p.arg 1) (p.arg 2) with
    | none => d.c.finish p 0x460 []
    | some r => (d.c.change p.ctxNum (.ring 1 r)).finish p 0 [])

/-! ## Update commands -/

/-- The context with its waiting table changes made, for the checks of a later load. -/
def Core.tablesAhead (c : Core) (n : Nat) : Core :=
  match c.ctx? n with
  | none => c
  | some x => x.pend.foldl (fun c q => match q with
      | .words _ _ _ => c.applyPend n q
      | .register _ => c.applyPend n q
      | _ => c) c

/-- Whether every record of a plan's shards fits an export entry (R320). -/
def Core.recordsFit (c : Core) (n plan : Nat) (q : Export) : Bool :=
  q.kind = 0 || (match c.shardList n plan with
    | .ok l => l.all (fun e => c.largestRecord n plan e ≤ q.bytes - 256)
    | .error _ => true)

/-- What is wrong with a plan entry, if anything: its status and R_VAL0 and R_INFO (R297 to R299, R320). -/
def Core.planFault (c : Core) (n entry plan : Nat) : Option (Nat × Nat × List Nat) :=
  match c.ctx? n with
  | none => some (4, 0, [])
  | some x =>
    if plan = 0 then none
    else if !(planOk plan) || !(x.inFloor (uList plan) (128 * uCount plan)) then some (0x551, entry, [])
    else match c.shardList n plan with
      | .error k => if k = 5 ∨ k = 7 then some (9, 0, []) else some (0x551, entry, [])
      | .ok l =>
        match (List.range l.length).find? (fun i => !(c.shardListOk n plan (l.getD i 0))) with
        | some i => some (0x552, i, [entry])
        | none =>
          match (if uExports plan then kget x.exports (uExport plan) else none) with
          | some q => if c.recordsFit n plan q then none else some (0x555, entry, [])
          | none => none

/-- UPD_PLAN. -/
def execUpdPlan (p : Packet) (s : State) : Host.Outcome State Fault Refusal :=
  hostCmd (Cmd.plain 0x510 true [64, 64, 64]) p s (fun d =>
    let n := p.ctxNum
    if 4096 < p.arg 0 + p.arg 1 then d.c.finish p 0x556 []
    else
     let d := { d with c := d.c.checkObj n (p.arg 2) 0 (128 * p.arg 1) }
     match d.c.byHandle n (p.arg 2) 0 (128 * p.arg 1) 0x554 with
      | .error e => d.c.finish p e []
      | .ok b =>
        let es := (List.range (p.arg 1)).map (fun i => ofLe ((b.drop (128 * i)).take 128))
        let d := { d with c := es.foldl (fun c e => (c.hbmRead n (uList e) (128 * uCount e)).1) d.c }
        let c0 := d.c.tablesAhead n
        match (List.range es.length).findSome? (fun i => c0.planFault n (p.arg 0 + i) (es.getD i 0)) with
        | some f => d.c.finishI p f.1 f.2.1 f.2.2
        | none =>
          match d.c.needTable n tPlan 1 with
          | none => d.c.finish p 0x32C []
          | some c1 => (c1.change n (.words tPlan (p.arg 0) es)).finish p 0 [])

/-- UPD_SCHED: one schedule of 16 segments. -/
def execUpdSched (p : Packet) (s : State) : Host.Outcome State Fault Refusal :=
  hostCmd (Cmd.plain 0x511 true [64, 64]) p s (fun d =>
    let n := p.ctxNum
    if 16 ≤ p.arg 0 then d.c.finish p 0x550 []
    else
     let d := { d with c := d.c.checkObj n (p.arg 1) 0 512 }
     match d.c.byHandle n (p.arg 1) 0 512 0x554 with
      | .error e => d.c.finish p e []
      | .ok b =>
        if !(schedOk (ofLe b)) then d.c.finish p 0x553 []
        else match d.c.needTable n tPlan 1 with
          | none => d.c.finish p 0x32C []
          | some c1 => (c1.change n (.words tSched (p.arg 0) [ofLe b])).finish p 0 [])

/-- LOSS_SCALE. -/
def execLossScale (p : Packet) (s : State) : Host.Outcome State Fault Refusal :=
  hostCmd (Cmd.plain 0x512 true [64, 64, 64, 64, 64, 16]) p s (fun d =>
    let e := sext 64 (p.arg 0)
    if e < -24 ∨ 24 < e ∨ 65535 < p.arg 1 ∨ 65535 < p.arg 2 ∨ 2 ^ 48 ≤ p.arg 3 ∨ p.arg 4 % 8 ≠ 0 ∨ hbmEnd ≤ p.arg 4 ∨
        2 ≤ p.arg 5 % 256 then d.c.finish p 0x550 []
    else (d.c.change p.ctxNum (.loss {
      e := e, k := p.arg 1, clean := p.arg 2, applied := p.arg 3, addr := p.arg 4, flagOn := p.arg 5 % 256 = 1,
      flag := p.arg 5 / 256 })).finish p 0 [])

/-- The update status record (R330). -/
def Ctx.updRecord (x : Ctx) : List Byte :=
  leBytes (stepMod x.updStat.step) 8 ++ leBytes x.loss.applied 8 ++ leBytes x.updStat.sched.toNat 8 ++
  leBytes x.updStat.kappa.toNat 8 ++ leBytes x.updStat.gnorm.toNat 8 ++ leBytes (tc 8 x.loss.e) 1 ++ zeros 1 ++
  leBytes x.loss.clean 2 ++ leBytes x.loss.k 2 ++ zeros 2 ++ leBytes x.updStat.overrun 4 ++ zeros 12

/-- UPD_READ. -/
def execUpdRead (p : Packet) (s : State) : Host.Outcome State Fault Refusal :=
  hostCmd (Cmd.plain 0x513 true [64]) p s (fun d =>
    match d.c.ctx? p.ctxNum with
    | none => d.c.finish p 4 []
    | some x => if p.arg 0 % 64 ≠ 0 then d.c.finish p 0x550 [] else d.c.recordCmd p 0 x.updRecord [])

/-- The status that refuses an export entry, if any (R318, R320, R324). -/
def Core.exportRefusal (c : Core) (n entry : Nat) (q : Export) : Option Nat :=
  match c.ctx? n with
  | none => some 4
  | some x =>
    if 16 ≤ entry ∨ 3 ≤ q.kind then some 0x550
    else if q.kind = 0 then none
    else if (q.kind = 1 ∧ q.base % 4096 ≠ 0) ∨ !(isPow2 q.bytes) ∨ q.bytes < 2 ^ 20 ∨ 2 ^ 40 < q.bytes ∨ q.stride < 1 ∨ 65535 < q.stride ∨
        2 ^ 32 ≤ q.interval then some 0x550
    else if q.kind = 2 ∧ !(match x.job with
        | some j => q.base < 2 ^ 60 && q.base / 2 ^ 45 ≠ c.devNum && j.devs.contains (q.base / 2 ^ 45) &&
            q.base % 2 ^ 45 + q.bytes ≤ hbmEnd && (!x.conf || j.enc)
        | none => false) then some 0x555
    else if x.tables.all (fun e => e.1.1 ≠ tPlan || !(uExports e.2) || uExport e.2 ≠ entry || c.recordsFit n e.2 q) then none
    else some 0x555

/-- EXPORT_SET. -/
def execExportSet (p : Packet) (s : State) : Host.Outcome State Fault Refusal :=
  hostCmd (Cmd.plain 0x514 true [64, 64, 64, 64, 64, 64]) p s (fun d =>
    let q : Export := {
      kind := p.arg 1, base := p.arg 2, bytes := p.arg 3, stride := p.arg 4, interval := p.arg 5, producer := 0, consumer := 0,
      waiting := [], dropping := [], sets := 0, tags := [], emitted := [] }
    match d.c.exportRefusal p.ctxNum (p.arg 0) q with
    | some st => d.c.finish p st []
    | none => (d.c.change p.ctxNum (.exportEntry (p.arg 0) q)).finish p 0 [])

/-- EXPORT_BEDROCK. -/
def execExportBedrock (p : Packet) (s : State) : Host.Outcome State Fault Refusal :=
  hostCmd (Cmd.plain 0x515 true [64]) p s (fun d =>
    if 4096 ≤ p.arg 0 then d.c.finish p 0x556 [] else (d.c.change p.ctxNum (.bedrock (p.arg 0))).finish p 0 [])

end Sys2Proof.Machine
end

