-- ==== Sys2Proof/Machine/Links.lean ====
section
/-!
DEFINITION. The link level of the Tricel links: training, keys, flits received, acknowledgement and replay, credits, and the moves
and ends of waiting messages (R334 to R346, R349 to R356, R371, R373, R436).
-/
namespace Sys2Proof.Machine
open Sys2Proof

/-! ## States of a link -/

/-- Receive buffers of a link by class (R340). -/
def linkBuffer : Nat → Nat
  | 1 => 16384 | 2 => 40960 | 3 => 8192 | _ => 0

/-- Fresh ephemeral keys for a new agreement, and the KEY flit with this end's part, signed by the identity key (R355, R436). -/
def Core.keyFlit (c : Core) (l : Nat) : Core :=
  let dr := c.freeCtr + 1
  let body := padTo 49 (Config.ephemeral dr) ++ padTo 49 Config.identityPub ++
    leBytes (if c.dnValid then c.devNum else 0) 2 ++ leBytes l 1 ++ zeros 3
  let msg := body ++ padTo 96 (Config.ecdsaSign 0 dr body) ++ zeros 40
  { c.modLink l (fun k => { k with key := none, keyMsgs := 0, rxMsgs := 0, pendKey := true, eph := dr }) with freeCtr := dr }.sendLocal l 3 msg

/-- What this end tells the far end of a link in its training exchange: mapped bit, device number, link, stepping, round trip (R335). -/
def Core.announce (c : Core) (l rtt : Nat) : Core :=
  { c with out := c.out ++ [Output.announce l c.dnValid (if c.dnValid then c.devNum else 0) 0xA1 rtt] }

/-- What R335 asks of the far end before a link comes up. -/
def farFits (f : FarEnd) : Bool := f.isT1536 && f.lanes = 8 && f.rtt ≤ 1000

/-- A link goes down: an error of its detector 2 (R345, R457). -/
def Core.linkLost (c : Core) (l : Nat) : Core :=
  (c.endLink l .down).error (.link l) 2 0 (Config.syndrome c.freeCtr % 2 ^ 32) false false true

/-- The link retrains (R344, R355). -/
def Core.retrain (c : Core) (l : Nat) : Core :=
  if (c.link l).st = .up then (c.modLink l (fun k => { k with st := .retraining })).bump (linkBase l + 0x434) 32 1 else c

/-- A drained link that was to be disabled stops (R373). -/
def Core.checkDrain (c : Core) (l : Nat) : Core :=
  if (c.link l).drain ∧ (c.link l).replay.isEmpty then c.endLink l .disabled else c

/-! ## Training (R335, R344 to R346) -/

/-- LINK_TRAIN_DONE: the link comes up where all of R335's conditions hold, else it stays down and trains again. -/
def Core.trained' (c : Core) (l : Nat) (far : FarEnd) : Core :=
  let k := c.link l
  if k.st ≠ .training ∨ !k.enabled ∨ !(c.usable (.link l)) then c
  else match c.injections (.link l) 2 1 with
    | (c1, true) => (c1.modLink l (fun k => { k with st := .down })).error (.link l) 2 0 (Config.syndrome c1.freeCtr % 2 ^ 32) false true true
    | (c1, false) =>
      let c1 := c1.announce l far.rtt
      if farFits far then
        ((c1.modLink l (fun k => { k with
          st := .up, drain := false, far := some far, credReply := 16384, credBulk := 40960, credEscape := 8192, txSeq := 0, rxSeq := 0,
          replay := [], rx := [], nakked := false, slots := 7, local_ := [] })).keyFlit l).pump
      else c1.modLink l (fun k => { k with st := .down })

/-- LINK_TRAIN_DONE. -/
def execLinkTrainDone (link : Nat) (far : FarEnd) (s : State) : Host.Outcome State Fault Refusal :=
  s.guard (link < 36) (fun d => d.c.trained' link far)

/-- LINK_TRAIN_RETRY. -/
def execLinkTrainRetry (link : Nat) (s : State) : Host.Outcome State Fault Refusal :=
  s.guard (link < 36) (fun d =>
    let k := d.c.link link
    if k.st = .down ∧ k.enabled ∧ d.c.usable (.link link) ∧ 5 ≤ d.c.stage ∧ d.pw.linkRef ∧ d.c.devState ≠ .stopped then
      d.c.modLink link (fun k => { k with st := .training })
    else d.c)

/-- INITIAL_TRAINING_TIMEOUT. -/
def execInitialTrainingTimeout (link : Nat) (s : State) : Host.Outcome State Fault Refusal :=
  s.guard (link < 36) (fun d =>
    if (d.c.link link).st = .training then d.c.modLink link (fun k => { k with st := .down }) else d.c)

/-- The flits kept for replay leave a link again, each the bytes it was (R344, R356). -/
def Core.emitKept (c : Core) (l : Nat) : Core :=
  { c with out := c.out ++ (c.link l).replay.map (fun f => Output.flit l f.bytes) }

/-- A retrain completes: the ends have exchanged their numbers again (R335), replay resumes from the oldest unacknowledged flit, and a new
key is agreed (R344, R355). -/
def Core.retrained (c : Core) (l : Nat) (far : FarEnd) : Core :=
  if (c.link l).st ≠ .retraining then c
  else match c.injections (.link l) 2 1 with
    | (c1, true) => c1.linkLost l
    | (c1, false) =>
      let again (f : TxFlit) : TxFlit := { f with replays := 0 }
      let c1 := c1.announce l far.rtt
      if farFits far then
        (((c1.modLink l (fun k => { k with st := .up, far := some far, replay := k.replay.map again })).emitKept l).keyFlit l).pump
      else (c1.linkLost l).pump

/-- LINK_RETRAIN_DONE. -/
def execLinkRetrainDone (r : Retrained) (s : State) : Host.Outcome State Fault Refusal :=
  s.guard (r.link < 36) (fun d => d.c.retrained r.link r.far)

/-- LINK_RETRAIN_TIMEOUT. -/
def execLinkRetrainTimeout (link : Nat) (s : State) : Host.Outcome State Fault Refusal :=
  s.guard (link < 36) (fun d => if (d.c.link link).st = .retraining then (d.c.linkLost link).pump else d.c)

/-! ## Keys (R355, R356, R436) -/

/-- "GNW-TRICEL". -/
def tricelInfo : List Byte := [0x47, 0x4E, 0x57, 0x2D, 0x54, 0x52, 0x49, 0x43, 0x45, 0x4C]

/-- The key that a KEY flit and the own ephemeral key give; none where a check fails. -/
def Dev.linkKey (d : Dev) (l : Nat) (pl : List Byte) : Option (List Byte) :=
  let theirs := pl.take 49
  let ident := (pl.drop 0x31).take 49
  let dev := fieldAt pl 0x62 2 % 2 ^ 15
  let lk := fieldAt pl 0x64 1
  if Config.ecdsaVerify ident (pl.take 0x68) ((pl.drop 0x68).take 96) && d.tr.peerKeys.contains (Config.sha384 (Config.expandKey ident)) then
    let own := if d.c.dnValid then d.c.devNum else 0
    let mine := padTo 49 (Config.ephemeral (d.c.link l).eph)
    let salt := if dev < own ∨ (dev = own ∧ lk < l) then theirs ++ mine else mine ++ theirs
    (Config.ecdh (d.c.link l).eph theirs).map (fun z => Config.hkdf salt z tricelInfo 32)
  else none

/-- KEY_ARRIVE. -/
def execKeyArrive (link : Nat) (payload : List Byte) (s : State) : Host.Outcome State Fault Refusal :=
  s.guard (link < 36) (fun d =>
    let k := d.c.link link
    if k.st ≠ .up ∨ !k.pendKey then d.c
    else match d.linkKey link payload with
      | some key => (d.c.modLink link (fun k => { k with key := some key, keyMsgs := 0, rxMsgs := 0, pendKey := false })).pump
      | none => (d.c.modLink link (fun k => { k with pendKey := false })).bump (subBase 0 5 0 + 0x41C) 32 1)

/-- LINK_KEY_EXHAUST. -/
def execLinkKeyExhaust (link : Nat) (s : State) : Host.Outcome State Fault Refusal :=
  s.guard (link < 36) (fun d =>
    if 2 ^ 32 ≤ (d.c.link link).keyMsgs ∧ (d.c.link link).key.isSome then d.c.retrain link else d.c)

/-! ## Flits received (R337, R338, R344, R350) -/

/-- A flit that fails is answered with a NAK, and those that follow are discarded until it comes again (R344). -/
def Core.nak (c : Core) (l : Nat) : Core :=
  (c.modLink l (fun k => { k with nakked := true })).sendLocal l 1 (leBytes (c.link l).rxSeq 2 ++ leBytes 1 1)

/-- The sequence number that an acknowledgement gives: the last flit in order, but none of an encrypted message whose tag has yet to
verify, since a tag that fails brings the whole message again (R356; DEDUCED, assumption log). -/
def Link.ackSeq (k : Link) : Nat :=
  let held := k.rx.foldl (fun b e => if e.2.enc then max b ((k.rxSeq + 4096 - e.2.first) % 4096) else b) 0
  (k.rxSeq + 8191 - held) % 4096

/-- The acknowledgement. -/
def Core.ack (c : Core) (l : Nat) : Core := c.sendLocal l 1 (leBytes (c.link l).ackSeq 2 ++ leBytes 0 1)

/-- A flit's CRC or tag has failed: counted as a correction by replay (R457). -/
def Core.flitFailed (c : Core) (l : Nat) : Core := ((c.bump (linkBase l + 0x42C) 32 1).correction (.link l) 1 1).nak l

/-- A flit discarded, its buffer freed (R338). -/
def Core.discardFlit (c : Core) (l cls : Nat) : Core := (c.bump (linkBase l + 0x43C) 32 1).sendCredit l cls 1

/-- A whole message is at its destination, or goes on toward it (R343, R349, R350). -/
def Core.wholeMessage (c : Core) (l : Nat) (f : Flit) (n : Nat) (payload : List Byte) : Core :=
  if f.dst = c.devNum then c.sendCredit l f.cls n
  else
    let t : Transit := { src := f.src, dst := f.dst, job := f.job, kind := f.kind, cls := f.cls, tag := f.mtag, enc := f.enc,
                         flits := n, arrived := some l, buf := f.cls, payload := payload }
    { c with transit := c.transit ++ [t] }.pump

/-- A received flit's header, FL_CRC and FL_LSEQ zero. -/
def flitHeader (f : Flit) : Nat := flitHdr f.mtag f.job f.kind f.cls f.enc f.idx f.last f.payload.length f.src f.dst

/-- The clear payload of a whole message; none where its tag fails (R356). `ok` is what the link reports of the tag. -/
def Core.opened (c : Core) (l : Nat) (m : RxMsg) (ok : Bool) : Option (List Byte) :=
  let w := m.parts.flatMap (fun p => p.2.2)
  if !m.enc then some w
  else match ok, (c.link l).key with
    | true, some k => Config.gcmOpen k (linkNonce (!(c.upperEnd l)) m.count) (hdrsAad (m.parts.map (fun p => p.2.1)))
        (w.take (w.length - 16)) (w.drop (w.length - 16))
    | _, _ => none

/-- A message whose tag fails is dropped, with every message begun after it, and comes again from its first flit (R356). -/
def Core.tagFailed (c : Core) (l : Nat) (m : RxMsg) : Core :=
  (c.modLink l (fun k => { k with
    rxSeq := m.first, rxMsgs := m.count, rx := k.rx.filter (fun e => 2048 ≤ (e.2.first + 4096 - m.first) % 4096) })).flitFailed l

/-- A flit joins its message; the last one makes it whole. -/
def Core.joinFlit (c : Core) (l : Nat) (f : Flit) (m : RxMsg) : Core :=
  let m1 := { m with parts := m.parts ++ [(f.cls, flitHeader f, f.payload)] }
  if !f.last then (c.modLink l (fun k => { k with rx := kset k.rx (f.src, f.mtag) m1 })).ack l
  else
    let c1 := c.modLink l (fun k => { k with rx := kdel k.rx (f.src, f.mtag) })
    match c.opened l m1 f.tagOk with
    | some b => (c1.ack l).wholeMessage l f m1.parts.length b
    | none => c1.tagFailed l m1

/-- An intact flit in order (R337, R338). -/
def Core.goodFlit (c : Core) (l : Nat) (f : Flit) : Core :=
  let k := c.link l
  let fresh := f.enc && f.idx = 0 && !(linkLocal f.kind)
  let c1 := c.modLink l (fun k => { k with
    rxSeq := (k.rxSeq + 1) % 4096, nakked := false, rxMsgs := if fresh then k.rxMsgs + 1 else k.rxMsgs })
  if linkLocal f.kind then c1.ack l
  else if !(kindDefined f.kind) ∨ !c.dnValid ∨ (c.jobCtx f.job).isNone ∨ (f.dst ≠ c.devNum ∧ !(bit (kgetD c.routes f.dst 0) 31)) then
    (c1.ack l).discardFlit l f.cls
  else
    let m := kgetD k.rx (f.src, f.mtag) { first := f.lseq, count := k.rxMsgs, enc := f.enc, parts := [] }
    if f.idx ≠ m.parts.length ∨ f.enc ≠ m.enc then (c1.ack l).discardFlit l f.cls else c1.joinFlit l f m

/-- The detections that a flit's arrival brings (R457): FEC, and the link buffer of the die. Answers whether the flit survives. -/
def Core.flitUps (c : Core) (l : Nat) (ups : List Upset) : Core × Bool :=
  ups.foldl (fun (acc : Core × Bool) u =>
    if u.det = 0 then
      (if u.corrected then ((acc.1.correction (.link l) 0 1).bump (linkBase l + 0x420) 64 1, acc.2)
       else ((acc.1.error (.link l) 0 u.wher u.synd false false true).bump (linkBase l + 0x428) 32 1, false))
    else if u.det = 2 then
      (if u.corrected then (acc.1.correction (.die (linkDie l)) 2 1, acc.2)
       else (acc.1.error (.die (linkDie l)) 2 u.wher u.synd false false true, false))
    else acc) (c, true)

/-- The injections on a flit: FEC and CRC of the link, the buffer of the die (R464). -/
def Core.flitInjections (c : Core) (l : Nat) : Core × Bool :=
  let r0 := match c.inject (.link l) 0 with
    | (none, c1) => (c1, true)
    | (some m, c1) =>
      if m = 0 then ((c1.correction (.link l) 0 1).bump (linkBase l + 0x420) 64 1, true)
      else ((c1.error (.link l) 0 0 (Config.syndrome c1.freeCtr % 2 ^ 32) false true true).bump (linkBase l + 0x428) 32 1, false)
  let r1 := match r0.1.inject (.link l) 1 with
    | (none, c1) => (c1, r0.2)
    | (some _, c1) => (c1, false)
  match r1.1.inject (.die (linkDie l)) 2 with
  | (none, c1) => (c1, r1.2)
  | (some m, c1) =>
    if m = 0 then (c1.correction (.die (linkDie l)) 2 1, r1.2)
    else (c1.error (.die (linkDie l)) 2 0 (Config.syndrome c1.freeCtr % 2 ^ 32) false true true, false)

/-- FLIT_RECEIVE. An ACK or NAK takes no sequence number (assumption log); what it says comes with its own command. -/
def execFlitReceive (link : Nat) (f : Flit) (ups : List Upset) (s : State) : Host.Outcome State Fault Refusal :=
  s.guard (link < 36) (fun d =>
    let k := d.c.link link
    if k.st ≠ .up then d.c
    else
      let u := (d.c.bump (linkBase link + 0x418) 64 1).flitUps link ups
      let i := u.1.flitInjections link
      if !(u.2 && i.2 && f.crcOk) then i.1.flitFailed link
      else if f.kind = 1 then i.1
      else if f.lseq = k.rxSeq then i.1.goodFlit link f
      -- a flit received before is acknowledged again, one that runs ahead is discarded
      else if (k.rxSeq + 4096 - f.lseq) % 4096 ≤ 2048 then i.1.ack link
      else i.1)

/-- MESSAGE_ASSEMBLY_TIMEOUT: the flits of a message not whole in time are discarded and counted (R338). -/
def execMessageAssemblyTimeout (link src tag : Nat) (s : State) : Host.Outcome State Fault Refusal :=
  s.guard (link < 36) (fun d =>
    match kget (d.c.link link).rx (src, tag) with
    | none => d.c
    | some m =>
      m.parts.foldl (fun c q => c.discardFlit link q.1) (d.c.modLink link (fun k => { k with rx := kdel k.rx (src, tag) })))

/-! ## Acknowledgement, replay, credits (R340, R344) -/

/-- Flits up to and including a sequence number leave the replay buffer; the rest stay. -/
def acked (lseq : Nat) : List TxFlit → List TxFlit
  | [] => []
  | f :: r => if f.lseq = lseq then r else acked lseq r

/-- The pushes whose flits a far end has acknowledged (R83). -/
def Core.pushesAcked (c : Core) (gone : List Nat) : Core :=
  let c1 := { c with pushTags := c.pushTags.map (fun (e : Nat × List Nat) => (e.1, e.2.filter (fun t => !(gone.contains t)))) }
  (keys c1.pushTags).foldl (fun c d => c.pushEnd d) c1

/-- ACK_ARRIVE. -/
def execAckArrive (link lseq : Nat) (s : State) : Host.Outcome State Fault Refusal :=
  s.guard (link < 36) (fun d =>
    let k := d.c.link link
    if k.st ≠ .up ∨ !(k.replay.any (fun f => f.lseq = lseq)) then d.c
    else
      let rest := acked lseq k.replay
      let gone := ((k.replay.take (k.replay.length - rest.length)).filter (fun f =>
        f.kind = kPush && !(rest.any (fun g => g.tag = f.tag && g.kind = kPush)))).map (fun f => f.tag)
      let c1 := d.c.modLink link (fun k => { k with replay := rest, local_ := [] })
      (((k.local_.foldl (fun c p => c.sendLocal link p.1 p.2) c1).pushesAcked gone).checkDrain link).pump)

/-- Every unacknowledged flit sent again in order (R344); the third replay of a flit retrains the link. -/
def Core.replayAll (c : Core) (l : Nat) : Core :=
  let k := c.link l
  if k.st ≠ .up ∨ k.replay.isEmpty then c
  else
    let more (f : TxFlit) : TxFlit := { f with replays := f.replays + 1 }
    let c1 := (c.modLink l (fun k => { k with replay := k.replay.map more })).bump (linkBase l + 0x430) 32 1
    if k.replay.any (fun f => 3 ≤ f.replays + 1) then
      (c1.retrain l).error (.link l) 2 0 (Config.syndrome c1.freeCtr % 2 ^ 32) false false true
    else c1.emitKept l

/-- NAK_ARRIVE. -/
def execNakArrive (link : Nat) (s : State) : Host.Outcome State Fault Refusal := s.guard (link < 36) (fun d => d.c.replayAll link)

/-- REPLAY_TIMEOUT. -/
def execReplayTimeout (link : Nat) (s : State) : Host.Outcome State Fault Refusal := s.guard (link < 36) (fun d => d.c.replayAll link)

/-- CREDIT_ARRIVE: a sender never holds more credits than the far end has buffers. -/
def execCreditArrive (link cls n : Nat) (s : State) : Host.Outcome State Fault Refusal :=
  s.guard (link < 36 && 1 ≤ cls && cls ≤ 3) (fun d =>
    if (d.c.link link).st ≠ .up then d.c
    else
      let add (v : Nat) : Nat := min (v + n) (linkBuffer cls)
      (d.c.modLink link (fun k => match cls with
        | 1 => { k with credReply := add k.credReply }
        | 2 => { k with credBulk := add k.credBulk }
        | _ => { k with credEscape := add k.credEscape })).pump)

/-! ## Escape (R350, R351, R353) -/

/-- The link output at which a message waits: its best candidate, or its first one. -/
def Core.waitsAt (c : Core) (t : Transit) : Option Nat :=
  let ls := c.outLinks (kgetD c.routes t.dst 0) t.cls
  match c.bestLink ls t.cls t.enc with
  | some l => some l
  | none => ls.head?

/-- ESCAPE_TIMEOUT: the n-th waiting message. -/
def execEscapeTimeout (n : Nat) (s : State) : Host.Outcome State Fault Refusal :=
  s.onCore (fun d =>
    match d.c.transit[n]? with
    | none => d.c
    | some t =>
      if t.cls ≠ 1 ∧ t.cls ≠ 2 then d.c
      else
        let c1 := match d.c.waitsAt t with | some l => d.c.bump (linkBase l + 0x438) 32 1 | none => d.c
        { c1 with transit := c1.transit.set n { t with cls := 3 } }.pump)

/-- ESCAPE_WAIT_TIMEOUT: the n-th waiting message has no usable escape link. -/
def execEscapeWaitTimeout (n : Nat) (s : State) : Host.Outcome State Fault Refusal :=
  s.onCore (fun d =>
    match d.c.transit[n]? with
    | none => d.c
    | some t =>
      if t.cls ≠ 3 ∨ (d.c.outLinks (kgetD d.c.routes t.dst 0) 3).any (fun l => d.c.linkUsable l 3 t.enc) then d.c
      else
        let c1 := { d.c with transit := dropAt d.c.transit n }
        match t.arrived with
        | some a => (c1.bump (linkBase a + 0x43C) 32 1).sendCredit a t.buf t.flits
        | none => c1)

end Sys2Proof.Machine
end

