-- ==== Sys2Proof/Machine/Fabric.lean ====
section
/-!
DEFINITION. Remote reads and writes as they arrive, requests and their completions, parameter pushes at their holders, and the
fabric commands (R37, R263, R264, R289, R291, R292, R338, R339, R342, R343, R347, R348, R367 to R374, R443).
-/
namespace Sys2Proof.Machine
open Sys2Proof

/-! ## Requests served here (R37, R264, R338, R339, R343) -/

/-- The status that a far device answers for a cause of R181: 1 not resident, 2 address fault, 3 poison. -/
def farStatus (k : Nat) : Nat := if k = 1 ∨ k = 2 then 1 else if k = 4 then 2 else 3

/-- Whether a remote access may name a stretch at all: HBM of this device. -/
def farRange (a len : Nat) : Bool := a + len ≤ hbmEnd

/-- READ_ARRIVE: the READ waits to be served. -/
def execReadArrive (src job tag addr len : Nat) (s : State) : Host.Outcome State Fault Refusal :=
  s.onCore (fun d =>
    match d.c.jobCtx job with
    | none => d.c
    | some _ => { d.c with reads := d.c.reads ++ [{ src := src, job := job, tag := tag, addr := addr, len := len }] })

/-- READ_DATA's payload: status, the shard and version of each published range that the read takes bytes of (R264), and the data. -/
def readPayload (status : Nat) (vers : List (Nat × Nat)) (b : List Byte) : List Byte :=
  leBytes status 1 ++ leBytes vers.length 1 ++ vers.flatMap (fun v => leBytes v.1 4 ++ leBytes v.2 8) ++ b

/-- Whether a reply of some flits can leave now: a usable link toward its device holds the credits (R343). -/
def Core.replyReady (c : Core) (dst flits : Nat) (enc : Bool) : Bool :=
  match c.bestLink (c.outLinks (kgetD c.routes dst 0) 1) 1 enc with
  | some l => flits ≤ (c.link l).credReply
  | none => false

/-- READ_SERVE: the n-th waiting READ. A read that the controller's parity fails answers as poison does (assumption log). -/
def Core.serveRead (c : Core) (i : Nat) : Core :=
  match c.reads[i]? with
  | none => c
  | some r =>
    match c.jobCtx r.job with
    | none => { c with reads := dropAt c.reads i }
    | some n =>
      let enc := match c.job? n with | some j => j.enc | none => false
      let ans (c : Core) : Nat × List (Nat × Nat) × List Byte :=
        if farRange r.addr r.len then
          match c.readBytes n r.addr r.len with
          | .ok b => (0, c.versions n r.addr r.len, b)
          | .error k => (farStatus k, [], [])
        else (2, [], [])
      let pl (c : Core) : List Byte := readPayload (ans c).1 (ans c).2.1 (ans c).2.2
      if !c.replyReady r.src (flitsOf (4 + (pl c).length + (if enc then 16 else 0))) enc then c
      else
        let h := if farRange r.addr r.len then c.hbmRead n r.addr r.len else (c, false)
        ({ h.1 with reads := dropAt h.1.reads i }.touchAt n r.addr).answer n r.src kReadData r.tag
          (if h.2 then readPayload 3 [] [] else pl h.1)

/-- READ_SERVE. -/
def execReadServe (n : Nat) (s : State) : Host.Outcome State Fault Refusal := s.onCore (fun d => d.c.serveRead n)

/-- A remote write into local memory: nothing is written where any of it cannot be. Answers the status. -/
def Core.farWrite (c : Core) (n a : Nat) (b : List Byte) : Core × Nat :=
  if !(farRange a b.length) then (c, 2)
  else match (chunks a (b.length + 1) b.length).findSome? (fun k => match c.locate n k.1 with
      | .fault q _ => some q
      | _ => none) with
    | some q => (c, farStatus q)
    | none => match c.writeBytes n a b with
      | .ok c1 => (c1.touchAt n a, 0)
      | .error e => (c, farStatus e.1)

/-- WRITE_ARRIVE. -/
def execWriteArrive (src job tag addr : Nat) (data : List Byte) (s : State) : Host.Outcome State Fault Refusal :=
  s.onCore (fun d =>
    match d.c.jobCtx job with
    | none => d.c
    | some n =>
      let r := d.c.farWrite n addr data
      r.1.answer n src kWriteDone tag (leBytes r.2 1))

/-! ## Completions (R338, R347) -/

/-- READ_DATA_ARRIVE: data for an outstanding READ; any other is discarded. -/
def execReadDataArrive (tag status : Nat) (versions : List (Nat × Nat)) (data : List Byte) (s : State) :
    Host.Outcome State Fault Refusal :=
  s.onCore (fun d =>
    match kget d.c.requests tag with
    | none => d.c
    | some q =>
      if q.msg.kind ≠ kRead then d.c
      else
        let c1 := { d.c with requests := kdel d.c.requests tag }
        match q.owner with
        | .se die e => c1.passData die e q status versions data
        | _ => c1)

/-- A record's WRITE to a peer ring is done: the last one outstanding moves the producer offset (R319). A write that the peer could
not make is a fault of the sweep. -/
def Core.exportWritten (c : Core) (d : Nat) (q : Request) (status : Nat) : Core :=
  match c.ctx? q.ctx with
  | none => c
  | some x =>
    match x.exports.find? (fun e => e.2.tags.contains q.msg.tag) with
    | none => c
    | some (en, ex) =>
      let ex1 := { ex with tags := ex.tags.erase q.msg.tag }
      let c1 := c.modExport q.ctx en (fun _ => ex1)
      if status ≠ 0 then
        (if (c1.active (.uu d) 0x71).isSome then c1.actionFault (.uu d) 0x0A q.msg.tag else c1.setAbandon q.ctx 0x01)
      else if ex1.tags.isEmpty then c1.writeProducer q.ctx d ex1 else c1

/-! ## Pushes at their holder (R263, R289, R317, R348) -/

/-- The push-replica entry of a shard; the owner's entry of one. -/
def Ctx.replicaOf (x : Ctx) (sid : Nat) : Option (Nat × Nat) := x.shards.find? (fun e => shId e.2 = sid && shRole e.2 = 2)
def Ctx.ownedOf (x : Ctx) (sid : Nat) : Option (Nat × Nat) := x.shards.find? (fun e => shId e.2 = sid && shRole e.2 = 1)

/-- Whether the pieces of a push make it whole: the last one gives its end, and the distinct pieces fill it. -/
def pushWhole (ps : List (Nat × Nat × Bool)) : Bool :=
  match ps.find? (fun q => q.2.2) with
  | some (off, len, _) => ((ps.eraseDups).map (fun q => q.2.1)).sum = off + len
  | none => false

/-- A piece of a push lands (R263, R289): written at the holder's own S_PUB; the version changes with the last byte. -/
def Core.landPush (c : Core) (n entry sh ver off : Nat) (b : List Byte) (last : Bool) : Core × Nat :=
  if c.pubBytes n sh < off + b.length then (c, 2)
  else
    let r := c.farWrite n (shPub sh + off) b
    if r.2 ≠ 0 then r
    else
      let old := match (c.ctx? n).bind (fun x => kget x.pushGot entry) with
        | some (v, l) => if v = ver then l else []
        | none => []
      let ps := if old.contains (off, b.length, last) then old else old ++ [(off, b.length, last)]
      let c1 := r.1.modCtx n (fun x => { x with pushGot := kset x.pushGot entry (ver, ps) })
      if pushWhole ps then
        (((c1.setVersion n entry ver).modCtx n (fun x => { x with pushGot := kdel x.pushGot entry })).modStep n (fun s => { s with
          pushLanded := if s.pushLanded.contains entry then s.pushLanded else s.pushLanded ++ [entry] }), 0)
      else (c1, 0)

/-- PUSH_ARRIVE: without a replica entry the push is discarded and counted at port die 10 (R317). -/
def execPushArrive (src job tag sid version off : Nat) (data : List Byte) (last : Bool) (s : State) : Host.Outcome State Fault Refusal :=
  s.onCore (fun d =>
    match d.c.jobCtx job with
    | none => d.c
    | some n =>
      match (d.c.ctx? n).bind (fun x => x.replicaOf sid) with
      | none => d.c.bump (subBase 10 8 0 + 0x438) 32 1
      | some (e, sh) =>
        let r := d.c.landPush n e sh version off data last
        r.1.answer n src kWriteDone tag (leBytes r.2 1))

/-- PUSH_REQ_TIMER: a replica entry that still awaits its push of the step. -/
def execPushReqTimer (ctx entry : Nat) (s : State) : Host.Outcome State Fault Refusal :=
  s.guard (ctx < 16 && entry < 65536) (fun d =>
    let sh := d.c.entry ctx tShard entry
    let st := d.c.stepSt ctx
    let apply_ := match st.verdict with | some v => v.decision = 0 | none => false
    let lost := match d.c.job? ctx with | some j => j.lost.contains (shOwner sh) | none => true
    if shRole sh ≠ 2 || !apply_ || lost || st.pushLanded.contains entry then d.c
    else d.c.send ctx (shOwner sh) kPushReq (leBytes (shId sh) 4))

/-- PUSH_REQ_ARRIVE: the owner sends the push again; a published range that cannot be read sends nothing. -/
def execPushReqArrive (src job sid : Nat) (s : State) : Host.Outcome State Fault Refusal :=
  s.onCore (fun d =>
    match d.c.jobCtx job with
    | none => d.c
    | some n =>
      let c := d.c.hear n src
      match (c.ctx? n).bind (fun x => x.ownedOf sid) with
      | none => c
      | some (_, sh) =>
        let c := ((c.touchAt n (shPub sh)).hbmRead n (shPub sh) (c.pubBytes n sh)).1
        match c.uuRead n (shPub sh) (c.pubBytes n sh) with
        | .ok b => (c.sendPush n (portDie (shPub sh / 2 ^ 36)) src sid (shVersion sh) b).1
        | .error _ => c)

end Sys2Proof.Machine
end

