-- ==== Sys2Proof/Machine/Expert.lean ====
section
/-!
DEFINITION. Expert dispatch: the counts, grants and rows of DISPATCH, and their return by COMBINE (R109, R363 to R366), with the
completions that the three requesting units share (R347).
-/
namespace Sys2Proof.Machine
open Sys2Proof

/-! ## Plans as read from memory (R363) -/

/-- A plan's lists: devices, experts (device, local slot, capacity) and assignments (token, expert, second choice). -/
structure Plan where
  n : Nat
  entry : Nat
  devs : List Nat
  experts : List (Nat × Nat × Nat)
  assigns : List (Nat × Nat × Nat)
  deriving DecidableEq, Repr

/-- The lists read; an error where a word is poisoned or missing. -/
def Core.planLists (c : Core) (n e : Nat) : Except Nat Plan :=
  match c.readBytes n (dpDevs e) (2 * dpDevN e), c.readBytes n (dpEmap e) (8 * dpExperts e), c.readBytes n (dpAssign e) (8 * dpAssigns e) with
  | .ok d, .ok m, .ok a =>
    .ok { n := n, entry := e, devs := (List.range (dpDevN e)).map (fun i => fieldAt d (2 * i) 2 % 2 ^ 15),
          experts := (List.range (dpExperts e)).map (fun i =>
            (fieldAt m (8 * i) 2 % 2 ^ 15, fieldAt m (8 * i + 2) 2, fieldAt m (8 * i + 4) 4)),
          assigns := (List.range (dpAssigns e)).map (fun i => (fieldAt a (8 * i) 4, fieldAt a (8 * i + 4) 2, fieldAt a (8 * i + 6) 2)) }
  | .error k, _, _ => .error k
  | _, .error k, _ => .error k
  | _, _, .error k => .error k

/-- Whether the lists agree with the plan: devices ascending, this one among them; experts on those devices, with capacities within
the slot regions and local slots that exist; assignments to experts of the map. -/
def Plan.ok (p : Plan) (self : Nat) : Bool :=
  p.devs.contains self && (p.devs.zip (p.devs.drop 1)).all (fun q => q.1 < q.2) && p.experts.all (fun x => p.devs.contains x.1) &&
  p.experts.all (fun x => x.2.2 ≤ dpCap p.entry && (x.1 ≠ self || x.2.1 < dpSlots p.entry)) &&
  p.assigns.all (fun a => a.2.1 < p.experts.length && (a.2.2 = 0xFFFF || a.2.2 < p.experts.length))

/-- The experts of a device, ascending. -/
def Plan.expertsOf (p : Plan) (dev : Nat) : List Nat :=
  (List.range p.experts.length).filter (fun x => match p.experts[x]? with | some q => q.1 = dev | none => false)

/-- The place of an expert among those of its device. -/
def Plan.placeOf (p : Plan) (x : Nat) : Nat × Nat :=
  let dev := ((p.experts[x]?).map (fun q => q.1)).getD 0
  (dev, (findIx (p.expertsOf dev) (fun y => y = x)).getD 0)

/-- Assignments by first choice, ascending. -/
def Plan.firsts (p : Plan) (x : Nat) : List Nat :=
  (List.range p.assigns.length).filter (fun i => match p.assigns[i]? with | some a => a.2.1 = x | none => false)

/-- A dispatch that nothing has touched in the step. -/
def Disp.fresh : Disp :=
  { die := none, ovf := 0, counts := [], counts2 := [], given := [], given2 := [], got := [], got2 := [], asked2 := false, sent := false,
    rows := [], fromRow := [], dropped := [], counted := false, combined := false, combGot := [] }

/-- The dispatch of a plan entry, and the same changed. -/
def Core.disp (c : Core) (n dp : Nat) : Disp := match c.ctx? n with | some x => kgetD x.disps dp Disp.fresh | none => Disp.fresh
def Core.modDisp (c : Core) (n dp : Nat) (f : Disp → Disp) : Core :=
  c.modCtx n (fun x => { x with disps := kset x.disps dp (f (kgetD x.disps dp Disp.fresh)) })

/-- Rows that an expert's home granted this source, and the first of them. -/
def Plan.grantOf (p : Plan) (got : KMap Nat (List (Nat × Nat))) (x : Nat) : Nat × Nat :=
  let q := p.placeOf x
  (kgetD got q.1 []).getD q.2 (0, 0)

/-- Assignments that their first choice overflows, in list order. -/
def Plan.overflow (p : Plan) (d : Disp) : List Nat :=
  (List.range p.assigns.length).filter (fun i => match p.assigns[i]? with
    | some a => (p.grantOf d.got a.2.1).1 ≤ (findIx (p.firsts a.2.1) (fun j => j = i)).getD 0
    | none => false)

/-- Overflowed assignments by second choice, in list order. -/
def Plan.seconds (p : Plan) (d : Disp) (x : Nat) : List Nat :=
  (p.overflow d).filter (fun i => match p.assigns[i]? with | some a => a.2.2 = x | none => false)

/-- Where each assignment goes: expert, row, and whether by second choice; none for a dropped one. -/
def Plan.target (p : Plan) (d : Disp) (i : Nat) : Option (Nat × Nat × Bool) :=
  match p.assigns[i]? with
  | none => none
  | some a =>
    let k := (findIx (p.firsts a.2.1) (fun j => j = i)).getD 0
    let g := p.grantOf d.got a.2.1
    if k < g.1 then some (a.2.1, g.2 + k, false)
    else if d.ovf = 1 ∧ a.2.2 ≠ 0xFFFF then
      let k2 := (findIx (p.seconds d a.2.2) (fun j => j = i)).getD 0
      let g2 := p.grantOf d.got2 a.2.2
      if k2 < g2.1 then some (a.2.2, g2.2 + k2, true) else none
    else none

/-! ## Faults of the dispatch engine (R359) -/

/-- A failed access on behalf of a plan: a fault of its DISPATCH or COMBINE, or the abandon flag where neither has begun. -/
def Core.dispFault (c : Core) (n dp reason : Nat) : Core :=
  match c.cols.find? (fun e => match e.1, e.2.run with
    | .de _, some r => decide (r.a.ctx = n ∧ aEntry r.a.bits = dp ∧ ¬ r.done)
    | _, _ => false) with
  | some e => c.actionFault e.1 reason dp
  | none => c.setAbandon n 0x01

/-! ## Rows (R364, R365) -/

/-- Pieces of a row, one message each. -/
def rowPieces (b : List Byte) : List (Nat × List Byte) := pieces 7168 0 b (b.length + 1)

/-- Bytes of a row landed at an offset, with those that landed before. -/
def landed (offs : List Nat) (off : Nat) : List Nat := if offs.contains off then offs else offs ++ [off]

/-- Whether every piece of a row has landed. -/
def rowWhole (rowb : Nat) (offs : List Nat) : Bool := cdiv rowb 7168 ≤ offs.length

/-- A piece of a dispatched row lands at its place (R365). Answers the status of its WRITE_DONE. -/
def Core.landRow (c : Core) (n dp src slot row off assign : Nat) (b : List Byte) : Core × Nat :=
  let e := c.entry n tDisp dp
  if e = 0 ∨ dpSlots e ≤ slot ∨ dpCap e ≤ row ∨ dpRowb e < off + b.length then (c, 2)
  else
    let r := c.farWrite n (dpRecv e + (slot * dpCap e + row) * dpRowb e + off) b
    if r.2 ≠ 0 then r
    else (r.1.modDisp n dp (fun d => { d with
      rows := kset d.rows (slot, row) (landed (kgetD d.rows (slot, row) []) off), fromRow := kset d.fromRow (slot, row) (src, assign) }), 0)

/-- A piece of a combined row lands at its assignment's place (R366). -/
def Core.landComb (c : Core) (n dp assign off : Nat) (b : List Byte) : Core × Nat :=
  let e := c.entry n tDisp dp
  if e = 0 ∨ dpAssigns e ≤ assign ∨ dpRowb e < off + b.length then (c, 2)
  else
    let r := c.farWrite n (dpComb e + assign * dpRowb e + off) b
    if r.2 ≠ 0 then r
    else (r.1.modDisp n dp (fun d => { d with combGot := kset d.combGot assign (landed (kgetD d.combGot assign []) off) }), 0)

/-! ## Completion (R83, R109) -/

/-- Whether messages of a dispatch engine's action still await their completion. -/
def Core.deWaits (c : Core) (d n : Nat) : Bool := c.requests.any (fun q => q.2.owner = .de d && q.2.ctx = n)

/-- Rows granted at this device in all, over sources and local experts. -/
def Disp.granted (d : Disp) : Nat :=
  ((d.given ++ d.given2).map (fun e => (e.2.map (fun g => g.1)).sum)).sum

/-- Whether the inbound side stands: every source's counts had and granted, every granted row whole. -/
def Plan.inbound (p : Plan) (d : Disp) : Bool :=
  p.devs.all (fun s => (kget d.given s).isSome && (d.ovf ≠ 1 || (kget d.given2 s).isSome)) &&
  d.granted ≤ (d.rows.filter (fun r => rowWhole (dpRowb p.entry) r.2)).length

/-- The count record (R363, R364): tokens and sources per local slot. -/
def Core.writeCounts (c : Core) (p : Plan) (dp : Nat) : Except (Nat × Core) Core :=
  let d := c.disp p.n dp
  let mine := p.expertsOf c.devNum
  let slot (s : Nat) : List Byte :=
    let ks := (List.range mine.length).filter (fun k => ((p.experts[mine.getD k 0]?).map (fun q => q.2.1)) = some s)
    let of (src : Nat) : Nat := (ks.map (fun k => ((kgetD d.given src []).getD k (0, 0)).1 + ((kgetD d.given2 src []).getD k (0, 0)).1)).sum
    leBytes ((p.devs.map of).sum) 4 ++ leBytes ((p.devs.filter (fun q => 0 < of q)).length) 2 ++ zeros 2
  c.writeBytes p.n (dpCounts p.entry) ((List.range (dpSlots p.entry)).flatMap slot)

/-- DISPATCH is complete once its rows are accepted and the inbound side stands; D_COUNTS is written then. -/
def Core.dispEnd (c : Core) (n dp : Nat) : Core :=
  let d := c.disp n dp
  match d.die with
  | none => c
  | some die =>
    match c.active (.de die) 0x91 with
    | none => c
    | some r =>
      if r.a.ctx ≠ n ∨ aEntry r.a.bits ≠ dp ∨ !d.sent ∨ d.counted ∨ c.deWaits die n then c
      else match c.planLists n (c.entry n tDisp dp) with
        | .error k => c.actionFault (.de die) (readReason k) dp
        | .ok p =>
          if p.inbound d then
            match c.writeCounts p dp with
            | .ok c1 => ((c1.touchAt n (dpCounts p.entry)).modDisp n dp (fun d => { d with counted := true })).actDone (.de die)
            | .error e => e.2.actionFault (.de die) 0x0A dp
          else c

/-- COMBINE is complete once its rows are accepted and every assignment not dropped has come back. -/
def Core.combEnd (c : Core) (n dp : Nat) : Core :=
  let d := c.disp n dp
  match c.cols.findSome? (fun e => match e.1, e.2.run with
    | .de die, some r => if r.a.op = 0x92 ∧ r.a.ctx = n ∧ aEntry r.a.bits = dp ∧ r.started ∧ ¬ r.done then some die else none
    | _, _ => none) with
  | none => c
  | some die =>
    let e := c.entry n tDisp dp
    if c.deWaits die n then c
    else if (List.range (dpAssigns e)).all (fun i => d.dropped.contains i || rowWhole (dpRowb e) (kgetD d.combGot i [])) then
      c.actDone (.de die)
    else c

/-! ## Grants (R364) -/

/-- One expert's grants over the sources in ascending order: each gets its request while capacity remains. `used` rows are taken. -/
def grantRow (cap : Nat) : Nat → List Nat → List (Nat × Nat)
  | _, [] => []
  | used, q :: r =>
    let g := min q (cap - used)
    (g, used) :: grantRow cap (used + g) r

/-- Every local expert's grants, by source: first-choice rows from row 0, second-choice rows after them. -/
def Plan.grants (p : Plan) (self : Nat) (counts : KMap Nat (List Nat)) (before : KMap Nat (List (Nat × Nat))) : KMap Nat (List (Nat × Nat)) :=
  let mine := p.expertsOf self
  let perExpert := (List.range mine.length).map (fun k =>
    let cap := ((p.experts[mine.getD k 0]?).map (fun q => q.2.2)).getD 0
    let used := (p.devs.map (fun s => ((kgetD before s []).getD k (0, 0)).1)).sum
    grantRow cap used (p.devs.map (fun s => (kgetD counts s []).getD k 0)))
  (List.range p.devs.length).map (fun i => (p.devs.getD i 0, perExpert.map (fun l => l.getD i (0, 0))))

/-! ## The exchange between devices -/

/-- A list in parts of at most `k` entries, each with the place of its first entry; one empty part for an empty list. -/
def partsOf {α : Type} (k : Nat) (l : List α) : List (Nat × List α) :=
  (List.range (max 1 (cdiv l.length k))).map (fun i => (k * i, (l.drop (k * i)).take k))

/-- The messages that carry counts, grants and rows: each within 7,680 bytes (R337, R338); the places of the fields are the model's
(assumption log). -/
def countBytes (dp : Nat) (second : Bool) (l : List Nat) : List (List Byte) :=
  (partsOf 1900 l).map (fun q => leBytes dp 2 ++ leBytes (b2n second) 1 ++ leBytes q.1 4 ++ q.2.flatMap (fun k => leBytes k 4))
def grantBytes (dp : Nat) (second : Bool) (l : List (Nat × Nat)) : List (List Byte) :=
  (partsOf 950 l).map (fun q => leBytes dp 2 ++ leBytes (b2n second) 1 ++ leBytes q.1 4 ++
    q.2.flatMap (fun g => leBytes g.1 4 ++ leBytes g.2 4))
def rowBytes (dp slot row off assign : Nat) (b : List Byte) : List Byte :=
  leBytes dp 2 ++ leBytes slot 2 ++ leBytes row 4 ++ leBytes off 4 ++ leBytes assign 4 ++ b
def combBytes (dp assign off : Nat) (b : List Byte) : List Byte := leBytes dp 2 ++ leBytes assign 4 ++ leBytes off 4 ++ b

/-- Bytes that a dispatch engine reads (R235, R248), or the reason for which it cannot. -/
def Core.deRead (c : Core) (n a len : Nat) : Except (Nat × Core) (Core × List Byte) :=
  match (c.touchAt n a).hbmRead n a len with
  | (c1, true) => .error (9, c1)
  | (c1, false) => match c1.readBytes n a len with
    | .ok b => .ok (c1, b)
    | .error k => .error (readReason k, c1)

/-- A source's granted rows sent (R364 order 4, R365); its own rows land at once. Drops and redirections are counted. -/
def Core.sendRows (c : Core) (n dp die : Nat) (p : Plan) : Core :=
  let d := c.disp n dp
  let b := subBase die 12 0
  let step (acc : Except (Nat × Core) Core) (i : Nat) : Except (Nat × Core) Core :=
    match acc with
    | .error k => .error k
    | .ok c =>
      match p.target d i, p.assigns[i]? with
      | some (x, row, second), some a =>
        let slot := ((p.experts[x]?).map (fun q => q.2.1)).getD 0
        let home := (p.placeOf x).1
        let at_ := dpSrc p.entry + a.1 * dpRowb p.entry
        (match c.deRead n at_ (dpRowb p.entry) with
         | .error k => .error k
         | .ok (c0, bytes) =>
           let c1 := c0.bump (b + 0x408) 64 1
           let c2 := if second then (c1.bump (b + 0x414) 32 1).censusAdd n 0x550 1 else c1
           .ok ((rowPieces bytes).foldl (fun c q =>
             if home = c.devNum then (c.landRow n dp c.devNum slot row q.1 i q.2).1
             else c.request n home kDispRow (rowBytes dp slot row q.1 i q.2) (.de die)) c2))
      | none, some _ =>
        .ok (((c.modDisp n dp (fun d => { d with dropped := d.dropped ++ [i] })).bump (b + 0x410) 32 1).censusAdd n 0x548 1)
      | _, _ => .ok c
  match (List.range p.assigns.length).foldl step (.ok (c.modDisp n dp (fun d => { d with sent := true }))) with
  | .ok c1 => c1.dispEnd n dp
  | .error (k, c1) => c1.dispFault n dp k

/-- What each source asks of each device: one count per expert of that device. -/
def Plan.asks (p : Plan) (dev : Nat) (of : Nat → List Nat) : List Nat := (p.expertsOf dev).map (fun x => (of x).length)

/-- The exchange moved on as far as what has arrived allows. `fuel` bounds the own device's part in its own exchange. -/
def Core.dispAdvance (c : Core) (n dp : Nat) (p : Plan) : Nat → Core
  | 0 => c
  | fuel + 1 =>
    let d := c.disp n dp
    let all {α : Type} (m : KMap Nat α) : Bool := p.devs.all (fun s => (kget m s).isSome)
    -- the destination's part
    let tell (c : Core) (g : KMap Nat (List (Nat × Nat))) (second : Bool) : Core := p.devs.foldl (fun c s =>
      if s = c.devNum then c
      else (grantBytes dp second (kgetD g s [])).foldl (fun c b => c.send n s kDispGrant b) c) c
    if all d.counts ∧ d.given.isEmpty then
      let g := p.grants c.devNum d.counts []
      let mine := kgetD g c.devNum []
      ((tell (c.modDisp n dp (fun d => { d with given := g })) g false).modDisp n dp (fun d => { d with
        got := kset d.got c.devNum mine })).dispAdvance n dp p fuel
    else if all d.counts2 ∧ !d.given.isEmpty ∧ d.given2.isEmpty then
      let g := p.grants c.devNum d.counts2 d.given
      let mine := kgetD g c.devNum []
      ((tell (c.modDisp n dp (fun d => { d with given2 := g })) g true).modDisp n dp (fun d => { d with
        got2 := kset d.got2 c.devNum mine })).dispAdvance n dp p fuel
    else match d.die with
      | none => c
      | some die =>
        -- the source's part
        if !d.sent ∧ all d.got ∧ d.ovf = 1 ∧ !d.asked2 then
          let ask (dev : Nat) : List Nat := p.asks dev (p.seconds d)
          (p.devs.foldl (fun c s =>
            if s = c.devNum then c.modDisp n dp (fun d => { d with counts2 := kset d.counts2 s (ask s) })
            else (countBytes dp true (ask s)).foldl (fun c b => c.request n s kDispCount b (.de die)) c) (c.modDisp n dp (fun d => { d with asked2 := true }))).dispAdvance
              n dp p fuel
        else if !d.sent ∧ all d.got ∧ (d.ovf ≠ 1 ∨ all d.got2) then c.sendRows n dp die p
        else c.dispEnd n dp

/-- The exchange of a plan moved on. -/
def Core.dispGo (c : Core) (n dp : Nat) : Core :=
  match c.planLists n (c.entry n tDisp dp) with
  | .error k => c.dispFault n dp (readReason k)
  | .ok p => c.dispAdvance n dp p 8

/-- The counts that a DISPATCH sends first (R364): to every other device of the plan by request, to itself at once. -/
def Core.dispAsk (c0 : Core) (die n dp ovf : Nat) (p : Plan) : Core :=
  let u := UnitId.de die
  let c1 := (c0.modRunning u (fun q => { q with started := true })).modDisp n dp (fun d => { d with die := some die, ovf := ovf })
  let ask (dev : Nat) : List Nat := p.asks dev p.firsts
  p.devs.foldl (fun c s =>
    if s = c.devNum then c.modDisp n dp (fun d => { d with counts := kset d.counts s (ask s) })
    else (countBytes dp false (ask s)).foldl (fun c b => c.request n s kDispCount b u) c) c1

/-- DISPATCH begins (R109, R364 order 1). -/
def Core.dispBegin (c : Core) (die : Nat) : Core :=
  let u := UnitId.de die
  match c.active u 0x91 with
  | none => c
  | some r =>
    let n := r.a.ctx
    let dp := aEntry r.a.bits
    let e := c.entry n tDisp dp
    if r.started then c.dispGo n dp
    else if e = 0 || !(match c.ctx? n with | some x => x.dispatchOk e | none => false) || (c.job? n).isNone then c.actionFault u 4 dp
    else match c.unitReads u n [(dpDevs e, 2 * dpDevN e), (dpEmap e, 8 * dpExperts e), (dpAssign e, 8 * dpAssigns e)] with
    | (c, true) => c
    | (c, false) => match c.planLists n e with
      | .error k => c.actionFault u (readReason k) dp
      | .ok p =>
        if !(p.ok c.devNum) then c.actionFault u 4 dp
        else match c.checks u [] [(1, 1)] with
          | (c0, true) => c0
          | (c0, false) => (c0.dispAsk die n dp (aOVF r.a.bits) p).dispAdvance n dp p 8

/-- DISPATCH. -/
def execDispatch (die : Nat) (s : State) : Host.Outcome State Fault Refusal := s.guard (isLinkDie die) (fun d => d.c.dispBegin die)

/-- The context that takes a message of a job for its step: bound, running, not abandoned. -/
def Core.dispCtx (c : Core) (job src : Nat) : Option Nat :=
  match c.jobCtx job with
  | none => none
  | some n => if (c.run? n).isSome ∧ (c.stepSt n).abandon.isNone ∧ src < 2 ^ 15 then some n else none

/-- DISP_COUNT_ARRIVE: a second delivery is discarded. -/
def execDispCountArrive (src job dplan : Nat) (second : Bool) (counts : List Nat) (s : State) : Host.Outcome State Fault Refusal :=
  s.onCore (fun d =>
    match d.c.dispCtx job src with
    | none => d.c
    | some n =>
      let c := d.c.hear n src
      let q := c.disp n dplan
      if c.entry n tDisp dplan = 0 ∨ (kget (if second then q.counts2 else q.counts) src).isSome then c
      else (c.modDisp n dplan (fun q => if second then { q with counts2 := kset q.counts2 src counts }
        else { q with counts := kset q.counts src counts })).dispGo n dplan)

/-- DISP_GRANT_ARRIVE: it completes the DISP_COUNT that asked; any other is discarded. -/
def execDispGrantArrive (src job dplan : Nat) (second : Bool) (grants : List (Nat × Nat)) (s : State) : Host.Outcome State Fault Refusal :=
  s.onCore (fun d =>
    match d.c.dispCtx job src with
    | none => d.c
    | some n =>
      let c := d.c.hear n src
      let asked (q : Request) : Bool := q.ctx = n && q.msg.kind = kDispCount && q.msg.dst = src &&
        q.msg.payload.take 3 = leBytes dplan 2 ++ leBytes (b2n second) 1
      if c.requests.any (fun q => asked q.2) then
        (({ c with requests := c.requests.filter (fun q => !(asked q.2)) }).modDisp n dplan (fun q =>
          if second then { q with got2 := kset q.got2 src grants } else { q with got := kset q.got src grants })).dispGo n dplan
      else c)

/-- DISP_ROW_ARRIVE. -/
def execDispRowArrive (src job dplan lslot row tag off assign : Nat) (data : List Byte) (s : State) :
    Host.Outcome State Fault Refusal :=
  s.onCore (fun d =>
    match d.c.dispCtx job src with
    | none => d.c
    | some n =>
      let r := d.c.landRow n dplan src lslot row off assign data
      (r.1.answer n src kWriteDone tag (leBytes r.2 1)).dispEnd n dplan)

/-! ## COMBINE (R366) -/

/-- What COMBINE sends back (R366): dropped assignments are written as zeros, and every landed row goes to the device it came from. -/
def Core.combReturn (c0 : Core) (die n dp : Nat) (d : Disp) : Except (Nat × Core) Core :=
  let u := UnitId.de die
  let e := c0.entry n tDisp dp
  let c1 := (c0.modRunning u (fun q => { q with started := true })).modDisp n dp (fun d => { d with combined := true })
  let c2 := d.dropped.foldl (fun c i => (c.farWrite n (dpComb e + i * dpRowb e) (zeros (dpRowb e))).1) c1
  let back (acc : Except (Nat × Core) Core) (q : (Nat × Nat) × (Nat × Nat)) : Except (Nat × Core) Core :=
    match acc with
    | .error k => .error k
    | .ok c =>
      let a := dpRecv e + (q.1.1 * dpCap e + q.1.2) * dpRowb e
      match c.deRead n a (dpRowb e) with
      | .error k => .error k
      | .ok (c, b) => .ok ((rowPieces b).foldl (fun c m =>
          if q.2.1 = c.devNum then (c.landComb n dp q.2.2 m.1 m.2).1
          else c.request n q.2.1 kCombRow (combBytes dp q.2.2 m.1 m.2) u)
          (c.bump (subBase die 12 0 + 0x408) 64 1))
  d.fromRow.foldl back (.ok c2)

/-- COMBINE begins once its DISPATCH is complete: every landed row goes back, and dropped assignments are written as zeros. -/
def Core.combBegin (c : Core) (die : Nat) : Core :=
  let u := UnitId.de die
  match c.active u 0x92 with
  | none => c
  | some r =>
    let n := r.a.ctx
    let dp := aEntry r.a.bits
    let e := c.entry n tDisp dp
    let d := c.disp n dp
    if r.started then c.combEnd n dp
    else if e = 0 then c.actionFault u 4 dp
    else if d.die.isNone then c.actionFault u 0x0A dp
    else if !d.counted then c
    else match c.checks u [] [(1, 1)] with
      | (c0, true) => c0
      | (c0, false) =>
        match c0.combReturn die n dp d with
        | .error (k, c3) => c3.actionFault u k dp
        | .ok c3 => c3.combEnd n dp

/-- COMBINE. -/
def execCombine (die : Nat) (s : State) : Host.Outcome State Fault Refusal := s.guard (isLinkDie die) (fun d => d.c.combBegin die)

/-- COMB_ROW_ARRIVE. -/
def execCombRowArrive (src job dplan assign tag off : Nat) (data : List Byte) (s : State) : Host.Outcome State Fault Refusal :=
  s.onCore (fun d =>
    match d.c.dispCtx job src with
    | none => d.c
    | some n =>
      let r := d.c.landComb n dplan assign off data
      (r.1.answer n src kWriteDone tag (leBytes r.2 1)).combEnd n dplan)

/-! ## WRITE_DONE and the request timeout (R347) -/

/-- WRITE_DONE_ARRIVE: the completion of an outstanding request; any other is discarded. -/
def Core.writeDone (c : Core) (tag status : Nat) : Core :=
  match kget c.requests tag with
  | none => c
  | some q =>
    if !(q.msg.kind = kWrite || q.msg.kind = kPush || q.msg.kind = kDispRow || q.msg.kind = kCombRow) then c
    else
      let c1 := { c with requests := kdel c.requests tag }.hear q.ctx q.msg.dst
      match q.owner with
      | .se d e => c1.passWritten d e q status
      | .uu d => if q.msg.kind = kPush then c1.pushesAcked [tag] else c1.exportWritten d q status
      | .de _ =>
        let dp := fieldAt q.msg.payload 0 2
        if status ≠ 0 then c1.dispFault q.ctx dp 0x0A else (c1.dispEnd q.ctx dp).combEnd q.ctx dp
      | _ => c1

/-- WRITE_DONE_ARRIVE. -/
def execWriteDoneArrive (tag status : Nat) (s : State) : Host.Outcome State Fault Refusal := s.onCore (fun d => d.c.writeDone tag status)

/-- A request's tag replaced wherever its sender keeps it. -/
def Core.retag (c : Core) (q : Request) (old new : Nat) : Core :=
  let sub (l : List Nat) : List Nat := l.map (fun t => if t = old then new else t)
  match q.owner with
  | .se d e => c.modEngine d e (fun g => { g with pass := g.pass.map (fun (p : Pass) => { p with asked := sub p.asked, writes := sub p.writes }) })
  | .uu _ =>
    { c with pushTags := c.pushTags.map (fun (e : Nat × List Nat) => (e.1, sub e.2)) }.modCtx q.ctx (fun x => { x with
      exports := x.exports.map (fun (e : Nat × Export) => (e.1, { e.2 with tags := sub e.2.tags })) })
  | .de d => c.bump (subBase d 12 0 + 0x418) 32 1
  | _ => c

/-- Whether the pass, DISPATCH or COMBINE has ended that sent a request: nothing waits for it any more. -/
def Core.orphan (c : Core) (q : Request) : Bool :=
  match q.owner with
  | .se d e => (match c.passOf d e with | some p => !(p.asked.contains q.msg.tag) && !(p.writes.contains q.msg.tag) | none => true)
  | .de d => (match c.running (.de d) with | some r => r.done || r.a.ctx ≠ q.ctx | none => true)
  | _ => false

/-- REQUEST_TIMEOUT: sent again with a new tag, or failed after 8 sends. -/
def Core.requestTimeout (c : Core) (tag : Nat) : Core :=
  match kget c.requests tag with
  | none => c
  | some q =>
    let c1 := { c with requests := kdel c.requests tag }
    if c.orphan q then c1
    else if 8 ≤ q.sends then
      match c1.running q.owner with
      | some r => if r.a.ctx = q.ctx ∧ ¬ r.done then c1.actionFault q.owner 8 tag else c1.setAbandon q.ctx 0x01
      | none => c1.setAbandon q.ctx 0x01
    else
      let new := c.nextTag % 2 ^ 20
      let t : Transit := { q.msg with tag := new, arrived := none, cls := kindClass q.msg.kind }
      let c2 := { c1 with
        requests := kset c1.requests new { q with msg := t, sends := q.sends + 1 }, nextTag := (c.nextTag + 1) % 2 ^ 20,
        transit := c1.transit ++ [t] }
      (c2.retag q tag new).pump

/-- REQUEST_TIMEOUT. -/
def execRequestTimeout (tag : Nat) (s : State) : Host.Outcome State Fault Refusal := s.onCore (fun d => d.c.requestTimeout tag)

end Sys2Proof.Machine
end

