-- ==== Sys2Proof/Machine/Start.lean ====
section
/-!
DEFINITION. Rails, resets and the start-up stages (R398, R449 to R451, R468, R474, R475, R481 to R483).
-/
namespace Sys2Proof.Machine
open Sys2Proof

/-! ## Resets (R7, R226, R398, R437, R438, R469) -/

/-- What stays in the core through any reset: flash records, the outside world as the device saw it, the draws. -/
def Core.afterReset (c : Core) : Core :=
  { Core.reset with
    failFlash := c.failFlash, retiredFlash := c.retiredFlash, freeCtr := c.freeCtr, out := c.out, hostMem := c.hostMem,
    unreach := c.unreach, sramEpoch := c.sramEpoch + 1 }

/-- The core after a warm reset that begins at a stage: RWS registers, counts not yet in flash and a trip's wait stay. Plots that
were to be retired when freed are freed with their contexts (R398, R466). -/
def Core.warm (c : Core) (stage : Nat) : Core :=
  { c.afterReset with
    stage := stage, reg := c.reg.filter (fun e => isRws e.1), failCnt := c.failCnt, failDirty := c.failDirty,
    retired := (c.retired ++ c.retireWait ++ c.retireMove ++ keys c.retireCopy).eraseDups.filter (fun r => !(c.forgotten.contains r)),
    tripWait := c.tripWait }

/-- The core after a cold reset: what stands in flash stays, and the wait for cool sensors after a trip (R386). -/
def Core.cold (c : Core) : Core :=
  { c.afterReset with failCnt := c.failFlash, retired := c.retiredFlash, tripWait := c.tripWait }

/-- The governor after a reset; GOV_TRIP is kept by a warm one (R392). -/
def Gov.warm (g : Gov) : Gov := { Gov.reset with trips := g.trips }

/-- The security engine after a reset: an update being received is dropped, a staged one stays; keys are gone (R437, R449). -/
def Trust.afterReset (t : Trust) (keepIde : Bool) : Trust :=
  { t with
    upd := if t.upd = .receiving then .idle else t.upd, received := 0, fallback := false, runImage := none,
    peerKeys := [], ide := if keepIde then t.ide else [], romMeas := [], fwMeas := [] }

/-- A warm reset of the device; configuration space, its IDE streams among it, survives an FLR and DEV_RESET (R398). -/
def Dev.warm (d : Dev) (stage : Nat) (keepCfg : Bool) : Dev :=
  { d with
    gov := d.gov.warm, tr := d.tr.afterReset keepCfg,
    c := { d.c.warm stage with cfg := if keepCfg then d.c.cfg else PciConfig.reset } }

/-- A cold reset of the device (R482). -/
def Dev.cold (d : Dev) : Dev :=
  { pw := { d.pw with auxUp := false, mainOk := false, coreOn := false, coreGood := false, holdup := 0 },
    gov := Gov.reset, tr := d.tr.afterReset false, c := d.c.cold }

/-- Whether the device is in a start-up stage. -/
def Dev.atStage (d : Dev) (n : Nat) : Bool := d.c.devState = .starting && d.c.stage = n && d.portUp

/-- Stage 1 begins once the core rails are good and PERST# is deasserted (R483). -/
def Dev.stageOne (d : Dev) : Dev :=
  if d.portUp && d.c.devState = .starting && d.c.stage = 0 then
    { d with c := { d.c with stage := 1 } }
  else d

/-! ## Rails (R481 to R483) -/

/-- AUX_RAIL_UP. -/
def execAuxRailUp (s : State) : Host.Outcome State Fault Refusal :=
  s.onDev (fun d => if d.pw.auxUp then d
    else { d with pw := { d.pw with auxUp := true, holdup := Config.holdup d.c.freeCtr % 101 }, c := d.c.drawn })

/-- AUX_RAIL_LOSS. -/
def execAuxRailLoss (s : State) : Host.Outcome State Fault Refusal := s.onDev Dev.cold

/-- MAIN_INPUT_ACCEPT. -/
def execMainInputAccept (s : State) : Host.Outcome State Fault Refusal :=
  s.onDev (fun d => if d.pw.auxUp then { d with pw := { d.pw with mainOk := true, coreOn := true } } else d)

/-- CORE_POWER_GOOD. -/
def execCorePowerGood (s : State) : Host.Outcome State Fault Refusal :=
  s.onDev (fun d => if d.pw.coreOn then ({ d with pw := { d.pw with coreGood := true } } : Dev).stageOne else d)

/-- MAIN_INPUT_UVLO: the core rails go off and the device stops; no reply can be written. -/
def execMainInputUvlo (s : State) : Host.Outcome State Fault Refusal :=
  s.onDev (fun d => { d with
    pw := { d.pw with mainOk := false, coreOn := false, coreGood := false }, c := d.c.chipStop false })

/-- MAIN_INPUT_RECOVER: a warm reset from stage 0. -/
def execMainInputRecover (s : State) : Host.Outcome State Fault Refusal :=
  s.onDev (fun d => if d.pw.auxUp && !d.pw.mainOk then
      let d1 := d.warm 0 false
      { d1 with pw := { d1.pw with mainOk := true, coreOn := true } }
    else d)

/-- PERST_DEASSERT. -/
def execPerstDeassert (s : State) : Host.Outcome State Fault Refusal :=
  s.onDev (fun d => ({ d with pw := { d.pw with perstHigh := true } } : Dev).stageOne)

/-- PCIE_CONVENTIONAL_RESET. -/
def execPcieConventionalReset (s : State) : Host.Outcome State Fault Refusal :=
  s.onDev (fun d => if d.pw.coreGood then d.warm 1 false else d)

/-- HOT_RESET. -/
def execHotReset (s : State) : Host.Outcome State Fault Refusal :=
  s.onDev (fun d => if d.portUp then d.warm 1 false else d)

/-- FUNCTION_LEVEL_RESET: configuration space, and so the IDE streams, and the link survive. -/
def execFunctionLevelReset (s : State) : Host.Outcome State Fault Refusal :=
  s.onDev (fun d => if d.portUp then d.warm 1 true else d)

/-- DEV_RESET_EXEC: the reset that DEV_RESET asked for. -/
def execDevResetExec (s : State) : Host.Outcome State Fault Refusal :=
  s.onDev (fun d => if d.c.resetReq then d.warm 1 true else d)

/-! ## Stages (R474) -/

/-- STAGE_BOOT_ROM_DONE. -/
def execStageBootRomDone (s : State) : Host.Outcome State Fault Refusal :=
  s.onDev (fun d => if d.atStage 1 then
      { d with tr := { d.tr with romMeas := Config.romDigest }, c := { d.c with stage := 2 } }
    else d)

/-- Whether every sensor reads below 85 °C (R386): there must be readings. -/
def Gov.cool (g : Gov) : Bool :=
  !g.dieT.isEmpty && g.dieT.all (fun l => l.all (fun t => t < 170)) && g.stackT.all (fun t => t < 170)

/-- The device proceeds to BIST once its firmware runs, after a trip once every sensor reads below 85 °C; the governor starts there
(R381, R386, R474). With no run started it gates every cell (R388). -/
def Dev.toBist (d : Dev) : Dev :=
  if d.c.devState = .starting ∧ d.c.stage = 2 ∧ d.tr.runImage.isSome ∧ (d.c.tripWait = false ∨ d.gov.cool = true) then
    { d with
      gov := { Gov.reset with
        active := true, trips := d.gov.trips, dieT := d.gov.dieT, stackT := d.gov.stackT, current := d.gov.current },
      c := { d.c with stage := 3, tripWait := false, gated := List.range 576 } }
  else d

/-- An image begins to run (R434), and the device proceeds to BIST. -/
def Dev.boot (d : Dev) (i : Image) (fallback : Bool) : Dev :=
  ({ d with tr := { d.tr with
    runImage := some i, fallback := fallback, fwMeas := Config.sha384 (i.hdr ++ i.bytes) } } : Dev).toBist

/-- No image begins to run; where neither slot verifies, the device takes only what R451 lists. -/
def Dev.unbooted (d : Dev) : Dev :=
  { d with c := { d.c with noImage := !(d.tr.slotOk d.tr.slotA) && !(d.tr.slotOk d.tr.slotB) } }

/-- STAGE_FW_VERIFY_DONE: a staged image that fails is discarded, one that verifies waits for its copy. The start is counted
until ready clears it; at the third the fallback boots if it verifies; with no bootable image the stage stays (R450, R451). -/
def execStageFwVerifyDone (s : State) : Host.Outcome State Fault Refusal :=
  s.onDev (fun d =>
    if d.atStage 2 && d.tr.runImage.isNone then
      if d.tr.upd = .staged ∧ d.tr.verifies d.tr.stage then { d with tr := { d.tr with copying := true } }
      else
        let t := { d.tr with
          upd := if d.tr.upd = .staged then .idle else d.tr.upd, fails := min 3 (d.tr.fails + 1), copying := false }
        let d1 := { d with tr := t }
        match t.active, t.spare with
        | some a, b =>
          if t.fails = 3 ∧ t.slotOk b then (match b with | some i => d1.boot i true | none => d1.unbooted)
          else if t.verifies a then d1.boot a false else d1.unbooted
        | none, some b => if t.fails = 3 ∧ t.verifies b then d1.boot b true else d1.unbooted
        | none, none => d1.unbooted
    else d)

/-- FW_STAGED_COPY_DONE: the staged image stands in the inactive slot, which becomes the active one. -/
def execFwStagedCopyDone (s : State) : Host.Outcome State Fault Refusal :=
  s.onDev (fun d =>
    if d.atStage 2 && d.tr.runImage.isNone && d.tr.upd = .staged && d.tr.verifies d.tr.stage then
      { d with tr := { d.tr with
          slotA := if d.tr.activeB then some d.tr.stage else d.tr.slotA,
          slotB := if d.tr.activeB then d.tr.slotB else some d.tr.stage,
          activeB := !d.tr.activeB, upd := .idle, copying := false, fails := 0 } }
    else d)

/-- BIST's registers of a unit (R472, R473): the signature it wrote, the one expected, done, passed, with memory or not. -/
def Core.bistRegs (c : Core) (u : SUnit) (pass memory : Bool) : Core :=
  let sig (h : Nat) : Nat := (Config.bistSig u.base h + b2n (!pass)) % 2 ^ 64
  ((((c.rset (u.base + 0x210) (sig 0)).rset (u.base + 0x218) (Config.bistSig u.base 1 % 2 ^ 64)).rset (u.base + 0x220)
    (Config.bistSig u.base 0 % 2 ^ 64)).rset (u.base + 0x228) (Config.bistSig u.base 1 % 2 ^ 64)).rset (u.base + 0x230)
    (1 + 2 * b2n pass + 4 * b2n memory)

/-- A die with its cells, windows and links, and with the memory test its stacks (R471). Standby windows take no part (R14). -/
def bistDie (memory : Bool) (d : Nat) : List SUnit :=
  [SUnit.die d] ++ (if isTensor d then (List.range 16).map (fun i => SUnit.cell (16 * tensorIdx d + i)) else []) ++
  ((List.range 16).flatMap (fun k => (List.range 8).filterMap (fun i =>
    if subExists d k i && !((SUnit.sub d k i).standby) then some (SUnit.sub d k i) else none))) ++
  ((List.range 36).filterMap (fun l => if linkDie l = d then some (SUnit.link l) else none)) ++
  (if memory then (List.range 24).filterMap (fun m => if portDie m = d then some (SUnit.stack m) else none) else [])

/-- A region: its dies, with the crossbar and arbiter as the region block. -/
def bistRegion (memory : Bool) (r : Nat) : List SUnit :=
  [SUnit.region r] ++ (List.range 16).flatMap (fun i => bistDie memory (16 * r + i))

/-- Every unit that BIST covers at a scope (R471): 0 cell, 1 die, 2 region, 3 chip. -/
def bistUnits (scope idx : Nat) (memory : Bool) : List SUnit :=
  match scope with
  | 0 => [SUnit.cell idx]
  | 1 => bistDie memory idx
  | 2 => bistRegion memory idx
  | _ => [SUnit.chip] ++ (List.range 4).flatMap (bistRegion memory)

/-- BIST's outcome for the units tested (R472): signatures compared, and each that fails counted as a lasting classification. -/
def Core.bistOutcome (c : Core) (us failed : List SUnit) (memory : Bool) : Core :=
  let c1 := us.foldl (fun c u => (c.bistRegs u (!(failed.contains u)) memory).rset (u.base + 0x200) (c.rget (u.base + 0x200) / 16 * 16)) c
  failed.foldl (fun c u => (c.bump (u.base + 0x118) 32 1).countFail u) c1

/-- STAGE_BIST_DONE. -/
def execStageBistDone (failed : List SUnit) (s : State) : Host.Outcome State Fault Refusal :=
  s.guardDev (failed.all SUnit.valid) (fun d =>
    if d.atStage 3 then
      let bad := (bistUnits 3 0 false).filter (fun u => failed.contains u)
      let c1 := d.c.bistOutcome (bistUnits 3 0 false) bad false
      { d with c := { c1 with stage := 4, stageFail := c1.stageFail ++ bad, sram := [],
                              sramEpoch := c1.sramEpoch + 1 } }
    else d)

/-- STAGE_HBM_TRAINING_DONE: the arrays have been tested; each stack's scrub begins at plot 0 (R249); links begin to train. -/
def execStageHbmTrainingDone (failed : List Nat) (s : State) : Host.Outcome State Fault Refusal :=
  s.guardDev (failed.all (fun m => m < 24)) (fun d =>
    if d.atStage 4 then
      { d with c := { d.c with
          stage := 5, stageFail := d.c.stageFail ++ failed.map SUnit.stack, hbm := [], words := [], scrub := [],
          links := (List.range 36).map (fun l => (l, { d.c.link l with
            st := if (d.c.link l).enabled then .training else .disabled })) } }
    else d)

/-- STAGE_LINK_TRAINING_DONE: the links of the list, and every link without its reference, failed their first attempt. -/
def execStageLinkTrainingDone (failed : List Nat) (s : State) : Host.Outcome State Fault Refusal :=
  s.guardDev (failed.all (fun l => l < 36)) (fun d =>
    if d.atStage 5 && (!d.pw.linkRef || d.c.links.all (fun e => e.2.st ≠ .training || failed.contains e.1)) then
      { d with c := { d.c with
          stage := 6,
          links := d.c.links.map (fun (e : Nat × Link) => (e.1,
            if e.2.st = .training ∨ (¬ d.pw.linkRef ∧ e.2.enabled) then { e.2 with st := .down } else e.2)) } }
    else d)

/-- Units that the failure counts fence (R468): not D00, region 0, or a unit whose fence would escalate to the chip. -/
def Core.countFences (c : Core) : List SUnit :=
  ((c.failCnt.filter (fun e => 1 ≤ e.2)).map Prod.fst).filter (fun u =>
    u ≠ .die 0 && u ≠ .region 0 && u ≠ .chip &&
    !(({ c with fenced := [] } : Core).addFences [fenceTarget u]).escalate.isFenced .chip)

/-- Whether the fences that the counts alone call for would leave fewer than three regions (R468): then none is applied. -/
def Core.setAside (c : Core) : Bool :=
  (c.countFences.map fenceTarget).isEmpty = false &&
  decide (((({ c with fenced := [] } : Core).addFences (c.countFences.map fenceTarget)).escalate).usableRegions.length < 3)

/-- Stage 6 on the core: the fences of stages 3 to 5 and of the counts, DEV_NUM invalid. -/
def Core.localMap (c : Core) : Core :=
  let fences := c.stageFail ++ (if c.setAside then [] else c.countFences)
  let c1 := ({ c with stageFail := [], dnValid := false, devNum := 0 } : Core).applyService fences [] []
  if c.setAside then c1.devEvent 7 else c1

/-- Ready (R450, R474): the first ready of an image sets the floor fuses and clears the boot failure count. -/
def Dev.becomeReady (d : Dev) : Dev :=
  { d with
    c := ({ d.c with devState := .ready, stage := 7 } : Core).gate,
    tr := { d.tr with
      fails := 0,
      svnFloor := (match d.tr.runImage with | some i => max d.tr.svnFloor (i.field 0x0E 2) | none => d.tr.svnFloor) } }

/-- STAGE_LOCAL_MAPPING_DONE: ready, or stopped where region 0 or three regions are not left (R474, R475). -/
def execStageLocalMappingDone (s : State) : Host.Outcome State Fault Refusal :=
  s.onDev (fun d =>
    if d.atStage 6 then
      (if d.c.localMap.devState = .stopped then { d with c := d.c.localMap } else ({ d with c := d.c.localMap } : Dev).becomeReady)
    else d)

/-! ## Time (R258, R482) -/

/-- By how many units the timer of a region starts after region 0's: free, and never the same for two regions, so that no two are ever
aligned (R258). -/
def lagOf (r : Nat) : Nat := if r = 0 then 0 else 4 * (Config.timerLag r % 2 ^ 32) + r

/-- One tick of 10 ns of the four interval timers while the auxiliary rail is up; at 20 s of it the hold-up store has
reached 80 %. -/
def Dev.tick (d : Dev) : Dev :=
  if d.pw.auxUp then
    let c := { d.c with timers := (List.range 4).map (fun r =>
      (r, if d.c.now r = 0 ∧ d.c.now 0 < lagOf r then 0 else (d.c.now r + 1) % 2 ^ 64)) }
    { d with c := c, pw := { d.pw with holdup := if 2000000000 ≤ c.now 0 then max d.pw.holdup 80 else d.pw.holdup } }
  else d

end Sys2Proof.Machine
end

