-- ==== Sys2Proof/Machine/HostIf.lean ====
section
/-!
DEFINITION. The command aperture, chains, and the device and context commands (R399 to R429).
-/
namespace Sys2Proof.Machine
open Sys2Proof

/-! ## Packets from bytes (R404 to R408) -/

/-- The packet that 64 + H_PLEN bytes spell. -/
def parsePacket (b : List Byte) (slot : Nat) (fetched : Bool) : Packet :=
  let f := fieldAt b
  { opcode := BitVec.ofNat 16 (f 0 2), flags := BitVec.ofNat 16 (f 2 2), ctx := BitVec.ofNat 8 (f 4 1),
    vec := BitVec.ofNat 8 (f 5 1), rsv := decide (f 6 2 ≠ 0 ∨ f 0x0E 2 ≠ 0 ∨ f 0x20 32 ≠ 0), seq := BitVec.ofNat 32 (f 8 4),
    plen := BitVec.ofNat 16 (f 0x0C 2), reply := BitVec.ofNat 64 (f 0x10 8), nxt := BitVec.ofNat 64 (f 0x18 8),
    payload := (List.range (f 0x0C 2 / 8)).map (fun i => BitVec.ofNat 64 (f (64 + 8 * i) 8)), slot := slot, fetched := fetched }

/-- Whether a seal word seals these packet bytes (R405, R406). -/
def sealOk (b : List Byte) (plen word : Nat) : Bool :=
  plen ≤ 4096 && word % 2 ^ 32 = fieldAt b 8 4 && word / 2 ^ 48 = (crc16 (b.take (64 + plen))).toNat

/-- Bytes of the aperture as they stand. -/
def Core.slotBytes (c : Core) (a len : Nat) : List Byte := mreadF c.slotMem Config.apertureByte a len

/-- A write lands in a free slot: a seal takes the packet or is counted as failed (R406). -/
def Core.slotWrite (c : Core) (off : Nat) (data : List Byte) : Core :=
  let slot := off / 0x2000
  let a := slot * 0x2000
  let c1 := { c with slotMem := mputs c.slotMem off data }
  let plen := ofLe (c1.slotBytes (a + 0x0C) 2)
  let so := a + 64 + plen
  if plen % 8 = 0 ∧ 64 + plen + 8 ≤ 0x2000 ∧ off ≤ so ∧ so + 8 ≤ off + data.length then
    let word := ofLe (c1.slotBytes so 8)
    if word / 2 ^ 32 % 2 ^ 16 = 0xA55A then
      let b := c1.slotBytes a (64 + plen)
      if sealOk b plen word then
        let p := parsePacket b slot false
        if c.devState = .stopped ∧ p.opcode.toNat ≠ 0x103 then c1
        else { c1 with busy := kset c1.busy slot p }.takePkt p
      else (c1.bump 0x54C 32 1).devEvent 0
    else c1
  else c1

/-- APERTURE_WRITE: a write into a busy slot is dropped and counted (R407). A write lies within one 4 KiB page. -/
def execApertureWrite (off : Nat) (data : List Byte) (s : State) : Host.Outcome State Fault Refusal :=
  s.guard (data ≠ [] && off + data.length ≤ 0x400000 && off / 0x1000 = (off + data.length - 1) / 0x1000) (fun d =>
    if !d.portUp then d.c
    else if (kget d.c.busy (off / 0x2000)).isSome then (d.c.bump 0x550 32 1).devEvent 1
    else d.c.slotWrite off data)

/-- SLOT_COPY_DONE (R402). -/
def execSlotCopyDone (slot : Nat) (s : State) : Host.Outcome State Fault Refusal :=
  s.guard (slot < 512) (fun d => { d.c with busy := kdel d.c.busy slot })

/-- Whether fetched bytes pass the checks of R406. -/
def fetchOk (b : List Byte) : Bool :=
  let plen := fieldAt b 0x0C 2
  plen % 8 = 0 && 64 + plen + 8 ≤ b.length && fieldAt b (64 + plen + 4) 2 = 0xA55A && sealOk b plen (fieldAt b (64 + plen) 8)

/-- A held reply with R_FLAGS[1] set. -/
def chainEndedReply (r : List Byte) : List Byte := modAt r 9 (fun b => b ||| 2)

/-- CHAIN_FETCH_DONE (R408, R413): fetch number n of those in progress; nothing where there is none. -/
def execChainFetchDone (n : Nat) (data : Option (List Byte)) (s : State) : Host.Outcome State Fault Refusal :=
  s.onCore (fun d =>
    match (d.c.chains[n]?).bind (fun x => if x.ended then none else some x) with
    | none => d.c
    | some x =>
      let good := match data with | some b => fetchOk b | none => false
      if good then
        let b := data.getD []
        let c1 := { d.c with chains := dropAt d.c.chains n }.takePkt (parsePacket b 0 true)
        match x.held with | some r => c1.writeReply x.pkt r | none => c1
      else
        match x.held with
        | some r => ({ d.c with chains := dropAt d.c.chains n }.devEvent 2).writeReply x.pkt (chainEndedReply r)
        | none => { d.c with chains := modAt d.c.chains n (fun x => { x with ended := true }) }.devEvent 2)

/-! ## Device records (R417, R420) -/

/-- "GNW-T1536-LQ" padded with zeros. -/
def partNumber : List Byte :=
  [0x47, 0x4E, 0x57, 0x2D, 0x54, 0x31, 0x35, 0x33, 0x36, 0x2D, 0x4C, 0x51, 0, 0, 0, 0]

/-- The DEV_STATE register (R417). -/
def Core.devStateReg (c : Core) : Nat :=
  (match c.devState with | .starting => 0 | .ready => 1 | .stopped => 2 | .testing => 3) + 256 * (c.stage % 256)

/-- DEV_NUM (R29) and WINDOW_CTX (R426). -/
def Core.devNumReg (c : Core) : Nat := if c.dnValid then 2 ^ 15 + c.devNum else 0
def Core.windowReg (c : Core) : Nat := match c.window with | some (n, _) => 16 + n | none => 0

/-- Usable cells, links and stacks. -/
def Core.usableCellCount (c : Core) : Nat := ((List.range 576).filter (fun n => c.usable (.cell n))).length
def Core.usableLinks (c : Core) : Nat := mask 36 (fun l => c.linkUp l)
def Core.usableStacks (c : Core) : Nat := mask 24 c.stackOk

/-- A 16-bit mask of contexts (DEDUCED: 16 contexts, 16 bits). -/
def Core.ctxMask (c : Core) (f : Ctx → Bool) : Nat := mask 16 (fun n => match c.ctx? n with | some x => f x | none => false)

/-- The DEV_INFO record. -/
def Dev.infoRecord (d : Dev) : List Byte :=
  partNumber ++ leBytes 0xA1 8 ++ leBytes Config.serial 8 ++ leBytes d.tr.fwVersion 4 ++ leBytes Config.romVersion 4 ++
  leBytes Config.vendorId 2 ++ leBytes Config.pcieRate 1 ++ leBytes Config.pcieWidth 1 ++ zeros 4 ++
  leBytes d.c.usableCellCount 2 ++ leBytes d.c.usableStacks 3 ++ zeros 3 ++ leBytes d.c.usableLinks 8

/-- What the function reports of itself in configuration space (R395, R396): class code, Device ID, Subsystem ID, Vendor ID, Subsystem
Vendor ID, Device Serial Number. No row reads configuration space. -/
def pciIds : Nat × Nat × Nat × Nat × Nat × Nat :=
  (0x120000, 0x1536, 0x00A1, Config.vendorId % 2 ^ 16, Config.vendorId % 2 ^ 16, Config.serial % 2 ^ 64)

/-- The DEV_STATUS record. -/
def Dev.statusRecord (d : Dev) : List Byte :=
  leBytes d.c.devStateReg 8 ++
  leBytes (d.c.ctxMask (fun _ => true)) 2 ++ leBytes (d.c.ctxMask (fun x => x.run.isSome)) 2 ++
  leBytes (d.c.ctxMask (fun x => x.job.isSome)) 2 ++ leBytes (d.c.ctxMask (fun x => x.stopped)) 2 ++
  leBytes (d.c.ctxMask (fun x => x.conf)) 2 ++
  leBytes (d.c.ctxMask (fun x => match x.run with | some r => r.halted | none => false)) 2 ++ leBytes d.c.windowReg 1 ++ zeros 3 ++
  leBytes d.c.devNumReg 4 ++ leBytes d.c.inflight 4 ++
  leBytes d.gov.inForce 1 ++ leBytes d.gov.cls 1 ++ zeros 6 ++
  leBytes d.c.fenceGen 4 ++ zeros 4 ++ leBytes d.c.usableLinks 8 ++ leBytes (d.c.now 0) 8

/-! ## Device commands (R419) -/

/-- DEV_INFO. -/
def execDevInfo (p : Packet) (s : State) : Host.Outcome State Fault Refusal :=
  hostCmd (Cmd.plain 0x101 false [64]) p s (fun d => d.c.recordCmd p 0 d.infoRecord [])

/-- DEV_STATUS. -/
def execDevStatus (p : Packet) (s : State) : Host.Outcome State Fault Refusal :=
  hostCmd (Cmd.plain 0x102 false [64]) p s (fun d => d.c.recordCmd p 0 d.statusRecord [])

/-- DEV_RESET. -/
def execDevReset (p : Packet) (s : State) : Host.Outcome State Fault Refusal :=
  hostCmd (Cmd.plain 0x103 false [1]) p s (fun d =>
    if d.c.anyJob ∧ p.arg 0 = 0 then d.c.finish p 0x101 [] else { d.c.finish p 0 [] with resetReq := true })

/-- DEV_EVENTS: the register's value returned, and cleared as a read clears it. -/
def execDevEvents (p : Packet) (s : State) : Host.Outcome State Fault Refusal :=
  hostCmd (Cmd.plain 0x104 false []) p s (fun d => { d.c with event := 0 }.finish p 0 [d.c.event.toNat])

/-! ## Contexts (R400, R421 to R424) -/

/-- CTX_CREATE. -/
def execCtxCreate (p : Packet) (s : State) : Host.Outcome State Fault Refusal :=
  hostCmd (Cmd.plain 0x201 true [1]) p s (fun d =>
    if (d.c.ctx? p.ctxNum).isSome then d.c.finish p 0x260 []
    else if p.arg 0 = 1 ∧ ¬ d.tr.ideOk then d.c.finish p 0x262 []
    else ({ d.c with ctxs := kset d.c.ctxs p.ctxNum (Ctx.fresh (p.arg 0 = 1)) }).finish p 0 [])

/-- Everything a context owns is freed (R423): its other waiting commands reply 0x0007, its objects' generations are
counted, its frames unmapped, its page copies dropped, the window cleared if it held it. -/
def Core.dropCtx (c : Core) (n : Nat) : Core :=
  match c.ctx? n with
  | none => c
  | some x =>
    let c1 := c.replyWaiting (fun w => w.pkt.ctxv && w.pkt.ctxNum = n) 7 []
    let c2 := (keys x.objs).foldl (fun c i => c.freeNow n i) c1
    let c3 := { c2 with
      ctxs := kdel c2.ctxs n, frames := c2.frames.filter (fun e => e.2.ctx ≠ n),
      window := (match c2.window with | some (k, b) => if k = n then none else some (k, b) | none => none),
      requests := c2.requests.filter (fun e => e.2.ctx ≠ n), copies := c2.copies.filter (fun k => k.ctx ≠ n),
      pendJob := kdel c2.pendJob n }
    c3.sweepRetire.servePool

/-- CTX_DESTROY: with a run started it waits for the settle point at which the run stops. -/
def execCtxDestroy (p : Packet) (s : State) : Host.Outcome State Fault Refusal :=
  hostCmd (Cmd.plain 0x202 true []) p s (fun d =>
    match d.c.ctx? p.ctxNum with
    | none => d.c.finish p 4 []
    | some x =>
      if x.job.isSome then d.c.finish p 0x261 []
      else if x.run.isSome then (d.c.modRun p.ctxNum (fun r => { r with stopReq := true })).wait p .destroy
      else (d.c.dropCtx p.ctxNum).finish p 0 [])

/-- CTX_LIST. -/
def execCtxList (p : Packet) (s : State) : Host.Outcome State Fault Refusal :=
  hostCmd (Cmd.plain 0x203 true [64]) p s (fun d => d.c.recordCmd p 0 d.statusRecord [])

/-- WINDOW_SET: enable 0 clears the window if this context holds it. -/
def execWindowSet (p : Packet) (s : State) : Host.Outcome State Fault Refusal :=
  hostCmd (Cmd.plain 0x204 true [64, 1]) p s (fun d =>
    match d.c.ctx? p.ctxNum with
    | none => d.c.finish p 4 []
    | some x =>
      if x.conf ∨ p.arg 0 % 2 ^ 30 ≠ 0 ∨ 2 ^ 45 ≤ p.arg 0 then d.c.finish p 0x263 []
      else if p.arg 1 = 1 then { d.c with window := some (p.ctxNum, p.arg 0) }.finish p 0 []
      else { d.c with window := (match d.c.window with
          | some (k, b) => if k = p.ctxNum then none else some (k, b)
          | none => none) }.finish p 0 [])

end Sys2Proof.Machine
end

