-- ==== Sys2Proof/Machine/Mapping.lean ====
section
/-!
DEFINITION. The mapping and the fabric commands: link parameters and control, the routing table, job records, trees and dispatch
plans (R291, R292, R349, R357, R358, R363, R367 to R370, R373, R374, R443).
-/
namespace Sys2Proof.Machine
open Sys2Proof

/-! ## Links (R373) -/

/-- LINK_PARAMS. -/
def execLinkParams (p : Packet) (s : State) : Host.Outcome State Fault Refusal :=
  hostCmd (Cmd.plain 0x401 false [64, 64]) p s (fun d =>
    if p.arg 0 < 1 ∨ 65535 < p.arg 0 ∨ p.arg 1 < 10 ∨ 65535 < p.arg 1 then d.c.finish p 0x480 []
    else if d.c.anyRun then { d.c with pendLink := some (p.arg 0, p.arg 1) }.finish p 0 []
    else { d.c with escUs := p.arg 0, reqUs := p.arg 1 }.finish p 0 [])

/-- A LINK_CTL packet under the row of its action; an action beyond the table is refused under any of them. -/
def linkCtl (action : Nat) (p : Packet) (s : State) (body : Dev → Core) : Host.Outcome State Fault Refusal :=
  if p.opcode = 0x408 ∧ p.arg 1 ≤ 2 ∧ p.arg 1 ≠ action then .fault .badOperand
  else hostCmd (Cmd.plain 0x408 false [64, 64]) p s (fun d =>
    if 36 ≤ p.arg 0 ∨ 3 ≤ p.arg 1 then d.c.finish p 0x480 [] else (body d).finish p 0 [])

/-- LINK_CTL with action 0: a disabled link trains again; one that a fence holds stays down (R466). -/
def execLinkCtlEnable (p : Packet) (s : State) : Host.Outcome State Fault Refusal :=
  linkCtl 0 p s (fun d =>
    let k := d.c.link (p.arg 0)
    if !(d.c.usable (.link (p.arg 0))) then d.c.modLink (p.arg 0) (fun k => { k with enabled := true })
    else d.c.modLink (p.arg 0) (fun q => { q with enabled := true, drain := false, st := if k.st = .disabled then .training else k.st }))

/-- LINK_CTL with action 1: its flits drain, then it stops. -/
def execLinkCtlDisable (p : Packet) (s : State) : Host.Outcome State Fault Refusal :=
  linkCtl 1 p s (fun d =>
    let k := d.c.link (p.arg 0)
    let c1 := d.c.modLink (p.arg 0) (fun k => { k with enabled := false })
    if k.st = .up ∨ k.st = .retraining then (c1.modLink (p.arg 0) (fun k => { k with drain := true })).checkDrain (p.arg 0)
    else c1.modLink (p.arg 0) (fun k => { k with st := .disabled }))

/-- LINK_CTL with action 2. -/
def execLinkCtlRetrain (p : Packet) (s : State) : Host.Outcome State Fault Refusal :=
  linkCtl 2 p s (fun d => d.c.retrain (p.arg 0))

/-! ## The routing table (R335, R349, R368, R369) -/

/-- One routing entry: links that exist, the reserved bit clear, none for the device itself. -/
def routeEntryOk (self dev e : Nat) : Bool :=
  !(bit e 30) && (!(bit e 31) || (dev ≠ self && bits e 29 24 < 36 &&
    [bits e 5 0, bits e 11 6, bits e 17 12, bits e 23 18].all (fun l => l < 36 || l = 0x3F)))

/-- A mapping takes effect: the table, DEV_NUM, and one retrain of each link that a device without a number had trained. -/
def Core.applyMap (c : Core) (num : Nat) (es : List Nat) : Core :=
  let fresh := !c.dnValid || c.devNum ≠ num
  let c1 := { c with
    devNum := num, dnValid := true, pendMap := none,
    routes := (List.range es.length).filterMap (fun i => if es.getD i 0 = 0 then none else some (i, es.getD i 0)) }
  (if fresh then (List.range 36).foldl (fun c l => c.retrain l) c1 else c1).pump

/-- Whether every bound job is in recovery. -/
def Core.allRecover (c : Core) : Bool :=
  c.ctxs.all (fun e => match e.2.job with | some j => j.recovery | none => true)

/-- FABRIC_MAP. The handle names its own context. -/
def execFabricMap (p : Packet) (s : State) : Host.Outcome State Fault Refusal :=
  hostCmd (Cmd.plain 0x402 false [64, 64]) p s (fun d =>
    if 2 ^ 15 ≤ p.arg 0 then d.c.finish p 0x480 []
    else if !d.c.allRecover then d.c.finish p 0x482 []
    else
     let d := { d with c := d.c.checkObj (p.arg 1 / 2 ^ 28) (p.arg 1) 0 131072 }
     match d.c.byHandle (p.arg 1 / 2 ^ 28) (p.arg 1) 0 131072 0x481 with
      | .error e => d.c.finish p e []
      | .ok b =>
        let es := (List.range 32768).map (fun i => fieldAt b (4 * i) 4)
        if !((List.range 32768).all (fun i => routeEntryOk (p.arg 0) i (es.getD i 0))) then d.c.finish p 0x481 []
        else if d.c.anyRun then ({ d.c with pendMap := some (p.arg 0, es) }.redraw).finish p 0 []
        else (d.c.applyMap (p.arg 0) es).finish p 0 [])

/-! ## Job records (R367, R368, R443) -/

/-- Devices that a job record counts: 0 stands for 32,768. -/
def jobDevs (b : List Byte) : Nat := if fieldAt b 4 2 = 0 then 32768 else fieldAt b 4 2

/-- R367's layout and R443's rule. -/
def Ctx.jobRecordOk (x : Ctx) (b : List Byte) : Bool :=
  fieldAt b 0 2 < 2 ^ 12 && fieldAt b 2 2 < 2 && fieldAt b 4 2 ≤ 32768 && fieldAt b 8 2 < 2 ^ 15 && fieldAt b 0x0A 1 ≤ 15 &&
  fieldAt b 0x0B 1 ≤ 8 && fieldAt b 0x0C 4 = 0 && (List.range 15).all (fun i => fieldAt b (0x10 + 2 * i) 2 < 2 ^ 15) &&
  fieldAt b 0x2E 2 = 0 && (List.range 8).all (fun i => fieldAt b (0x30 + 2 * i) 2 < 2 ^ 15) && fieldAt b 0x40 8 < 2 ^ 45 &&
  fieldAt b 0x48 8 = 0 && fieldAt b 0x50 48 = 0 && x.inFloor (fieldAt b 0x40 8) (2 * jobDevs b) && (!x.conf || fieldAt b 2 2 = 1)

/-- A job record in force, heard from every neighbour just now. -/
def Core.jobOf (c : Core) (b : List Byte) (pkt : Option Packet) : Job :=
  let root := bit (fieldAt b 6 2) 15
  let parent := fieldAt b 6 2 % 2 ^ 15
  let kids := (List.range (fieldAt b 0x0A 1)).map (fun i => fieldAt b (0x10 + 2 * i) 2)
  { job := fieldAt b 0 2, enc := fieldAt b 2 2 = 1, ndev := jobDevs b, isRoot := root, parent := parent, root := fieldAt b 8 2, children := kids,
    succ := (List.range (fieldAt b 0x0B 1)).map (fun i => fieldAt b (0x30 + 2 * i) 2),
    devs := (List.range (jobDevs b)).map (fun i => fieldAt b (128 + 2 * i) 2 % 2 ^ 15), pkt := pkt, recovery := false, lost := [],
    actingRoot := false, anyLoss := false, heard := ((if root then [] else [parent]) ++ kids).map (fun d => (d, c.now 0)), unbind := false }

/-- The HBM words that reading a job record by handle checks (R248): the record, and its device list. -/
def Core.checkJob (c : Core) (n h : Nat) : Core :=
  let c1 := c.checkObj n h 0 128
  match c1.byHandle n h 0 128 0x481 with
  | .ok b => (c1.hbmRead n (fieldAt b 0x40 8) (2 * jobDevs b)).1
  | .error _ => c1

/-- A job record by handle, with its device list behind it. -/
def Core.readJob (c : Core) (n h : Nat) : Except Nat (List Byte) :=
  match c.byHandle n h 0 128 0x481 with
  | .error e => .error e
  | .ok b =>
    match c.ctx? n with
    | none => .error 4
    | some x =>
      if !(x.jobRecordOk b) then .error 0x484
      else match c.readBytes n (fieldAt b 0x40 8) (2 * jobDevs b) with
        | .ok l => .ok (b ++ l)
        | .error k => .error (if k = 5 ∨ k = 7 then 9 else 0x484)

/-- JOB_BIND. -/
def execJobBind (p : Packet) (s : State) : Host.Outcome State Fault Refusal :=
  hostCmd (Cmd.plain 0x403 true [64]) p s (fun d =>
    let n := p.ctxNum
    let d := { d with c := d.c.checkJob n (p.arg 0) }
    match d.c.readJob n (p.arg 0) with
    | .error e => d.c.finish p e []
    | .ok b =>
      if (d.c.job? n).isSome || (d.c.jobCtx (fieldAt b 0 2)).isSome then d.c.finish p 0x483 []
      else ((d.c.modCtx n (fun x => { x with job := some (d.c.jobOf b (some p)), vnode := VNode.fresh })).wait p .bind))

/-- JOB_UNBIND. -/
def execJobUnbind (p : Packet) (s : State) : Host.Outcome State Fault Refusal :=
  hostCmd (Cmd.plain 0x404 true []) p s (fun d =>
    let n := p.ctxNum
    if (d.c.job? n).isNone then d.c.finish p 0x487 []
    else if d.c.runStarted n then (d.c.modJob n (fun j => { j with unbind := true })).wait p .unbind
    else (d.c.unbind n).finish p 0 [])

/-- A new job record takes effect and ends recovery (R368). -/
def Core.applyJob (c : Core) (n : Nat) (b : List Byte) : Core :=
  c.modCtx n (fun x => match x.job with
    | some j => { x with
        job := some { c.jobOf b j.pkt with unbind := j.unbind },
        vnode := VNode.fresh }
    | none => x)

/-- JOB_REMAP. -/
def execJobRemap (p : Packet) (s : State) : Host.Outcome State Fault Refusal :=
  hostCmd (Cmd.plain 0x405 true [64]) p s (fun d =>
    let n := p.ctxNum
    if (d.c.job? n).isNone then d.c.finish p 0x487 []
    else if !d.c.allRecover then d.c.finish p 0x482 []
    else
     let d := { d with c := d.c.checkJob n (p.arg 0) }
     match d.c.readJob n (p.arg 0) with
      | .error e => d.c.finish p e []
      | .ok b =>
        if (match d.c.jobCtx (fieldAt b 0 2) with | some m => decide (m ≠ n) | none => false) then d.c.finish p 0x483 []
        else if d.c.anyRun then (({ d.c with pendJob := kset d.c.pendJob n b }).redraw).finish p 0 []
        else (d.c.applyJob n b).finish p 0 [])

/-! ## Trees and dispatch plans (R370) -/

/-- TREE_LOAD. -/
def execTreeLoad (p : Packet) (s : State) : Host.Outcome State Fault Refusal :=
  hostCmd (Cmd.plain 0x406 true [64, 64, 64]) p s (fun d =>
    if (d.c.job? p.ctxNum).isNone then d.c.finish p 0x487 []
    else d.c.loadTable p tTree 16 4096 1 (p.arg 0) (p.arg 1) (p.arg 2) { beyond := 0x480, handle := 0x481, bad := 0x485 }
      (fun _ _ e => d.c.treeSetOk p.ctxNum e))

/-- DISPATCH_LOAD. -/
def execDispatchLoad (p : Packet) (s : State) : Host.Outcome State Fault Refusal :=
  hostCmd (Cmd.plain 0x407 true [64, 64, 64]) p s (fun d =>
    if (d.c.job? p.ctxNum).isNone then d.c.finish p 0x487 []
    else d.c.loadTable p tDisp 128 4096 1 (p.arg 0) (p.arg 1) (p.arg 2) { beyond := 0x480, handle := 0x481, bad := 0x486 }
      (fun x _ e => .ok (x.dispatchOk e)))

end Sys2Proof.Machine
end

