-- ==== Sys2Proof/Machine/Settle.lean ====
section
/-!
DEFINITION. The settle point and the end of a run: what must have drained, the order in which the device then clears, latches,
applies and moves on, and the passing of the sequencer to another context (R46, R67, R68, R77, R131, R288 to R293, R301, R302,
R465 to R469, R491).
-/
namespace Sys2Proof.Machine
open Sys2Proof

/-! ## What must have drained (R290) -/

/-- The shard register entries whose push the settle point still awaits (R289): under apply, the replicas of owners not lost. -/
def Core.pushesAwaited (c : Core) (n : Nat) : List Nat :=
  match c.ctx? n with
  | none => []
  | some x =>
    match x.run with
    | none => []
    | some r =>
      if (match r.step.verdict with | some v => decide (v.decision = 0) | none => false) then
        let lost := match x.job with | some j => j.lost | none => []
        ((x.shards.filter (fun e => shRole e.2 = 2 && !(lost.contains (shOwner e.2)))).map Prod.fst).filter
          (fun e => !(r.step.pushLanded.contains e))
      else []

/-- Whether everything has drained at the settle record of the running context (orders 2 to 6 and the owed tests of R465). -/
def Core.drained (c : Core) (n : Nat) : Bool :=
  match c.ctx? n with
  | none => false
  | some x =>
    match x.run with
    | none => false
    | some r =>
      r.settling && !r.halted && c.cols.all (fun e => e.2.run.isNone && e.2.queue.isEmpty) &&
      (x.job.isNone || !(r.step.contributed || r.step.abandon.isSome) || r.step.verdict.isSome) &&
      (c.pushesAwaited n).isEmpty && c.silt.isEmpty && c.engines.all (fun e => e.2.pass.isNone && !e.2.stopping) &&
      x.pages.all (fun e => e.2.st ≠ .copying && e.2.pins = 0) && c.copies.all (fun k => k.ctx ≠ n) && c.owed.isEmpty

/-! ## Orders 6 to 9 -/

/-- The spill object's plots become empty: physical plots free, frames back on the spill list (R268). -/
def Core.emptySpill (c : Core) (n : Nat) : Core :=
  match (c.ctx? n).bind (fun x => x.objOf n x.spill) with
  | none => c
  | some (i, o) =>
    let c1 := o.plots.foldl (fun c e => match e.frame with | some f => c.holdFrame f false | none => c) c
    c1.modObj n i (fun o => { o with want := [], st := .host, plots := o.plots.map (fun _ => PlotEnt.blank) })

/-- Everything a step leaves behind in the units and the context's nodes is dropped (R46, R70, R88, R154, R176, R265, R266). -/
def Core.clearStep (c : Core) (n : Nat) : Core :=
  let c1 := (c.clearUnits.emptySpill n).modCtx n (fun x => { x with
    nodes := [], redEvs := [], cbuf := [], disps := [], ledger := [], stashHigh := 0 })
  { c1 with lineCnt := [], sram := [], sramEpoch := c1.sramEpoch + 1, corrs := [] }

/-- What a step did to the loss scale (R301): true for an applied step, false for a skipped or abandoned one. -/
def StepSt.outcome (s : StepSt) : Option Bool :=
  if s.abandon.isSome then some false
  else match s.verdict with
    | some v => some (decide (v.decision = 0))
    | none => none

/-- The loss-scale state after a step (R301). A is 48 bits wide; the clean count is 16 bits wide in UPD_READ's record. -/
def LossScale.after (l : LossScale) : Option Bool → LossScale
  | none => l
  | some false => { l with e := max (l.e - 1) (-24), clean := 0 }
  | some true =>
    let up := decide (0 < l.k ∧ l.k ≤ l.clean + 1)
    { l with
      applied := (l.applied + 1) % 2 ^ 48, clean := if up then 0 else min (l.clean + 1) 65535,
      e := if up then min (l.e + 1) 24 else l.e }

/-- L in binary32 and in loam16, as the 8 bytes at LS_ADDR hold it (R302): loam16 at +4; the last two bytes are not written. -/
def lossBytes (e : Int) : List Byte := leBytes ((127 + e).toNat * 2 ^ 23) 4 ++ leBytes ((127 + e).toNat * 2 ^ 7) 2

/-- L written at LS_ADDR, where the address is resident and clean, and e into the named flag (R302). The write is narrower than a word, so
the word is read and checked first (R248). -/
def Core.writeLoss (c : Core) (n : Nat) : Core :=
  match c.ctx? n with
  | none => c
  | some x =>
    let c1 := if x.loss.addr = 0 then c
      else match c.locate n x.loss.addr with
        | .hbm p i =>
          let g := match kget x.objs i with | some o => o.gen | none => 0
          let r := c.hbmRead n x.loss.addr 6
          if r.2 || r.1.wordBad p n g i then r.1 else r.1.putHbm p (lossBytes x.loss.e)
        | _ => c
    if x.loss.flagOn then c1.setFlag n x.loss.flag (tc 8 x.loss.e) else c1

/-- The loss scale moved on at the settle point. -/
def Core.settleLoss (c : Core) (n : Nat) : Core :=
  let o := (c.stepSt n).outcome
  (c.modCtx n (fun x => { x with loss := x.loss.after o })).writeLoss n

/-- The census snapshot latched and written to its ring; counts and trap record start anew (R131, R140). -/
def Core.latchCensus (c : Core) (n : Nat) : Core :=
  match c.ctx? n with
  | none => c
  | some x =>
    let rec_ := x.census' n (c.stepOf n) false (c.stepSt n).abandon.isSome
    (c.ringWrite x.censusRing x.snapSeq (18 + 3 * n) rec_).modCtx n (fun x => { x with
      snapshot := some rec_, snapSeq := (x.snapSeq + 1) % 2 ^ 32, census := [], trap := none })

/-! ## Order 10 -/

/-- Fences, disables and returns to service decided during the step take effect together; their commands reply (R410, R469). -/
def Core.settleService (c : Core) : Core :=
  let q : List PendSvc := c.pendSvc
  let f := c.stageFail
  let c1 := { c with pendSvc := [], stageFail := [] }.applyService f
    ((q.filter (fun (s : PendSvc) => !s.enable)).map PendSvc.u) ((q.filter (fun (s : PendSvc) => s.enable)).map PendSvc.u)
  c1.replyWaiting (fun w => match w.kind with | .disable _ => true | .enable _ => true | _ => false) 0 []

/-- The changes that waited for the device's next settle point: link parameters, a routing table, job records (R292, R369, R373). -/
def Core.settleDevice (c : Core) : Core :=
  let c1 := match c.pendLink with
    | some q => { c with escUs := q.1, reqUs := q.2, pendLink := none }
    | none => c
  let c2 := match c1.pendMap with
    | some q => c1.applyMap q.1 q.2
    | none => c1
  c2.pendJob.foldl (fun c e => c.applyJob e.1 e.2) { c2 with pendJob := [] }

/-- With no run left started, what waited for a settle point takes effect at once, as it would have done then (R369, R410, R469). -/
def Core.settleIdle (c : Core) : Core :=
  if c.anyRun || c.devState = .stopped then c
  else
    let c1 := c.settleService
    if c1.devState = .stopped then c1 else c1.settleDevice

/-- The pool at a settle point: every pool object ages by one (R235), plots left to their moves are retired (R466), stacks below
the low mark evict to the high mark (R236). -/
def Core.settlePool (c : Core) : Core :=
  let c1 := { c with ctxs := c.ctxs.map (fun (x : Nat × Ctx) => (x.1, { x.2 with objs := x.2.objs.map (fun (o : Nat × Obj) =>
    if o.2.window then o else (o.1, { o.2 with age := min (o.2.age + 1) (2 ^ 32 - 1) })) })) }
  let c2 := c1.retireMove.foldl (fun c q => c.retire q.1 q.2) { c1 with retireMove := [] }
  let c3 := (List.range 24).foldl (fun c m =>
    if c.stackOk m ∧ c.freeShared m < c.marks.1 then (c.evictFor m c.marks.2 false c.evictFuel).1 else c) c2
  c3.servePool

/-- SEQ_SETTLES of a hub's slice window (R80). -/
def seqSettles (r : Nat) : Nat := subBase (16 * r) 0 0 + 0x418

/-- The settle point counted by every hub that answers. -/
def Core.countSettle (c : Core) : Core :=
  (List.range 4).foldl (fun c r => if c.usable (.region r) then c.bump (seqSettles r) 64 1 else c) { c with settles := c.settles + 1 }

/-! ## A run goes on or ends -/

/-- A context whose run has ended and that CTX_DESTROY waits for is destroyed (R423); the command replies last. -/
def Core.destroyWaiting (c : Core) (n : Nat) : Core :=
  match c.waiting.find? (fun w => w.pkt.ctxNum = n && w.kind = .destroy) with
  | none => c
  | some w =>
    if (c.job? n).isSome then { c with waiting := c.waiting.erase w }.finish w.pkt 0x261 []
    else ({ c with waiting := c.waiting.erase w }.dropCtx n).finish w.pkt 0 []

/-- A run completes or stops at its settle point: its command, or the TRAP_RESUME in its place, and every PROG_STOP reply with the
step number reached (R76, R77); the sequencer passes on. Changes taken after the last settle point take effect, since no run is started any
more (R491, assumption log). -/
def Core.endRun (c : Core) (n : Nat) : Core :=
  let step := c.stepOf n
  let c1 := (c.modCtx n (fun x => { x with run := none, lastStep := step })).settleCtx n
  let c2 := c1.replyWaiting (fun w => w.pkt.ctxNum = n && (w.kind = .run || w.kind = .resume || w.kind = .stop)) 0 [step]
  ((if c2.cur = some n then c2.switchFrom n else c2).settleIdle.destroyWaiting n)

/-- The step number goes up by one and the next step's flags start fresh; what R275 and R283 carry over stands in the context. -/
def Run.nextStep (r : Run) : Run :=
  { r with
    stepNo := stepMod (r.stepNo + 1), stepsLeft := r.stepsLeft.map (fun k => k - 1), used := r.used + 1, pc := r.pc + 1,
    settling := false, step := StepSt.fresh }

/-- After the settle point: a run that poisoned step code has stopped ends (R75), as does one asked to or done, another context takes its turn once the quantum is spent, or the next
step begins (R67, R77). -/
def Core.afterSettle (c : Core) (n : Nat) : Core :=
  match c.run? n with
  | none => c.settleIdle
  | some r =>
    if r.poison then (c.stopAndSwitch n 0x32E).settleIdle
    else if r.stopReq ∨ r.stepsLeft = some 0 then c.endRun n
    else if r.quantum ≠ 0 ∧ r.quantum ≤ r.used then (c.modRun n (fun r => { r with used := 0 })).switchFrom n
    else c.gate.beginStep n

/-- The whole settle point of the running context. -/
def Core.settle (c : Core) (n : Nat) : Core :=
  let step := c.stepOf n
  let c1 := ((c.clearStep n).settleLoss n).latchCensus n
  let c2 := c1.modVnode n (fun v => { v with got := v.got.filter (fun e => step < e.2.step) })
  let c3 := c2.settleService
  if c3.devState = .stopped then c3
  else
    -- tree sets that change may name link dies that do not map (R362): every program is linked anew
    let trees := match c3.ctx? n with
      | some x => x.pend.any (fun p => match p with | .words t _ _ => t = tTree | _ => false)
      | none => false
    let c4 := c3.settleCtx n
    let c4 := (if trees then c4.relink else c4).settleDevice.settlePool.countSettle
    let c5 := c4.modCtx n (fun x => match x.run with
      | some r => { x with run := some r.nextStep }
      | none => { x with lastStep := stepMod (x.lastStep + 1) })
    c5.afterSettle n

/-- SETTLE_POINT: nothing happens until everything has drained. -/
def execSettlePoint (s : State) : Host.Outcome State Fault Refusal :=
  s.onCore (fun d =>
    match d.c.cur with
    | none => d.c
    | some n => if d.c.drained n then d.c.settle n else d.c)

/-- END_RECORD: the end record that follows a settle point completes the run (R68); it is the last record issued. The abandon flag holds
back action records only (R69). A run that a fetch of poisoned step code stops with no settle record left stops here. -/
def execEndRecord (s : State) : Host.Outcome State Fault Refusal :=
  s.onCore (fun d =>
    match d.c.running? with
    | none => d.c
    | some (n, r, g) =>
      let r1 := if r.step.abandon.isSome then r.toSettle g.units (4 * g.units.length + 4) else r
      if !d.c.mayMove r || recClass (g.units.getD r1.pc 0) ≠ 5 then d.c
      else
        let c := d.c.fetch r1 g 1
        if r1.poison || c.fetchPoisoned r1 g 1 then { (c.stopAndSwitch n 0x32E).settleIdle with seqPc := r1.pc }
        else { c.endRun n with seqPc := r1.pc })

/-! ## Loss of a device (R280, R281) -/

/-- LOSS_ARRIVE: a notice of a device lost already is the acting root's question for the latest record (R281). -/
def execLossArrive (src job dev : Nat) (s : State) : Host.Outcome State Fault Refusal :=
  s.onCore (fun d =>
    match d.c.jobCtx job with
    | none => d.c
    | some n =>
      let c := d.c.hear n src
      match c.job? n with
      | none => c
      | some j =>
        if dev = c.devNum ∧ c.dnValid then (c.stopAndSwitch n 0x468).settleIdle
        else if j.lost.contains dev then (if src = j.rootNow then c.sendLatest n src else c)
        else ((c.declareLost n dev).afterLoss n dev false).pollDone n)

end Sys2Proof.Machine
end

