-- ==== Sys2Proof/Machine/Governor.lean ====
section
/-!
DEFINITION. The power and heat governor: sensors, the evaluation of every millisecond, the power cut, ramps, the thermal trip and
the governor commands (R375 to R394). Temperatures are in units of 0.5 °C, power in units of 0.1 W.
-/
namespace Sys2Proof.Machine
open Sys2Proof

/-! ## Readings (R375) -/

/-- Largest of a list of readings; 0 before the first reading. -/
def hottest : List Int → Int
  | [] => 0
  | a :: l => l.foldl max a

/-- t: the hottest of every die and stack sensor. -/
def Gov.temp (g : Gov) : Int := hottest (g.dieT.flatten ++ g.stackT)

/-- Whether a round of readings has every sensor. -/
def readingsWhole (r : Readings) : Bool :=
  r.dieT.length = 64 && r.dieT.all (fun l => l.length = 8) && r.stackT.length = 24 && r.current.length = 4

/-- SENSOR_SAMPLE: readings below 85 °C end the wait for BIST after a trip (R386). -/
def execSensorSample (r : Readings) (s : State) : Host.Outcome State Fault Refusal :=
  s.guardDev (readingsWhole r) (fun d => if d.pw.auxUp then
      ({ d with gov := { d.gov with
          dieT := r.dieT, stackT := r.stackT, current := r.current, sample := r.power,
          sampleSum := d.gov.sampleSum + r.power, samples := d.gov.samples + 1 } } : Dev).toBist
    else d)

/-! ## The evaluation (R379 to R384, R387) -/

/-- The cap before its floor: the module cap, or the module's share of the rack limit where that is less (R379). -/
def Gov.rawCap (g : Gov) : Nat := if g.rackLimit = 0 then g.modCap else min g.modCap (g.rackLimit * g.share / 65536)

/-- The effective cap in W. -/
def Gov.cap (g : Gov) : Nat := max 800 g.rawCap

/-- Settings that waited for the evaluation (R393). -/
def Gov.settings (g : Gov) : Gov :=
  { g with
    modCap := (match g.pendBudget with | some b => b.1 | none => g.modCap),
    rackLimit := (match g.pendBudget with | some b => b.2.1 | none => g.rackLimit),
    share := (match g.pendBudget with | some b => b.2.2 | none => g.share),
    opMin := (match g.pendLimits with | some l => l.1 | none => g.opMin),
    opMax := (match g.pendLimits with | some l => l.2 | none => g.opMax),
    fix := (match g.pendFix with | some f => f | none => g.fix),
    pendBudget := none, pendLimits := none, pendFix := none }

/-- p: the mean of the power samples since the last evaluation; between two steps of 0.1 W the device takes either. -/
def Gov.mean (g : Gov) (draw : Nat) : Nat :=
  if g.samples = 0 then g.power
  else g.sampleSum / g.samples + (if g.sampleSum % g.samples = 0 then 0 else Config.unstated 11 draw % 2)

/-- Points to go down (R381): 2, 1 or none. -/
def Gov.down (g : Gov) : Nat :=
  if 190 < g.temp ∨ 105 * (10 * g.cap) < 100 * g.power then 2
  else if 186 < g.temp ∨ 10 * g.cap < g.power then 1
  else 0

/-- The point lowered, with the hold where there is no lower one (R381, R382). -/
def Gov.lower (g : Gov) (down : Nat) : Gov :=
  { g with calm := 0, hold := if g.op < down then min (g.hold + 1) 7 else g.hold, op := g.op - down }

/-- The branch of R381 in which nothing calls for a lower point. -/
def Gov.rise (g : Gov) : Gov :=
  let calm := g.calm + 1
  if g.opMax < g.op then { g with calm := calm, op := g.opMax }
  else if g.op < g.opMin then { g with calm := calm, op := g.op + 1 }
  else if g.temp ≤ 180 ∧ 10 * g.power ≤ 9 * (10 * g.cap) ∧ 16 ≤ calm then
    (if 0 < g.hold then { g with calm := 0, hold := g.hold - 1 }
     else if g.op < g.opMax then { g with calm := 0, op := g.op + 1 } else { g with calm := 0 })
  else { g with calm := calm }

/-- R381's decision. -/
def Gov.decide' (g : Gov) : Gov :=
  let g1 := if 0 < g.down then g.lower g.down else g.rise
  { g1 with op := min g1.op g1.opMax }

/-- The decision while GOV_FIX holds a point (R384): the fixed value once neither t nor the input power calls for less. -/
def Gov.decideFixed (g : Gov) (k : Nat) : Gov :=
  if 190 < g.temp then g.lower 2 else if 30000 < g.sample then g else { g with op := k }

/-- The budget class (R387). -/
def Gov.classOf (g : Gov) : Nat :=
  if 0 < g.hold ∨ 186 < g.temp then 3
  else if 9 * (10 * g.cap) < 10 * g.power ∨ 180 < g.temp then 2
  else if g.op = g.opMax ∧ 100 * g.power ≤ 75 * (10 * g.cap) ∧ g.temp ≤ 170 then 0
  else 1

/-- One evaluation: settings, p, the decision, the class and the flags of GOV_STATE. -/
def Gov.evaluate (g : Gov) (draw : Nat) : Gov :=
  let g1 := { g.settings with power := g.mean draw, sampleSum := 0, samples := 0 }
  let g2 := match g1.fix with | some k => g1.decideFixed k | none => g1.decide'
  { g2 with
    cls := g2.classOf, pwrFlag := 9 * (10 * g2.cap) < 10 * g2.power, thermFlag := 180 < g2.temp, floorFlag := g2.rawCap < 800 }

/-- GOV_CHANGES and GOV_HOLDS stand in D00's governor window and read the same on every hub (R390). -/
def govChanges : Nat := subBase 0 1 0 + 0x418
def govHolds : Nat := subBase 0 1 0 + 0x420

/-- A change of point counted. -/
def Core.countOp (c : Core) (g g1 : Gov) : Core := if g.op = g1.op then c else c.bump govChanges 64 1

/-- GOV_EVALUATE: the hold stops issue for the first h/8 ms from now (R382). -/
def execGovEvaluate (s : State) : Host.Outcome State Fault Refusal :=
  s.onDev (fun d =>
    if d.gov.active then
      let g := d.gov.evaluate d.c.freeCtr
      let c1 := d.c.drawn.countOp d.gov g
      let c2 := if 0 < g.hold then c1.bump govHolds 64 1 else c1
      { d with gov := g, c := { c2 with holdUntil := c2.now 0 + 12500 * g.hold } }
    else d)

/-- POWER_OVER_LIMIT: at most once per 100 µs (R383). -/
def execPowerOverLimit (s : State) : Host.Outcome State Fault Refusal :=
  s.onDev (fun d =>
    let soon := match d.gov.cutAt with | some t => decide (d.c.now 0 < t + 10000) | none => false
    if !d.gov.active || soon then d
    else
      let g := { d.gov.lower 1 with cutAt := some (d.c.now 0) }
      { d with gov := g, c := { d.c.countOp d.gov g with holdUntil := d.c.holdUntil + 12500 * (g.hold - d.gov.hold) } })

/-- OP_RAMP_DONE: the point chosen is in force (R378). -/
def execOpRampDone (s : State) : Host.Outcome State Fault Refusal :=
  s.onDev (fun d => { d with gov := { d.gov with inForce := d.gov.op } })

/-! ## The trip (R385, R392) -/

/-- Region whose hub trips on a sensor. -/
def tripRegion (stack : Bool) (unit : Nat) : Nat := if stack then unit / 6 else dieRegion unit

/-- GOV_TRIP of a hub. -/
def tripWord (stack : Bool) (unit temp time : Nat) : Nat := time % 2 ^ 48 + 2 ^ 48 * temp + 2 ^ 56 * unit + 2 ^ 62 * b2n stack + 2 ^ 63

/-- THERMAL_TRIP: the rails of every tensor, port and link die and of every stack go off, and the device stops. -/
def execThermalTrip (stack : Bool) (unit temp : Nat) (s : State) : Host.Outcome State Fault Refusal :=
  s.guardDev (unit < (if stack then 24 else 64) && temp < 256) (fun d =>
    if temp < 210 then d
    else
      let r := tripRegion stack unit
      let c1 := (d.c.chipStop d.portUp).devEvent 4
      { d with
        gov := { d.gov with trips := kset d.gov.trips r (tripWord stack unit temp (d.c.now r)) },
        c := { c1 with tripWait := true, sram := [], sramEpoch := c1.sramEpoch + 1, lineCnt := [] } })

/-! ## Commands (R393, R394) -/

/-- GOV_BUDGET. -/
def execGovBudget (p : Packet) (s : State) : Host.Outcome State Fault Refusal :=
  hostCmdDev (Cmd.plain 0x701 false [64, 64, 64]) p s (fun d =>
    if p.arg 0 < 800 ∨ 3000 < p.arg 0 ∨ 4294967295 < p.arg 1 ∨ p.arg 2 < 1 ∨ 65536 < p.arg 2 then
      { d with c := d.c.finish p 0x740 [] }
    else { d with gov := { d.gov with pendBudget := some (p.arg 0, p.arg 1, p.arg 2) }, c := d.c.finish p 0 [] })

/-- GOV_LIMITS. -/
def execGovLimits (p : Packet) (s : State) : Host.Outcome State Fault Refusal :=
  hostCmdDev (Cmd.plain 0x702 false [64, 64]) p s (fun d =>
    if 7 < p.arg 0 ∨ 7 < p.arg 1 ∨ p.arg 1 < p.arg 0 then { d with c := d.c.finish p 0x740 [] }
    else { d with gov := { d.gov with pendLimits := some (p.arg 0, p.arg 1) }, c := d.c.finish p 0 [] })

/-- GOV_FIX. -/
def execGovFix (p : Packet) (s : State) : Host.Outcome State Fault Refusal :=
  hostCmdDev (Cmd.plain 0x703 false [64]) p s (fun d =>
    if 7 < p.arg 0 ∧ p.arg 0 ≠ 0xFF then { d with c := d.c.finish p 0x740 [] }
    else if d.c.anyJob then { d with c := d.c.finish p 0x741 [] }
    else { d with
      gov := { d.gov with pendFix := some (if p.arg 0 = 0xFF then none else some (p.arg 0)) }, c := d.c.finish p 0 [] })

end Sys2Proof.Machine
end

