-- ==== Sys2Proof/Machine/Trust.lean ====
section
/-!
DEFINITION. The security engine's commands and the SPDM and IDE events: certificates, attestation, peer keys, data keys, seal areas,
the owner, and firmware update (R422, R430 to R455).
-/
namespace Sys2Proof.Machine
open Sys2Proof

/-- The payload's words from the n-th on, as bytes. -/
def payloadBytes (p : Packet) (n : Nat) : List Byte := (p.payload.drop n).flatMap (fun w => leBytes w.toNat 8)

/-! ## Identity and attestation (R432 to R435) -/

/-- ID_CERTS. -/
def execIdCerts (p : Packet) (s : State) : Host.Outcome State Fault Refusal :=
  hostCmd (Cmd.plain 0x801 false [64, 64]) p s (fun d =>
    let need := 8 + Config.certChain.length
    if p.arg 0 % 64 ≠ 0 then d.c.finish p 0x802 []
    else if p.arg 1 < need then d.c.finish p 0x801 [need]
    else match d.c.hostRecord (p.arg 0) (leBytes Config.certChain.length 8 ++ Config.certChain) with
      | some c1 => c1.finish p 0 [need]
      | none => d.c.finish p 0x102 [need])

/-- Measurement of a program slot (R434): zero for an empty one. -/
def Ctx.slotMeasure (x : Ctx) (k : Nat) : List Byte := match kget x.progs k with | some g => padTo 48 g.measure | none => zeros 48

/-- A report's first 0x240 bytes (R435); `n` is the context of ATTEST_CTX. -/
def Dev.reportBody (d : Dev) (n : Option Nat) (nonce : List Byte) : List Byte :=
  let x := n.bind d.c.ctx?
  let t := d.tr
  let st := b2n t.lock + 2 * b2n t.owner.isSome + 4 * b2n x.isSome +
    8 * (match x with | some q => b2n q.conf | none => 0) + 16 * (match x with | some q => b2n q.dataKey.isSome | none => 0) +
    32 * b2n t.fallback
  leBytes 0x54525441 4 ++ leBytes 1 2 ++ leBytes 0x2A0 2 ++ leBytes Config.serial 8 ++ leBytes t.fwVersion 4 ++
  leBytes Config.romVersion 4 ++ leBytes t.runSvn 2 ++ leBytes t.svnFloor 2 ++ leBytes st 1 ++
  leBytes (match x, n with | some _, some k => k | _, _ => 0) 1 ++ zeros 2 ++ leBytes (d.c.now 0) 8 ++
  leBytes (match x, n with | some _, some k => d.c.stepOf k | _, _ => 0) 8 ++ padTo 48 nonce ++ padTo 48 t.romMeas ++
  padTo 48 t.fwMeas ++ padTo 48 d.confMeasure ++ padTo 48 t.ownerPrint ++
  leBytes (match x.bind (fun q => q.dataKey) with | some k => k.keyId | none => 0) 8 ++ zeros 40 ++
  (match x with | some q => (List.range 4).flatMap q.slotMeasure | none => zeros 192) ++ zeros 48

/-- A signed report written at the host address of parameter 0. -/
def Dev.attest (d : Dev) (n : Option Nat) (p : Packet) : Core :=
  let body := d.reportBody n (payloadBytes p 1)
  if p.arg 0 % 64 ≠ 0 then d.c.finish p 0x802 []
  else match d.c.drawn.hostRecord (p.arg 0) (body ++ padTo 96 (Config.ecdsaSign 0 d.c.freeCtr body)) with
    | some c1 => c1.finish p 0 []
    | none => d.c.finish p 0x102 []

/-- ATTEST_DEV. -/
def execAttestDev (p : Packet) (s : State) : Host.Outcome State Fault Refusal :=
  hostCmd { op := 0x802, ctxv := false, widths := [64], list := some (6, 6) } p s (fun d => d.attest none p)

/-- ATTEST_CTX. -/
def execAttestCtx (p : Packet) (s : State) : Host.Outcome State Fault Refusal :=
  hostCmd { op := 0x803, ctxv := true, widths := [64], list := some (6, 6) } p s (fun d => d.attest (some p.ctxNum) p)

/-! ## SPDM and IDE (R422, R430, R433) -/

/-- Whether the SPDM responder runs: the control processor has started and the port is up (R395, R474). -/
def Dev.spdmUp (d : Dev) : Bool := d.portUp && (d.c.devState ≠ .starting || 2 ≤ d.c.stage)

/-- SPDM_GET_CERTIFICATE: the chain on slot 0; any other slot gets an SPDM 1.2 ERROR answer, InvalidRequest (assumption log). -/
def execSpdmGetCertificate (slot : Nat) (s : State) : Host.Outcome State Fault Refusal :=
  s.onCore (fun d =>
    if !d.spdmUp then d.c
    else { d.c with out := d.c.out ++ [.spdm (if slot = 0 then Config.certChain else [0x12, 0x7F, 0x01, 0x00])] })

/-- The measurement blocks 1 to 4 (R433): boot ROM, firmware, configuration once ready; what the one block for every program slot
holds is not stated and free. -/
def Dev.blocks (d : Dev) : List Byte :=
  padTo 48 d.tr.romMeas ++ padTo 48 d.tr.fwMeas ++ (if d.c.devState = .starting then zeros 48 else padTo 48 d.confMeasure) ++
  (List.range 48).map (fun i => BitVec.ofNat 8 (Config.unstated 12 (d.c.freeCtr + i)))

/-- SPDM_GET_MEASUREMENTS. -/
def execSpdmGetMeasurements (s : State) : Host.Outcome State Fault Refusal :=
  s.onCore (fun d =>
    if !d.spdmUp then d.c
    else { d.c with
      freeCtr := d.c.freeCtr + 49,
      out := d.c.out ++ [.spdm (d.blocks ++ padTo 96 (Config.ecdsaSign 1 (d.c.freeCtr + 48) d.blocks))] })

/-- Every confidential context stopped at once (R422): all its waiting commands reply 0x0264. -/
def Core.stopConf (c : Core) : Core :=
  ((c.ctxs.filter (fun e => e.2.conf)).map Prod.fst).foldl (fun c n =>
    ((c.replyWaiting (fun w => w.pkt.ctxv && w.pkt.ctxNum = n) 0x264 []).stopAndSwitch n 0x264).settleIdle) c

/-- A stream leaves the Secure state: DEV_EVENT[5]; where it covered what R422 asks, the confidential contexts stop. -/
def Dev.insecure (d : Dev) (stream : Nat) : Dev :=
  match kget d.tr.ide stream with
  | none => d
  | some q =>
    if !q.secure then d
    else { d with
      tr := { d.tr with ide := kset d.tr.ide stream { q with secure := false } },
      c := (if q.covers then d.c.stopConf else d.c).devEvent 5 }

/-- IDE_KM: a stream's key, coverage and state set over an SPDM session. The function has two selective streams (R395): the number of a third
is none of its own. -/
def execIdeKm (stream : Nat) (key : List Byte) (covers secure : Bool) (s : State) : Host.Outcome State Fault Refusal :=
  s.onDev (fun d =>
    if !d.spdmUp || ((kget d.tr.ide stream).isNone && 2 ≤ d.tr.ide.length) then d
    else
      let was := match kget d.tr.ide stream with | some q => q.secure && (!secure || (q.covers && !covers)) | none => false
      let d1 := if was then d.insecure stream else d
      { d1 with tr := { d1.tr with ide := kset d1.tr.ide stream { key := key, secure := secure, covers := covers } } })

/-- IDE_STREAM_INSECURE. -/
def execIdeStreamInsecure (stream : Nat) (s : State) : Host.Outcome State Fault Refusal := s.onDev (fun d => d.insecure stream)

/-! ## Peer keys (R437) -/

/-- A byte list cut into fingerprints of 48 bytes. -/
def fingerprints (b : List Byte) : List (List Byte) := (List.range (b.length / 48)).map (fun i => (b.drop (48 * i)).take 48)

/-- PEER_KEYS. -/
def execPeerKeys (p : Packet) (s : State) : Host.Outcome State Fault Refusal :=
  hostCmdDev { op := 0x804, ctxv := false, widths := [64], list := some (0, 510) } p s (fun d =>
    let l := fingerprints (payloadBytes p 1)
    let t := if p.arg 0 = 1 then d.tr.peerKeys ++ l else l
    if (p.payload.length - 1) % 6 ≠ 0 then { d with c := d.c.finish p 3 [] }
    else if 2 ≤ p.arg 0 then { d with c := d.c.finish p 0x802 [] }
    else if 32768 < t.length then { d with c := d.c.finish p 0x824 [] }
    else { d with tr := { d.tr with peerKeys := t }, c := d.c.finish p 0 [] })

/-! ## Data keys and seal areas (R438 to R440) -/

/-- "GNW-T1536 data key". -/
def dataKeyInfo : List Byte :=
  [0x47, 0x4E, 0x57, 0x2D, 0x54, 0x31, 0x35, 0x33, 0x36, 0x20, 0x64, 0x61, 0x74, 0x61, 0x20, 0x6B, 0x65, 0x79]

/-- The data key unwrapped under R438; none for an invalid point or a tag that fails. -/
def unwrapKey (serial keyId n : Nat) (importer wrapped : List Byte) : Option (List Byte) :=
  match Config.ecdh 0 importer with
  | none => none
  | some z =>
    let okm := Config.hkdf (leBytes serial 8 ++ leBytes keyId 8) z (dataKeyInfo ++ leBytes n 1) 44
    Config.gcmOpen (okm.take 32) (fieldAt okm 32 12) (leBytes keyId 8 ++ leBytes n 1) (wrapped.take 32) (wrapped.drop 32)

/-- Whether any plot of a context lies in a spill frame. -/
def Ctx.spilled (x : Ctx) : Bool := x.objs.any (fun o => o.2.plots.any (fun e => e.frame.isSome))

/-- KEY_IMPORT: the seal and spill counters and the counts of EXPORT_SET start anew under the new key (R246, R440, R443). -/
def execKeyImport (p : Packet) (s : State) : Host.Outcome State Fault Refusal :=
  hostCmd { op := 0x810, ctxv := true, widths := [64], list := some (18, 18) } p s (fun d =>
    let n := p.ctxNum
    match d.c.ctx? n with
    | none => d.c.finish p 4 []
    | some x =>
      let b := payloadBytes p 1
      if !x.conf ∨ x.run.isSome ∨ x.spilled then d.c.finish p 0x820 []
      else match unwrapKey Config.serial (p.arg 0) n (b.take 96) (b.drop 96) with
        | none => d.c.finish p 0x821 []
        | some k => (d.c.modCtx n (fun x => { x with
            dataKey := some { keyId := p.arg 0, key := k, spillCtr := 0, sealCtr := 0 },
            exports := x.exports.map (fun (e : Nat × Export) => (e.1, { e.2 with sets := 0 })) })).finish p 0 [])

/-- KEY_ERASE. -/
def execKeyErase (p : Packet) (s : State) : Host.Outcome State Fault Refusal :=
  hostCmd (Cmd.plain 0x811 true []) p s (fun d => (d.c.modCtx p.ctxNum (fun x => { x with dataKey := none })).finish p 0 [])

/-- SEAL_AREA: frame first + i has its entries at host base + 16 KiB × i. -/
def execSealArea (p : Packet) (s : State) : Host.Outcome State Fault Refusal :=
  hostCmd (Cmd.plain 0x812 true [64, 64, 64]) p s (fun d =>
    let n := p.ctxNum
    let fs := (List.range (p.arg 1)).map (fun i => (p.arg 0 + i, p.arg 2 + 0x4000 * i))
    if p.arg 1 < 1 ∨ 256 < p.arg 1 ∨ p.arg 2 % 4096 ≠ 0 ∨ 2 ^ 64 < p.arg 2 + 0x4000 * p.arg 1 ∨
        fs.any (fun e => (kget d.c.frames e.1).all (fun f => f.ctx ≠ n)) then d.c.finish p 0x822 []
    else (d.c.modCtx n (fun x => { x with sealArea := fs.foldl (fun m e => kset m e.1 e.2) x.sealArea })).finish p 0 [])

/-! ## Owner (R444, R445) -/

/-- OWNER_CLAIM. -/
def execOwnerClaim (p : Packet) (s : State) : Host.Outcome State Fault Refusal :=
  hostCmdDev { op := 0x820, ctxv := false, widths := [], list := some (12, 12) } p s (fun d =>
    if d.pw.holdup < 80 then { d with c := d.c.finish p 0x811 [] }
    else if d.tr.owner.isSome then { d with c := d.c.finish p 0x830 [] }
    else { d with tr := { d.tr with owner := some (payloadBytes p 0), ownerCtr := 0, lock := false }, c := d.c.finish p 0 [] })

/-- "GNW-OWNR". -/
def ownerMagic : List Byte := [0x47, 0x4E, 0x57, 0x2D, 0x4F, 0x57, 0x4E, 0x52]

/-- The message that an owner command's signature covers. -/
def ownerMessage (serial : Nat) (p : Packet) : List Byte :=
  ownerMagic ++ leBytes serial 8 ++ leBytes (p.arg 0) 8 ++ leBytes (p.arg 1) 8 ++ (payloadBytes p 2).take 96

/-- An OWNER_CMD packet under the row of its action: the checks of R445, then the counter and the action's effect. An action beyond
the table, or an argument that must be zero and is not, is refused under any row. -/
def ownerCmd (action : Nat) (p : Packet) (s : State) (effect : Trust → Trust) : Host.Outcome State Fault Refusal :=
  if p.opcode = 0x821 ∧ p.arg 0 ≤ 3 ∧ p.arg 0 ≠ action then .fault .badOperand
  else hostCmdDev { op := 0x821, ctxv := false, widths := [64, 64], list := some (24, 24) } p s (fun d =>
    let arg := (payloadBytes p 2).take 96
    let sig := (payloadBytes p 2).drop 96
    if 4 ≤ p.arg 0 ∨ (p.arg 0 ≠ 3 ∧ arg.any (fun b => b ≠ 0)) then { d with c := d.c.finish p 0x802 [] }
    else if d.pw.holdup < 80 then { d with c := d.c.finish p 0x811 [] }
    else match d.tr.owner with
      | none => { d with c := d.c.finish p 0x831 [] }
      | some k =>
        if p.arg 1 ≤ d.tr.ownerCtr ∨ Config.ecdsaVerify k (ownerMessage Config.serial p) sig = false then
          { d with c := d.c.finish p 0x832 [] }
        else { d with tr := effect { d.tr with ownerCtr := p.arg 1 }, c := d.c.finish p 0 [] })

/-- OWNER_CMD with action 0: an update in progress is discarded. -/
def execOwnerCmdLock (p : Packet) (s : State) : Host.Outcome State Fault Refusal :=
  ownerCmd 0 p s (fun t => { t with lock := true, upd := .idle })

/-- OWNER_CMD with action 1. -/
def execOwnerCmdUnlock (p : Packet) (s : State) : Host.Outcome State Fault Refusal :=
  ownerCmd 1 p s (fun t => { t with lock := false })

/-- OWNER_CMD with action 2. -/
def execOwnerCmdRemove (p : Packet) (s : State) : Host.Outcome State Fault Refusal :=
  ownerCmd 2 p s (fun t => { t with owner := none, lock := false })

/-- OWNER_CMD with action 3: the counter is kept. -/
def execOwnerCmdReplace (p : Packet) (s : State) : Host.Outcome State Fault Refusal :=
  ownerCmd 3 p s (fun t => { t with owner := some ((payloadBytes p 2).take 96) })

/-! ## Firmware update (R448, R449) -/

/-- Checks 1 to 3 of R448. -/
def Dev.fwRefusal (d : Dev) : Option Nat :=
  if d.c.anyJob then some 0x810 else if d.pw.holdup < 80 then some 0x811 else if d.tr.lock then some 0x812 else none

/-- FW_BEGIN: the staging area erased, the header written. -/
def execFwBegin (p : Packet) (s : State) : Host.Outcome State Fault Refusal :=
  hostCmdDev { op := 0x830, ctxv := false, widths := [], list := some (64, 64) } p s (fun d =>
    let h := payloadBytes p 0
    match d.fwRefusal with
    | some e => { d with c := d.c.finish p e [] }
    | none =>
      if !d.tr.headerOk h then { d with c := d.c.finish p 0x813 [] }
      else if !d.tr.signatureOk h then { d with c := d.c.finish p 0x814 [] }
      else if !d.tr.svnOk h then { d with c := d.c.finish p 0x815 [] }
      else { d with tr := { d.tr with upd := .receiving, stage := { hdr := h, body := [] }, received := 0 }, c := d.c.finish p 0 [] })

/-- FW_BLOCK: bytes within the body's length, none of them written before. -/
def execFwBlock (p : Packet) (s : State) : Host.Outcome State Fault Refusal :=
  hostCmdDev { op := 0x831, ctxv := false, widths := [64], list := some (1, 511) } p s (fun d =>
    let b := payloadBytes p 1
    let o := p.arg 0
    match d.fwRefusal with
    | some e => { d with c := d.c.finish p e [] }
    | none =>
      if d.tr.upd ≠ .receiving then { d with c := d.c.finish p 0x816 [] }
      else if o % 8 ≠ 0 ∨ d.tr.stage.ilen < o + b.length ∨ d.tr.stage.body.any (fun e => o ≤ e.1 && e.1 < o + b.length) then
        { d with c := d.c.finish p 0x817 [] }
      else { d with
        tr := { d.tr with stage := { d.tr.stage with body := mputs d.tr.stage.body o b }, received := d.tr.received + b.length },
        c := d.c.finish p 0 [] })

/-- FW_COMMIT. -/
def execFwCommit (p : Packet) (s : State) : Host.Outcome State Fault Refusal :=
  hostCmdDev (Cmd.plain 0x832 false []) p s (fun d =>
    match d.fwRefusal with
    | some e => { d with c := d.c.finish p e [] }
    | none =>
      if d.tr.upd ≠ .receiving then { d with c := d.c.finish p 0x816 [] }
      else if !d.tr.stage.hashOk then { d with c := d.c.finish p 0x818 [] }
      else { d with tr := { d.tr with upd := .staged }, c := d.c.finish p 0 [] })

/-- FW_ABORT. -/
def execFwAbort (p : Packet) (s : State) : Host.Outcome State Fault Refusal :=
  hostCmdDev (Cmd.plain 0x833 false []) p s (fun d =>
    if d.tr.upd = .idle then { d with c := d.c.finish p 0x816 [] }
    else { d with tr := { d.tr with upd := .idle }, c := d.c.finish p 0 [] })

end Sys2Proof.Machine
end

