-- ==== Sys2Proof/Machine/Faults.lean ====
section
/-!
DEFINITION. Faults and tests: correction limits, targeted self-tests, disables, BIST and the failure counts (R456 to R473, R478,
R479).
-/
namespace Sys2Proof.Machine
open Sys2Proof

/-! ## Units by BLK_ID (R26, R478) -/

/-- BLK_ID of a block or window. -/
def blkId : SUnit → Nat
  | .cell n => n
  | .die d => 2 ^ 28 + 2 ^ 24 * (if isHub d then 0 else if isTensor d then 1 else if isPort d then 2 else 3) + d
  | .region r => 2 * 2 ^ 28 + r
  | .chip => 3 * 2 ^ 28
  | .link l => 4 * 2 ^ 28 + l
  | .stack m => 5 * 2 ^ 28 + m
  | .sub _ k i => 6 * 2 ^ 28 + 2 ^ 24 * kindCode k + i

/-- The unit of a level, kind, index and die. -/
def unitOf (level kind idx die : Nat) : SUnit :=
  match level with
  | 0 => .cell idx
  | 1 => .die idx
  | 2 => .region idx
  | 4 => .link idx
  | 5 => .stack idx
  | 6 => .sub die (kindOf kind) idx
  | _ => .chip

/-- The unit that a *unit* parameter names; none where there is no such unit. -/
def unitParam (a : Nat) : Option SUnit :=
  let u := unitOf (bits a 31 28) (bits a 27 24) (bits a 15 0) (bits a 37 32)
  if u.valid ∧ blkId u = a % 2 ^ 32 then some u else none

/-- Whether a *unit* parameter sets a reserved bit. -/
def unitReserved (a : Nat) : Bool := 2 ^ 38 ≤ a || (bits a 31 28 ≠ 6 && bits a 37 32 ≠ 0)

/-- A command on the unit of its parameter 0: reserved bits 0x0008, no such unit 0x0620. -/
def onUnit (p : Packet) (c : Core) (f : SUnit → Core) : Core :=
  if unitReserved (p.arg 0) then c.finish p 8 []
  else match unitParam (p.arg 0) with
    | none => c.finish p 0x620 []
    | some u => f u

/-! ## Detection and self-tests (R458, R465, R466) -/

/-- CORRECTION_LIMIT: 1,024 corrections since the settle point, or within 1 s with no run started; no action faults. -/
def execCorrectionLimit (u : SUnit) (det : Nat) (s : State) : Host.Outcome State Fault Refusal :=
  s.guard (u.valid && detExists u det) (fun d =>
    let l := kgetD d.c.corrs (u, det) []
    if l.length = 1024 ∧ (d.c.anyRun ∨ d.c.now u.region' ≤ l.headD 0 + 100000000) then
      ({ d.c with corrs := kdel d.c.corrs (u, det) }.error u det 0 (Config.syndrome d.c.freeCtr % 2 ^ 32) true false true).drawn
    else d.c)

/-- SELFTEST_RUN. -/
def execSelftestRun (p : Packet) (s : State) : Host.Outcome State Fault Refusal :=
  hostCmd (Cmd.plain 0x602 false [64]) p s (fun d => onUnit p d.c (fun u => (d.c.oweTest u).wait p (.selftest u)))

/-- SELFTEST_DONE: an owed test of an idle unit, or one at order 10 of the settle point in progress. -/
def execSelftestDone (u : SUnit) (pass : Bool) (s : State) : Host.Outcome State Fault Refusal :=
  s.guard u.valid (fun d => if d.c.owes u && d.c.testable then d.c.selftest u pass else d.c)

/-! ## Disabling and enabling (R18, R293, R469) -/

/-- Whether the command may disable a unit. -/
def canDisable : SUnit → Bool
  | .cell _ => true
  | .die d => d ≠ 0
  | .region r => r ≠ 0
  | .link _ => true
  | .stack _ => true
  | _ => false

/-- Whether a unit of service takes part in what a disable of `u` removes: `v` itself or what contains it. -/
def within (u v : SUnit) : Bool := (disableSet u).any (fun w => v.chain.contains w)

/-- The links and the stacks that a disable of a unit removes. -/
def linksIn (u : SUnit) : List Nat := (List.range 36).filter (fun l => within u (.link l))
def stacksIn (u : SUnit) : List Nat := (List.range 24).filter (fun m => within u (.stack m))

/-- Whether an action works on a stack: a pass whose tensor begins there, or the SWEEP of a shard with plots there. -/
def Core.worksOn (c : Core) (k : UnitId) (m : Nat) : Bool :=
  match k with
  | .se d e => (match c.passOf d e with
    | some p => dBase p.image / 2 ^ 45 = c.devNum && dBase p.image % 2 ^ 45 / 2 ^ 36 = m
    | none => false)
  | .uu d => (match kget c.sweeps d with
    | some w => w.hold.any (fun i => match c.obj? w.ctx i with | some o => o.base / 2 ^ 36 = m | none => false)
    | none => false)
  | _ => false

/-- The actions that run on units which a disable removes, or on its stacks. -/
def Core.workOf (c : Core) (u : SUnit) : List (UnitId × ActionInst) :=
  c.cols.filterMap (fun e => match e.2.run with
    | some r => if (within u e.1.sunit || (stacksIn u).any (c.worksOn e.1)) && !r.done then some (e.1, r.a) else none
    | none => none)

/-- Whether a unit of service holds work of the step: running or issued actions of its units, actions on its stacks, flits and partial
messages of its links. -/
def Core.hasWork (c : Core) (u : SUnit) : Bool :=
  !(c.workOf u).isEmpty || c.cols.any (fun e => within u e.1.sunit && !e.2.queue.isEmpty) ||
  (linksIn u).any (fun l => !(c.link l).replay.isEmpty || !(c.link l).rx.isEmpty)

/-- The flits that a link holds, dropped and counted (R345); no further one leaves it. -/
def Core.dropFlits (c : Core) (l : Nat) : Core :=
  (c.modLink l (fun k => { k with replay := [], rx := [], local_ := [], drain := true })).bump (linkBase l + 0x43C) 32 (c.link l).replay.length

/-- An immediate disable drops the unit's work, running and issued, and sets the running step's abandon flag with cause 0x03 (R18, R293). -/
def Core.dropWork (c : Core) (u : SUnit) : Core :=
  if c.hasWork u then
    let c1 := (c.workOf u).foldl (fun c w => c.stopAction w.1 w.2) c
    let c2 := (linksIn u).foldl (fun c l => c.dropFlits l)
      { c1 with cols := c1.cols.map (fun (e : UnitId × Column) => (e.1, { e.2 with dropped := e.2.dropped || within u e.1.sunit })) }
    match c2.cur with
    | some n => c2.setAbandon n 0x03
    | none => c2
  else c

/-- A command completes with 0, or with 0x0612 where its own effect has stopped the chip (R21). -/
def Core.finishUnlessStopped (c : Core) (p : Packet) : Core := c.finish p (if c.devState = .stopped then 0x612 else 0) []

/-- UNIT_DISABLE. -/
def execUnitDisable (p : Packet) (s : State) : Host.Outcome State Fault Refusal :=
  hostCmd (Cmd.plain 0x603 false [64, 64]) p s (fun d => onUnit p d.c (fun u =>
    if 2 ≤ p.arg 1 then d.c.finish p 0x620 []
    else if !canDisable u then d.c.finish p 0x622 []
    else if !d.c.usable u then d.c.finish p 0x623 []
    else if d.c.anyRun then
      let c1 := if p.arg 1 = 1 then d.c.dropWork u else d.c
      ({ c1 with pendSvc := c1.pendSvc ++ [PendSvc.mk u false] } : Core).wait p (.disable u)
    else (d.c.applyService [] [u] []).finishUnlessStopped p))

/-- UNIT_ENABLE: the unit's self-test decides. -/
def execUnitEnable (p : Packet) (s : State) : Host.Outcome State Fault Refusal :=
  hostCmd (Cmd.plain 0x604 false [64]) p s (fun d => onUnit p d.c (fun u =>
    if !(d.c.disabled.contains u) then d.c.finish p 0x623 []
    else (d.c.oweTest u).wait p (.enable u)))

/-! ## BIST (R470 to R472) -/

/-- Units in scope that BIST does not skip. -/
def Core.bistTested (c : Core) (scope idx : Nat) (memory : Bool) : List SUnit := (bistUnits scope idx memory).filter c.usable

/-- Whether the device is quiet. -/
def Core.quiet (c : Core) : Bool := c.devState = .ready && !c.anyJob && !c.anyRun

/-- BIST_RUN: the cells tested lose their SRAM; with the memory test the arrays in scope are overwritten. -/
def execBistRun (p : Packet) (s : State) : Host.Outcome State Fault Refusal :=
  hostCmd (Cmd.plain 0x601 false [64, 64, 64]) p s (fun d =>
    if 4 ≤ p.arg 0 ∨ 2 ≤ p.arg 2 ∨ (if p.arg 0 = 0 then 576 else if p.arg 0 = 1 then 64 else if p.arg 0 = 2 then 4 else 1) ≤ p.arg 1 then
      d.c.finish p 0x620 []
    else if !d.c.quiet ∨ (p.arg 2 = 1 ∧ d.c.ctxs ≠ []) then d.c.finish p 0x621 []
    else
      let us := d.c.bistTested (p.arg 0) (p.arg 1) (p.arg 2 = 1)
      let c1 := us.foldl (fun c u => (c.rset (u.base + 0x200) (c.rget (u.base + 0x200) / 16 * 16 + 2)).rset (u.base + 0x230) 0) d.c
      { c1 with devState := .testing, sram := [], sramEpoch := c1.sramEpoch + 1,
                hbm := c1.hbm.filter (fun e => !(us.contains (.stack (e.1 / 2 ^ 36)))),
                words := c1.words.filter (fun e => !(us.contains (.stack (e.1 / 2 ^ 30)))) }.wait p
        (.bist (p.arg 0) (p.arg 1) (p.arg 2 = 1)))

/-- The BIST in progress. -/
def Core.bistNow (c : Core) : Option (Nat × Nat × Bool) :=
  c.waiting.findSome? (fun w => match w.kind with | .bist s i m => some (s, i, m) | _ => none)

/-- BIST_DONE: units that fail are fenced as lasting; the device is ready again unless it has stopped. -/
def execBistDone (failed : List SUnit) (s : State) : Host.Outcome State Fault Refusal :=
  s.guard (failed.all SUnit.valid) (fun d =>
    match d.c.devState, d.c.bistNow with
    | .testing, some (sc, i, m) =>
      let us := d.c.bistTested sc i m
      let bad := us.filter (fun u => failed.contains u)
      let c1 := ({ d.c.bistOutcome us bad m with devState := .ready } : Core).applyService bad [] []
      c1.replyWaiting (fun w => match w.kind with | .bist _ _ _ => true | _ => false) 0 [us.length, bad.length, c1.fenceGen]
    | _, _ => d.c)

/-! ## Failure counts (R468, R478) -/

/-- The record of FAIL_READ. -/
def Core.failRecord (c : Core) : List Byte :=
  let n (u : SUnit) : Byte := BitVec.ofNat 8 (kgetD c.failCnt u 0)
  (List.range 576).map (fun i => n (.cell i)) ++ (List.range 64).map (fun i => n (.die i)) ++
  (List.range 36).map (fun i => n (.link i)) ++ (List.range 24).map (fun i => n (.stack i)) ++
  (List.range 4).map (fun i => n (.region i)) ++ zeros 320

/-- FAIL_READ. -/
def execFailRead (p : Packet) (s : State) : Host.Outcome State Fault Refusal :=
  hostCmd (Cmd.plain 0x605 false [64]) p s (fun d =>
    if p.arg 0 % 64 ≠ 0 then d.c.finish p 0x620 []
    else match d.c.hostRecord (p.arg 0) d.c.failRecord with
      | some c1 => c1.finish p 0 []
      | none => d.c.finish p 0x102 [])

/-- FAIL_FORGET: counts cleared here and in flash; fences and retired plots change at the next start. -/
def execFailForget (p : Packet) (s : State) : Host.Outcome State Fault Refusal :=
  hostCmd (Cmd.plain 0x606 false [64]) p s (fun d =>
    if d.pw.holdup < 80 then d.c.finish p 0x624 []
    else if p.arg 0 = 2 ^ 64 - 1 then
      { d.c with failCnt := [], failFlash := [], retiredFlash := [], forgotten := d.c.retired }.finish p 0 []
    else onUnit p d.c (fun u => { d.c with failCnt := kdel d.c.failCnt u, failFlash := kdel d.c.failFlash u }.finish p 0 []))

/-- FAILCOUNT_FLASH_WRITE. -/
def execFailcountFlashWrite (s : State) : Host.Outcome State Fault Refusal :=
  s.onCore (fun d =>
    if d.c.failDirty ∧ 80 ≤ d.pw.holdup then
      { d.c with
        failFlash := d.c.failCnt, retiredFlash := d.c.retired.filter (fun r => !(d.c.forgotten.contains r)), failDirty := false }
    else d.c)

end Sys2Proof.Machine
end

