-- ==== Sys2Proof/Machine/Registers.lean ====
section
/-!
DEFINITION. BAR0: every register of every block and window, what it reads, and what an access of the host does to it (R7 to R10,
R22 to R33, R80, R81, R187, R188, R252, R258, R327, R328, R371, R372, R390 to R392, R399, R426, R452, R453, R460 to R464, R473, R490).
-/
namespace Sys2Proof.Machine
open Sys2Proof

/-! ## The register map -/

/-- Access codes (R7); `inj` is RW with R464's checks. -/
inductive Access where
  | ro | rc | w1c | rws | inj
  deriving DecidableEq, Repr

/-- A register: its offset in its block or window, its width in bits, its access code. -/
structure RegDef where
  off : Nat
  width : Nat
  acc : Access
  deriving DecidableEq, Repr

/-- Registers of 32 bits and of 64 bits with one access code. -/
def r32 (acc : Access) (offs : List Nat) : List RegDef := offs.map (fun o => RegDef.mk o 32 acc)
def r64 (acc : Access) (offs : List Nat) : List RegDef := offs.map (fun o => RegDef.mk o 64 acc)

/-- The common part (R24, R25, R460 to R463, R473). ERR_FIRST and ERR_ACTION are taken by the fields of R461 and R462. -/
def commonRegs (u : SUnit) : List RegDef :=
  r32 .ro [0x000, 0x004, 0x008, 0x00C, 0x010] ++
  r32 .w1c [0x100] ++ r32 .ro [0x104] ++ r64 .rc [0x108] ++ r32 .rc [0x110, 0x114, 0x118, 0x11C] ++
  r64 .rws [0x120, 0x128, 0x130] ++ r32 .rws [0x138, 0x13C] ++ r64 .rws [0x140] ++ r32 .rws [0x148, 0x14C, 0x150, 0x154, 0x158, 0x15C] ++
  r64 .inj (((List.range 16).filter (detExists u)).map (fun i => 0x180 + 8 * i)) ++
  r32 .ro [0x200] ++ r32 .rc [0x208] ++ r64 .ro [0x210, 0x218, 0x220, 0x228] ++ r32 .ro [0x230]

/-- Unit-specific registers of the chip block (R29, R426). -/
def chipRegs : List RegDef :=
  r32 .ro [0x400, 0x408] ++ r64 .ro [0x410, 0x418] ++ r32 .ro [0x420, 0x428] ++ r32 .ro ((List.range 18).map (fun i => 0x440 + 4 * i)) ++
  r32 .w1c [0x490] ++ r64 .rws [0x498] ++ r32 .ro ((List.range 16).map (fun i => 0x500 + 4 * i)) ++ r64 .rc [0x540] ++
  r32 .ro [0x548] ++ r32 .rc [0x54C, 0x550] ++ r32 .ro [0x554] ++ r32 .rc [0x558] ++ r32 .ro [0x55C] ++ r64 .ro [0x560] ++
  r32 .rc [0x568] ++ r64 .ro [0x570]

/-- Unit-specific registers of sub-unit windows by kind (R80, R187, R252, R258, R327, R372, R390, R452). -/
def subRegs : Nat → List RegDef
  | 0 => r32 .ro [0x400, 0x408] ++ r64 .ro [0x410] ++ r64 .rc [0x418]
  | 1 => r32 .ro [0x400, 0x404, 0x408, 0x40C, 0x410] ++ r64 .rc [0x418, 0x420] ++ r32 .ro [0x428] ++ r64 .rws [0x430] ++
      r64 .ro ((List.range 16).map (fun i => 0x440 + 8 * i))
  | 3 => r64 .ro [0x400]
  | 5 => r32 .ro [0x400, 0x404, 0x408, 0x40C] ++ r64 .ro [0x410] ++ r32 .rc [0x418, 0x41C]
  | 7 => r32 .ro [0x400] ++ r64 .ro [0x408] ++ r32 .ro [0x410, 0x414, 0x418, 0x41C, 0x420, 0x428] ++ r64 .ro [0x430] ++ r64 .rc [0x438] ++
      r32 .rc [0x440]
  | 8 => r32 .ro [0x400, 0x408] ++ r64 .rc [0x410, 0x418] ++ r32 .rc [0x420, 0x424] ++ r32 .ro [0x428] ++ r32 .rc [0x42C] ++
      r64 .rc [0x430] ++ r32 .rc [0x438]
  | 9 => r32 .ro [0x400, 0x408, 0x410] ++ r64 .rc [0x418, 0x420] ++ r32 .rc [0x428] ++ r32 .ro [0x430]
  | 11 => r32 .ro [0x400] ++ r64 .rc [0x408, 0x410] ++ r32 .rc [0x418]
  | 12 => r32 .ro [0x400] ++ r64 .rc [0x408] ++ r32 .rc [0x410, 0x414, 0x418]
  | _ => []

/-- Unit-specific registers of a link block (R371). -/
def linkRegs : List RegDef :=
  r32 .ro [0x400, 0x404, 0x408] ++ r64 .rc [0x410, 0x418, 0x420] ++ r32 .rc [0x428, 0x42C, 0x430, 0x434, 0x438, 0x43C] ++ r64 .ro [0x440]

/-- Every register of a block or window. -/
def regsOf (u : SUnit) : List RegDef :=
  commonRegs u ++
  (match u with
   | .chip => chipRegs
   | .link _ => linkRegs
   | .sub _ k _ => subRegs k
   | _ => [])

/-- The register that an offset lies in. -/
def regAt (u : SUnit) (o : Nat) : Option RegDef := (regsOf u).find? (fun r => r.off ≤ o && o < r.off + r.width / 8)

/-! ## What the registers hold -/

/-- BLK_LOC (R490). -/
def blkLoc (u : SUnit) : Nat :=
  let at_ (d pos : Nat) : Nat := 2 ^ 24 * dieRegion d + 2 ^ 16 * dieLocal d + pos
  match u with
  | .chip => 0
  | .region r => 2 ^ 24 * r
  | .die d => at_ d 0
  | .cell n => at_ (cellDie n) (n % 16)
  | .link l => at_ (linkDie l) (l % 3)
  | .stack m => at_ (portDie m) (m % 2)
  | .sub d k i => at_ d (if k = 7 then i else 0)

/-- BLK_CAP (R144, R164, R327, R371, R390, R452, R490). -/
def blkCap : SUnit → Nat
  | .cell _ => 0x40F
  | .link _ => 1
  | .sub d 1 _ => if d = 0 then 1 else 0
  | .sub d 5 _ => if d = 0 then 7 else 0
  | .sub d 7 _ => if isTensor d then 0xF else 0xE
  | .sub _ 8 _ => 0x1F
  | _ => 0

/-- The identity window (R25). -/
def Core.identity (c : Core) (u : SUnit) (o : Nat) : Nat :=
  if o = 0 then blkId u else if o = 4 then 0xA1 else if o = 8 then c.blkState u else if o = 0xC then blkCap u else blkLoc u

/-- A fence register or another register of the chip block (R29, R426). -/
def Core.chipReg (c : Core) (o : Nat) : Nat :=
  if o = 0x400 then c.devNumReg
  else if o = 0x408 then c.fenceRegion
  else if o = 0x410 then c.fenceDie
  else if o = 0x418 then c.fenceLink
  else if o = 0x420 then c.fenceStack
  else if o = 0x428 then c.fenceGen
  else if o < 0x488 then c.fenceCell ((o - 0x440) / 4)
  else if 0x500 ≤ o ∧ o < 0x540 then mask 32 (fun b => (kget c.busy (32 * ((o - 0x500) / 4) + b)).isSome)
  else if o = 0x548 then c.inflight % 2 ^ 11
  else if o = 0x554 then c.devStateReg
  else if o = 0x558 then c.event.toNat
  else if o = 0x55C then c.windowReg
  else if o = 0x560 then (match c.window with | some (_, b) => b % 2 ^ 45 | none => 0)
  else c.rget o

/-- A step-sequencer slice window (R80, R81). -/
def Core.seqReg (c : Core) (d o : Nat) : Nat :=
  let shown : Nat × Nat × Nat := if d = 0 then (c.seqState, c.seqPc % 2 ^ 24, c.stepNow) else kgetD c.hubSeen (dieRegion d) (0, 0, 0)
  if o = 0x400 then shown.1 else if o = 0x408 then shown.2.1 else if o = 0x410 then shown.2.2 else c.rget (subBase d 0 0 + o)

/-- The hottest of a list of readings and the place of it, the lowest on a tie. -/
def hottestAt (l : List Int) : Int × Nat := (hottest l, (findIx l (fun v => v = hottest l)).getD 0)

/-- A reading in a byte; below 0 °C it reads 0 (R390). -/
def tempByte (t : Int) : Nat := min 255 t.toNat

/-- A governor slice window (R390 to R392). -/
def Dev.govReg (d : Dev) (hub o : Nat) : Nat :=
  let g := d.gov
  let r := dieRegion hub
  let dies := (g.dieT.drop (16 * r)).take 16
  if o = 0x400 then
    g.inForce + 2 ^ 4 * g.cls + 2 ^ 8 * g.hold + 2 ^ 12 * b2n g.fix.isSome + 2 ^ 13 * b2n g.floorFlag + 2 ^ 14 * b2n g.thermFlag +
      2 ^ 15 * b2n g.pwrFlag + 2 ^ 16 * g.opMin + 2 ^ 20 * g.opMax
  else if o = 0x404 then 2 ^ 16 * g.cap + g.modCap
  else if o = 0x408 then (if hub = 0 then g.power % 2 ^ 32 else 0)
  else if o = 0x40C then g.current.getD r 0 % 2 ^ 16
  else if o = 0x410 then
    let hd := hottestAt (dies.map hottest)
    let hs := hottestAt ((g.stackT.drop (6 * r)).take 6)
    tempByte hd.1 + 2 ^ 8 * tempByte hs.1 + 2 ^ 16 * hd.2 + 2 ^ 20 * hs.2
  else if o = 0x418 then d.c.rget govChanges
  else if o = 0x420 then d.c.rget govHolds
  else if o = 0x428 then (d.c.gated.filter (fun n => dieRegion (cellDie n) = r)).length
  else if o = 0x430 then kgetD g.trips r 0
  else ofLe (((dies.getD ((o - 0x440) / 8) []).take 8).map (fun t => BitVec.ofNat 8 (tempByte t)))

/-- The security engine window of D00 (R452, R453). -/
def Dev.secReg (d : Dev) (o : Nat) : Nat :=
  if o = 0x400 then d.tr.secState
  else if o = 0x404 then d.tr.secSvn
  else if o = 0x408 then d.tr.fwVersion
  else if o = 0x40C then d.pw.holdup % 2 ^ 8
  else if o = 0x410 then d.tr.received
  else d.c.rget (subBase 0 5 0 + o)

/-- A stream engine window (R187, R188). -/
def Core.seReg (c : Core) (d e o : Nat) : Nat :=
  let g := kgetD c.engines (d, e) Engine.idle
  if o = 0x400 then
    (match g.pass with
     | some p => (if g.stopping then 3 else if p.parked.isSome then 2 else 1) + 2 ^ 4 * (p.parked.getD 0) + 2 ^ 8 * (p.desc % 4096) +
         2 ^ 20 * (p.ctx % 16) + 2 ^ 25 * b2n p.overrun
     | none => (if g.stopping then 3 else 0) + 2 ^ 8 * (g.lastDesc % 4096) + 2 ^ 20 * (g.lastCtx % 16) + 2 ^ 25 * b2n g.overrun)
  else if o = 0x408 then g.curTile
  else if o < 0x424 then g.cursor.getD ((o - 0x410) / 4) 0 % 2 ^ 32
  else if o = 0x428 then g.curIx % 2 ^ 32
  else if o = 0x430 then g.faultAddr
  else c.rget (subBase d 7 e + o)

/-- The action that a column runs and has not finished. -/
def Core.busyWith (c : Core) (u : UnitId) : Option RunAct := (c.running u).bind (fun r => if r.done then none else some r)

/-- What an update unit's sweep does now (R328): waits for ring room or for a plot, or sweeps a shard. -/
def Core.sweepCode (c : Core) (d : Nat) (w : SweepSt) : Nat :=
  if c.recordsWait w.ctx d then 5
  else
    let plan := c.entry w.ctx tPlan w.plan
    match c.shardList w.ctx plan, w.order[w.pos]? with
    | .ok l, some i =>
      let ps := c.shardPlots w.ctx plan (l.getD i 0)
      if ps.any (fun p => c.plotSt w.ctx p ≠ some .resident && !(c.plotSt w.ctx p = some .host && c.hostPath w.ctx p)) then 4
      else if ps.any (fun p => c.plotSt w.ctx p = some .host) then 3 else 2
    | _, _ => 2

/-- An update unit window (R327, R328). -/
def Core.uuReg (c : Core) (d o : Nat) : Nat :=
  if o = 0x400 then
    match c.busyWith (.uu d) with
    | none => (match kget c.cols (.uu d) with
      | some { run := none, queue := a :: _, .. } =>
        if c.waitsMet (some (.uu d)) ((actWaits a.bits).map (fun w => (w.2, tokPlace (.uu d) w.1))) && c.verdictHeld a then
          1 + 2 ^ 12 * (a.ctx % 16) + 2 ^ 16 * aEntry a.bits
        else 0
      | _ => 0)
    | some r =>
      let code := if !r.started then 1 else if r.a.op = 0x72 then 6 else match kget c.sweeps d with | some w => c.sweepCode d w | none => 1
      code + 2 ^ 12 * (r.a.ctx % 16) + 2 ^ 16 * aEntry r.a.bits
  else if o = 0x408 then
    match kget c.sweeps d with
    | some w => w.order.getD w.pos 0 % 2 ^ 17
    | none => 0
  else c.rget (subBase d 8 0 + o)

/-- Plots of a stack that arrive or leave. -/
def Core.movingIn (c : Core) (m : Nat) (st : PlotSt) : Nat :=
  (c.ctxs.map (fun (x : Nat × Ctx) => (x.2.objs.map (fun (o : Nat × Obj) =>
    (o.2.plotsWhere (fun i e => e.st = st && o.2.stackOf i = m)).length)).sum)).sum

/-- Whether an eviction for need has plots leaving a stack. -/
def Core.needEviction (c : Core) (m : Nat) : Bool :=
  c.ctxs.any (fun (x : Nat × Ctx) => x.2.objs.any (fun (o : Nat × Obj) => o.2.need &&
    !(o.2.plotsWhere (fun i e => e.st = .leaving && o.2.stackOf i = m)).isEmpty))

/-- A pool engine window (R252). -/
def Core.peReg (c : Core) (d o : Nat) : Nat :=
  let m := 6 * dieRegion d + 2 * (dieLocal d - 10)
  if o = 0x400 then
    b2n (c.needEviction m || c.needEviction (m + 1)) +
      2 * b2n ([m, m + 1].any (fun k => c.stackOk k && decide (c.freeShared k < c.marks.1)))
  else if o = 0x408 then c.freeShared m % 2 ^ 16 + 2 ^ 16 * (c.freeShared (m + 1) % 2 ^ 16)
  else if o = 0x410 then
    (c.movingIn m .leaving + c.movingIn (m + 1) .leaving) % 2 ^ 16 +
      2 ^ 16 * ((c.movingIn m .arriving + c.movingIn (m + 1) .arriving) % 2 ^ 16)
  else if o = 0x430 then kgetD c.scrub m 0 + 2 ^ 16 * kgetD c.scrub (m + 1) 0
  else c.rget (subBase d 9 0 + o)

/-- A reduction unit window (R372). -/
def Core.ruReg (c : Core) (d o : Nat) : Nat :=
  if o = 0x400 then
    match c.busyWith (.ru d) with
    | some r => if r.a.op = 0x81 then 1 + 2 ^ 12 * (r.a.ctx % 16) + 2 ^ 16 * aEntry r.a.bits else 0
    | none => 0
  else c.rget (subBase d 11 0 + o)

/-- A dispatch engine window (R372): counting until every grant asked for could be made, then granting, then sending, or combining. -/
def Core.deReg (c : Core) (d o : Nat) : Nat :=
  if o = 0x400 then
    match c.busyWith (.de d) with
    | some r =>
      let dp := c.disp r.a.ctx (aEntry r.a.bits)
      if r.a.op ≠ 0x91 ∧ r.a.op ≠ 0x92 then 0 else
      (if r.a.op = 0x92 then 4 else if dp.sent then 3 else if dp.given.isEmpty then 1 else 2) + 2 ^ 12 * (r.a.ctx % 16) +
        2 ^ 16 * aEntry r.a.bits
    | none => 0
  else c.rget (subBase d 12 0 + o)

/-- A link block (R371). -/
def Core.linkReg (c : Core) (l o : Nat) : Nat :=
  let k := c.link l
  let seen := if k.st = .up ∨ k.st = .retraining then k.far else none
  if o = 0x400 then
    (match k.st with | .down => 0 | .training => 1 | .up => 2 | .retraining => 3 | .disabled => 4) + 2 ^ 4 * b2n k.key.isSome +
      2 ^ 8 * (match seen with | some f => 2 ^ min f.lanes 8 - 1 | none => 0)
  else if o = 0x404 then
    match seen with
    | some f => 2 ^ 31 + 2 ^ 30 * b2n f.mapped + 2 ^ 24 * (f.link % 64) + (if f.mapped then f.dev % 2 ^ 15 else 0)
    | none => 0
  else if o = 0x408 then
    match k.far with
    | some f => f.rtt % 2 ^ 32
    | none => 0
  else if o = 0x440 then k.credReply % 2 ^ 16 + 2 ^ 16 * (k.credBulk % 2 ^ 16) + 2 ^ 32 * (k.credEscape % 2 ^ 16)
  else c.rget (linkBase l + o)

/-- The live value of a register of a block or window, by its offset. -/
def Dev.regVal (d : Dev) (u : SUnit) (o : Nat) : Nat :=
  if o < 0x100 then d.c.identity u o
  else if 0x120 ≤ o ∧ o < 0x160 then d.c.rget (u.base + o / 8 * 8) / 2 ^ (8 * (o % 8))
  else if o < 0x400 then d.c.rget (u.base + o)
  else match u with
    | .chip => d.c.chipReg o
    | .link l => d.c.linkReg l o
    | .sub h 0 _ => d.c.seqReg h o
    | .sub h 1 _ => d.govReg h o
    | .sub h 3 _ => d.c.now (dieRegion h) % 2 ^ 64
    | .sub _ 5 _ => d.secReg o
    | .sub h 7 e => d.c.seReg h e o
    | .sub h 8 _ => d.c.uuReg h o
    | .sub h 9 _ => d.c.peReg h o
    | .sub h 11 _ => d.c.ruReg h o
    | .sub h 12 _ => d.c.deReg h o
    | _ => 0

/-! ## Rules of every access (R14, R28 to R33) -/

/-- Whether a unit's whole region reads as zero and drops writes: it is fenced (R28). -/
def Core.silent (c : Core) (u : SUnit) : Bool := u ≠ .chip && c.fenced.contains (.region u.region')

/-- Whether self-test and unit-specific windows of a unit read as zero and drop writes: it is out of service or in standby (R28). -/
def Core.shut (c : Core) (u : SUnit) (o : Nat) : Bool :=
  u ≠ .chip && decide (0x200 ≤ o) && (c.isFenced u || c.isDisabled u || u.standby)

/-- What a register reads, R28 applied. -/
def Dev.readVal (d : Dev) (u : SUnit) (r : RegDef) : Nat :=
  if d.c.silent u || d.c.shut u r.off then 0 else d.regVal u r.off % 2 ^ r.width

/-- An access recorded in BAR0_FAULT, and its offset if it is the first (R29 to R31). -/
def Core.barFault (c : Core) (b off : Nat) : Core :=
  let c1 := if c.rget 0x490 = 0 then c.rset 0x498 off else c
  c1.rset 0x490 (c1.rget 0x490 ||| 2 ^ b)

/-- DEV_EVENT bits set by events (R425). -/
def Core.devEvents (c : Core) (m : Nat) : Core := (List.range 9).foldl (fun c i => if bit m i then c.devEvent i else c) c

/-- Where an RC register is kept: GOV_CHANGES and GOV_HOLDS are one each for the chip (R390). -/
def rcAddr (u : SUnit) (off : Nat) : Nat :=
  match u with
  | .sub _ 1 _ => if off = 0x418 then govChanges else if off = 0x420 then govHolds else u.base + off
  | _ => u.base + off

/-- Bits of an RC register that are not reserved: BAR2_FAULT has two (R10, R426); the counters use their whole width. -/
def rcBits (u : SUnit) (r : RegDef) : Nat := if u = .chip ∧ r.off = 0x568 then 3 else 2 ^ r.width - 1

/-- An RC register cleared by a read; what happens during the read is there for the next (R7, R9). -/
def Core.clearRc (c : Core) (u : SUnit) (r : RegDef) (during : Nat) : Core :=
  if u = .chip ∧ r.off = 0x558 then { c with event := 0 }.devEvents during
  else c.rset (rcAddr u r.off) (during &&& rcBits u r)

/-- What an RC register counts or sets during a read that does not clear it (R9). -/
def Core.meanwhile (c : Core) (u : SUnit) (r : RegDef) (during : Nat) : Core :=
  if r.acc ≠ .rc ∨ during = 0 then c
  else if u = .chip ∧ r.off = 0x558 then c.devEvents during
  else if u = .chip ∧ r.off = 0x568 then c.rset 0x568 (c.rget 0x568 ||| (during &&& rcBits u r))
  else c.bump (rcAddr u r.off) r.width during

/-- A read of a whole register: its value, and an RC register cleared. -/
def Dev.readReg (d : Dev) (u : SUnit) (r : RegDef) (during : Nat) : Nat × Core :=
  (d.readVal u r, if r.acc = .rc && !(d.c.silent u) && !(d.c.shut u r.off) then d.c.clearRc u r during else d.c.meanwhile u r during)

/-- A 4-byte read at an offset of a block (R33). -/
def Dev.readPart (d : Dev) (u : SUnit) (o off during : Nat) : Nat × Core :=
  match regAt u o with
  | none => (0, d.c.barFault 0 off)
  | some r =>
    if r.width = 32 then d.readReg u r during
    else if o = r.off then
      let v := d.readReg u r during
      (v.1 % 2 ^ 32, { v.2 with latch := kset v.2.latch (off + 4) (v.1 / 2 ^ 32) })
    else match kget d.c.latch off with
      | some h => (h, { d.c.meanwhile u r during with latch := kdel d.c.latch off })
      | none => (d.readVal u r / 2 ^ 32, d.c.meanwhile u r during)

/-- First byte and end of the MSI-X table and of the pending-bit array: 64 vectors (R399). -/
def msixLo : Nat := 0x00F00000
def msixEnd : Nat := 0x00F00400
def pbaLo : Nat := 0x00F01000
def pbaEnd : Nat := 0x00F01008

/-- A doubleword of the MSI-X table or the pending-bit array. -/
def Core.msixRead (c : Core) (off : Nat) : Nat :=
  if off < msixEnd then kgetD c.reg off (if off % 16 = 12 then 1 else 0)
  else mask 32 (fun b => c.msixPend.contains (8 * (off - pbaLo) + b))

/-- A doubleword of the MSI-X table written; a pending message of a vector then unmasked is sent (R425). -/
def Core.msixWrite (c : Core) (off v : Nat) : Core :=
  if msixEnd ≤ off then c
  else if off % 16 = 12 then
    let n := (off - msixLo) / 16
    let c1 := c.rset off (v % 2)
    if v % 2 = 0 ∧ n ∈ c1.msixPend then { c1 with msixPend := c1.msixPend.filter (· ≠ n), out := c1.out ++ [.msix n] } else c1
  else c.rset off (v % 2 ^ 32)

/-- Whether an offset lies in them. -/
def inMsix (off : Nat) : Bool := (msixLo ≤ off && off < msixEnd) || (pbaLo ≤ off && off < pbaEnd)

/-- The internal datapath parity of the PCIe port (R457): an armed control takes the access, which is dropped. -/
def Core.portCheck (c : Core) : Bool × Core :=
  match c.inject (.sub 0 6 0) 0 with
  | (some _, c1) =>
    (true, { (c1.error (.sub 0 6 0) 0 0 (Config.syndrome c1.freeCtr % 2 ^ 32) false true true).drawn with out := c1.out ++ [.aer] })
  | (none, c1) => (false, c1)

/-- Whether an access has a size and an alignment that BAR0 supports (R31). -/
def accessOk (off size : Nat) : Bool := (size = 4 || size = 8) && off % size = 0

/-- A read of a supported size, with the core after it. -/
def Dev.readAt (d : Dev) (off size during : Nat) : Nat × Core :=
  if inMsix off then
    (if size = 4 then (d.c.msixRead off, d.c) else (d.c.msixRead off + 2 ^ 32 * d.c.msixRead (off + 4), d.c))
  else match unitAt off with
    | none => (0, d.c.barFault 0 off)
    | some (u, o) =>
      if size = 4 then d.readPart u o off during
      else match regAt u o with
        | some r =>
          if r.width = 64 then d.readReg u r during
          else
            let a := d.readPart u o off (during % 2 ^ 32)
            let b := ({ d with c := a.2 } : Dev).readPart u (o + 4) (off + 4) (during / 2 ^ 32)
            (a.1 + 2 ^ 32 * b.1, b.2)
        | none =>
          let a := d.readPart u o off (during % 2 ^ 32)
          let b := ({ d with c := a.2 } : Dev).readPart u (o + 4) (off + 4) (during / 2 ^ 32)
          (a.1 + 2 ^ 32 * b.1, b.2)

/-- A BAR0 read by the host; its data leave as a completion. -/
def Dev.bar0Read (d : Dev) (off size during : Nat) : Core :=
  if !d.portUp then d.c
  else match d.c.portCheck with
    | (true, c1) => c1
    | (false, _) =>
      if accessOk off size then
        let v := d.readAt off size during
        { v.2 with out := v.2.out ++ [.completion (leBytes v.1 size) false] }
      else
        let c1 := d.c.barFault 1 off
        { c1 with out := c1.out ++ [.completion (zeros size) false] }

/-! ## Writes -/

/-- Whether the device drops a write to a defined register that is not RO (R14, R28, R32). -/
def Core.drops (c : Core) (u : SUnit) (o : Nat) : Bool :=
  c.silent u || u.standby || c.shut u o || (c.anyJob && decide (0x400 ≤ o) && !(u = .chip && decide (0x490 ≤ o) && decide (o < 0x4A0)))

/-- Bits of ERR_FIRST and ERR_ACTION that are not reserved, by the word of eight bytes (R10, R461, R462). -/
def recMask (o : Nat) : Nat :=
  if o = 0x120 then 0x807F0FFFFFFFFFFF
  else if o = 0x140 then 0x80000FFFFFFFFFFF
  else if o = 0x148 then 0xFFFFFFFF00FFFFFF
  else if o = 0x150 then 0xFFFFFFFF008783FF
  else if o = 0x158 then 0x00000000FFFFFFFF
  else 0xFFFFFFFFFFFFFFFF

/-- Four bytes of a word of eight replaced: the low ones, or the high ones for an offset that ends in 4. -/
def mergeHalf (w o v : Nat) : Nat :=
  if o % 8 = 0 then w / 2 ^ 32 * 2 ^ 32 + v % 2 ^ 32 else w % 2 ^ 32 + 2 ^ 32 * (v % 2 ^ 32)

/-- A word of eight bytes after a write of four or eight. -/
def mergeWord (w o size v : Nat) : Nat := if size = 8 then v % 2 ^ 64 else mergeHalf w o v

/-- A word of ERR_FIRST or ERR_ACTION written; the first word at zero clears the record (R461, R462). -/
def Core.recWrite (c : Core) (u : SUnit) (o size v : Nat) : Core :=
  let a := o / 8 * 8
  let w := mergeWord (c.rget (u.base + a)) o size v &&& recMask a
  if a % 32 = 0 ∧ w = 0 then [0, 8, 16, 24].foldl (fun c k => c.rset (u.base + a + k) 0) c else c.rset (u.base + a) w

/-- Bits of an injection control that are not reserved (R463). -/
def injMask : Nat := 0xF0FF0000FFFFFFFF

/-- Whether detector 0 of a block is an action check (R457). -/
def actionCheck (u : SUnit) (det : Nat) : Bool :=
  det = 0 && (match u with | .cell _ => true | .sub _ k _ => k = 7 || k = 8 || k = 11 || k = 12 | _ => false)

/-- A control as written: cleared where it is armed with a reserved value, or an action check with a MODE other than 0b10 (R464). -/
def injValue (u : SUnit) (det w : Nat) : Nat :=
  let v := w &&& injMask
  if bit v 63 && (bits v 61 60 = 3 || bits v 55 48 = 0 || (actionCheck u det && bits v 61 60 ≠ 2)) then 0 else v

/-- Whether a detector makes its next checks at once, with no action that asks for them: those of the chip and of D00's processor and
security engine, and those of a hub die. -/
def checksAtOnce (u : SUnit) (det : Nat) : Bool :=
  chipDetector u det || (match u with | .die d => isHub d && det ≤ 1 | _ => false)

/-- One such check with its injection. A hub die's transfers carry no work of a step here. -/
def Core.atOnce (c : Core) (u : SUnit) (det : Nat) : Core :=
  let synd := Config.syndrome c.freeCtr % 2 ^ 32
  match u, det with
  | .die _, 0 => (match c.transfer u 4 with | (c1, true) => (c1.error u 0 0 synd false true true).drawn | (c1, false) => c1)
  | _, _ =>
    match c.inject u det with
    | (some _, c1) =>
      if chipDetector u det then (c1.errorAt (.cell 0 .f) u det 0 synd true).drawn else (c1.error u det 0 synd false true true).drawn
    | (none, c1) => c1

/-- An injection control written (R463, R464). -/
def Core.injWrite (c : Core) (u : SUnit) (o size v : Nat) : Core :=
  let a := o / 8 * 8
  let det := (a - 0x180) / 8
  let c1 := c.rset (u.base + a) (injValue u det (mergeWord (c.rget (u.base + a)) o size v))
  if checksAtOnce u det then
    (List.range 255).foldl (fun c _ => if bit (c.rget (injAddr u det)) 63 then c.atOnce u det else c) c1
  else c1

/-- Bits of a W1C register that are not reserved (R10): the detectors of ERR_FLAGS (R457), the three of BAR0_FAULT (R30). -/
def w1cBits (u : SUnit) (off : Nat) : Nat := if off = 0x100 then mask 16 (detExists u) else 7

/-- A register written by its access code (R7, R8). GOV_TRIP with a trip in it is cleared by a cold reset only (R392). -/
def Dev.writeReg (d : Dev) (u : SUnit) (r : RegDef) (o size v during : Nat) : Dev :=
  match r.acc with
  | .ro => d
  | .rc => d
  | .w1c =>
    let kept := d.c.rget (u.base + r.off) &&& (0xFFFFFFFF ^^^ v % 2 ^ 32)
    { d with c := d.c.rset (u.base + r.off) ((kept ||| during) &&& w1cBits u r.off) }
  | .inj => { d with c := d.c.injWrite u o size v }
  | .rws =>
    if o < 0x400 then { d with c := d.c.recWrite u o size v }
    else match u with
    | .sub h 1 _ =>
      let w := kgetD d.gov.trips (dieRegion h) 0
      if bit w 63 then d else { d with gov := { d.gov with trips := kset d.gov.trips (dieRegion h) (mergeWord w o size v) } }
    | _ => { d with c := d.c.rset (u.base + r.off) (mergeWord (d.c.rget (u.base + r.off)) o size v) }

/-- A write of four bytes, or of the eight of a 64-bit register. -/
def Dev.writePart (d : Dev) (u : SUnit) (o off size v during : Nat) : Dev :=
  match regAt u o with
  | none => { d with c := d.c.barFault 0 off }
  | some r =>
    if r.acc = .ro then d
    else if d.c.drops u o then { d with c := d.c.barFault 2 off }
    else d.writeReg u r o size v during

/-- A write of a supported size. -/
def Dev.writeAt (d : Dev) (off size v during : Nat) : Dev :=
  if inMsix off then
    (if size = 4 then { d with c := d.c.msixWrite off v }
     else { d with c := (d.c.msixWrite off (v % 2 ^ 32)).msixWrite (off + 4) (v / 2 ^ 32) })
  else match unitAt off with
    | none => { d with c := d.c.barFault 0 off }
    | some (u, o) =>
      if size = 4 || (match regAt u o with | some r => decide (r.width = 64) | none => false) then d.writePart u o off size v during
      else (d.writePart u o off 4 (v % 2 ^ 32) (during % 2 ^ 32)).writePart u (o + 4) (off + 4) 4 (v / 2 ^ 32) (during / 2 ^ 32)

/-- A BAR0 write by the host. -/
def Dev.bar0Write (d : Dev) (off size v during : Nat) : Dev :=
  if !d.portUp then d
  else match d.c.portCheck with
    | (true, c1) => { d with c := c1 }
    | (false, _) =>
      if accessOk off size then d.writeAt off size v during else { d with c := d.c.barFault 1 off }

/-! ## The rows -/

/-- INJ_ARM: a write to an injection control. -/
def execInjArm (off size value : Nat) (s : State) : Host.Outcome State Fault Refusal :=
  s.onDev (fun d => d.bar0Write off size value 0)

/-- ERR_FLAGS_CLEAR: a write of ones to ERR_FLAGS; `during` are bits set in the same access. -/
def execErrFlagsClear (off value during : Nat) (s : State) : Host.Outcome State Fault Refusal :=
  s.onDev (fun d => d.bar0Write off 4 value during)

/-- ERR_FIRST_CLEAR: a write to ERR_FIRST. -/
def execErrFirstClear (off size value : Nat) (s : State) : Host.Outcome State Fault Refusal :=
  s.onDev (fun d => d.bar0Write off size value 0)

/-- ERR_ACTION_CLEAR: a write to ERR_ACTION. -/
def execErrActionClear (off size value : Nat) (s : State) : Host.Outcome State Fault Refusal :=
  s.onDev (fun d => d.bar0Write off size value 0)

/-- BAR0_FAULT_CLEAR: a write of ones to BAR0_FAULT. -/
def execBar0FaultClear (value during : Nat) (s : State) : Host.Outcome State Fault Refusal :=
  s.onDev (fun d => d.bar0Write 0x490 4 value during)

/-- BAR0_RESERVED_ACCESS: an access of any size anywhere; one to reserved space or of unsupported size is recorded. -/
def execBar0ReservedAccess (off size : Nat) (write : Bool) (s : State) : Host.Outcome State Fault Refusal :=
  s.onDev (fun d => if write then d.bar0Write off size 0 0 else { d with c := d.bar0Read off size 0 })

/-- RC_REGISTER_READ: a read; `during` is what the register counts or sets meanwhile. -/
def execRcRegisterRead (off size during : Nat) (s : State) : Host.Outcome State Fault Refusal :=
  s.onCore (fun d => d.bar0Read off size during)

/-- LOW_HALF_READ. -/
def execLowHalfRead (off : Nat) (s : State) : Host.Outcome State Fault Refusal := s.onCore (fun d => d.bar0Read off 4 0)

/-- HIGH_HALF_READ. -/
def execHighHalfRead (off : Nat) (s : State) : Host.Outcome State Fault Refusal := s.onCore (fun d => d.bar0Read off 4 0)

/-- REGISTER_WRITE. -/
def execRegisterWrite (off size value : Nat) (s : State) : Host.Outcome State Fault Refusal :=
  s.onDev (fun d => d.bar0Write off size value 0)

/-! ## BAR2 (R400, R401) -/

/-- Stretches of a BAR2 access within one 64-byte word, as physical bytes with their poison; none where any of it reaches nothing. -/
def Core.bar2Parts (c : Core) (off len : Nat) : Option (List (Nat × Nat × Bool)) :=
  match c.window with
  | none => none
  | some (n, b) =>
    if hbmEnd < b + off + len ∨ (c.devState = .stopped ∧ c.tripWait) then none
    else
      (chunks (b + off) (len + 1) len).foldl (fun acc k => acc.bind (fun l =>
        match c.locate n k.1 with
        | .hbm p i =>
          let g := match (c.ctx? n).bind (fun x => kget x.objs i) with | some o => o.gen | none => 0
          some (l ++ [(p, k.2, c.wordBad p n g i)])
        | _ => none)) (some [])

/-- An access that reached nothing, recorded. -/
def Core.bar2Fault (c : Core) (b off : Nat) : Core :=
  let old := c.rget 0x568
  let c1 := (if old = 0 then c.rset 0x570 off else c).rset 0x568 (old ||| 2 ^ b)
  if old = 0 then c1.devEvent 6 else c1

/-- BAR2_READ. -/
def Dev.bar2Read (d : Dev) (off len : Nat) : Core :=
  if !d.portUp then d.c
  else match d.c.portCheck with
    | (true, c1) => c1
    | (false, c) =>
      match c.bar2Parts off len with
      | none => let c1 := c.bar2Fault 0 off; { c1 with out := c1.out ++ [.completion (zeros len) false] }
      | some ps =>
        -- R248: the read checks its words, and rewrites those of another object's tag as poisoned
        let c1 := match c.window with | some (n, b) => (c.hbmRead n (b + off) len).1 | none => c
        let ps := (c1.bar2Parts off len).getD ps
        if ps.any (fun q => q.2.2) then
          { c1 with out := c1.out ++ [.completion ((List.range len).map (fun i => Config.epByte (off + i))) true] }
        else { c1 with out := c1.out ++ [.completion (ps.flatMap (fun q => mreadZ c1.hbm q.1 q.2.1)) false] }

/-- BAR2_WRITE: whole words take new data and a clean mark; a narrower write of a poisoned word leaves it poisoned (R248). -/
def Dev.bar2Write (d : Dev) (off : Nat) (data : List Byte) : Core :=
  if !d.portUp then d.c
  else match d.c.portCheck with
    | (true, c1) => c1
    | (false, c) =>
      match c.bar2Parts off data.length with
      | none => c.bar2Fault 1 off
      | some ps =>
        let c := match c.window with
          | some (n, b) => if ps.any (fun q => q.2.1 < 64) then (c.hbmRead n (b + off) data.length).1 else c
          | none => c
        let ps := (c.bar2Parts off data.length).getD ps
        (ps.foldl (fun (acc : Core × List Byte) q =>
          let c1 := acc.1.putHbm q.1 (acc.2.take q.2.1)
          (if q.2.2 && q.2.1 < 64 then c1.poison q.1 else c1, acc.2.drop q.2.1)) (c, data)).1

/-- BAR2_READ: an address beyond the BAR's size (R399) is none of the function's, and the access never reaches it. -/
def execBar2Read (off len : Nat) (s : State) : Host.Outcome State Fault Refusal :=
  s.onCore (fun d => if off + len ≤ 2 ^ d.c.cfg.bar2 then d.bar2Read off len else d.c)

/-- BAR2_WRITE. -/
def execBar2Write (off : Nat) (data : List Byte) (s : State) : Host.Outcome State Fault Refusal :=
  s.onCore (fun d => if off + data.length ≤ 2 ^ d.c.cfg.bar2 then d.bar2Write off data else d.c)

end Sys2Proof.Machine
end

