-- ==== Sys2Proof/Machine/Sideband.lean ====
section
/-!
DEFINITION. The SMBus sideband (R428, R429).
-/
namespace Sys2Proof.Machine
open Sys2Proof

/-- SMBALERT#: a sensor above 93 °C, or the device stopped. -/
def Dev.alert (d : Dev) : Bool := d.gov.dieT.flatten.any (186 < ·) || d.gov.stackT.any (186 < ·) || d.c.devState = .stopped

/-- The SB_STATE word. -/
def Dev.sbState (d : Dev) : Nat :=
  d.c.devStateReg % 16 + 2 ^ 4 * b2n d.pw.mainOk + 2 ^ 5 * b2n d.alert + 2 ^ 6 * b2n (d.gov.trips.any (fun t => bit t.2 63))

/-- An answer of the sideband, which works on the auxiliary rail alone. -/
def State.answer (s : State) (f : Dev → List Byte) : Host.Outcome State Fault Refusal :=
  s.onCore (fun d => if d.pw.auxUp then { d.c with out := d.c.out ++ [.smbus (f d)] } else d.c)

/-- A word that needs the main rail: 0xFFFF while it is off. -/
def Dev.sbWord (d : Dev) (v : Nat) : List Byte := leBytes (if d.pw.mainOk then min v 65535 else 0xFFFF) 2

/-- SB_STATE. -/
def execSbState (s : State) : Host.Outcome State Fault Refusal := s.answer (fun d => leBytes d.sbState 2)

/-- SB_TDIE. -/
def execSbTdie (s : State) : Host.Outcome State Fault Refusal := s.answer (fun d => d.sbWord (hottest d.gov.dieT.flatten).toNat)

/-- SB_THBM. -/
def execSbThbm (s : State) : Host.Outcome State Fault Refusal := s.answer (fun d => d.sbWord (hottest d.gov.stackT).toNat)

/-- SB_POWER: p in W. -/
def execSbPower (s : State) : Host.Outcome State Fault Refusal := s.answer (fun d => d.sbWord (d.gov.power / 10))

/-- SB_CAP. -/
def execSbCap (s : State) : Host.Outcome State Fault Refusal := s.answer (fun d => d.sbWord d.gov.cap)

/-- SB_OP. -/
def execSbOp (s : State) : Host.Outcome State Fault Refusal :=
  s.answer (fun d => leBytes (if d.pw.mainOk then d.gov.inForce + 16 * d.gov.cls else 0xFF) 1)

/-- SB_INVENTORY. -/
def execSbInventory (s : State) : Host.Outcome State Fault Refusal :=
  s.answer (fun _ => partNumber ++ leBytes 0xA1 1 ++ zeros 7 ++ leBytes Config.serial 8)

/-- SB_FIRMWARE. -/
def execSbFirmware (s : State) : Host.Outcome State Fault Refusal :=
  s.answer (fun d => leBytes d.tr.fwVersion 4 ++ leBytes Config.romVersion 4)

/-- Command codes that the sideband answers. -/
def sbCodes : List Nat := [0x00, 0x01, 0x02, 0x03, 0x04, 0x05, 0x10, 0x11]

/-- SB_WRITE_NACK: a write of any code, or a read of a code that R429 does not list. -/
def execSbWriteNack (code : Nat) (write : Bool) (s : State) : Host.Outcome State Fault Refusal :=
  if write || !(sbCodes.contains code) then
    s.onCore (fun d => if d.pw.auxUp then { d.c with out := d.c.out ++ [.smbusNack] } else d.c)
  else .fault .badOperand

end Sys2Proof.Machine
end

