-- ==== Sys2Proof/Machine/Dispatch.lean ====
section
/-!
DEFINITION. One arm per command of spec/opcode_table.json, each a direct call of its meaning.
-/
namespace Sys2Proof.Machine
open Sys2Proof

/-- The effect of one command on everything but the queue. -/
def exec (i : Instr) (s : State) : Host.Outcome State Fault Refusal :=
  match i with
  | .auxRailUp => Sys2Proof.Machine.execAuxRailUp s
  | .auxRailLoss => Sys2Proof.Machine.execAuxRailLoss s
  | .mainInputAccept => Sys2Proof.Machine.execMainInputAccept s
  | .corePowerGood => Sys2Proof.Machine.execCorePowerGood s
  | .mainInputUvlo => Sys2Proof.Machine.execMainInputUvlo s
  | .mainInputRecover => Sys2Proof.Machine.execMainInputRecover s
  | .perstDeassert => Sys2Proof.Machine.execPerstDeassert s
  | .pcieConventionalReset => Sys2Proof.Machine.execPcieConventionalReset s
  | .hotReset => Sys2Proof.Machine.execHotReset s
  | .functionLevelReset => Sys2Proof.Machine.execFunctionLevelReset s
  | .stageBootRomDone => Sys2Proof.Machine.execStageBootRomDone s
  | .stageFwVerifyDone => Sys2Proof.Machine.execStageFwVerifyDone s
  | .fwStagedCopyDone => Sys2Proof.Machine.execFwStagedCopyDone s
  | .stageBistDone failed => Sys2Proof.Machine.execStageBistDone failed s
  | .stageHbmTrainingDone failed => Sys2Proof.Machine.execStageHbmTrainingDone failed s
  | .stageLinkTrainingDone failed => Sys2Proof.Machine.execStageLinkTrainingDone failed s
  | .stageLocalMappingDone => Sys2Proof.Machine.execStageLocalMappingDone s
  | .apertureWrite off data => Sys2Proof.Machine.execApertureWrite off data s
  | .slotCopyDone slot => Sys2Proof.Machine.execSlotCopyDone slot s
  | .chainFetchDone n data => Sys2Proof.Machine.execChainFetchDone n data s
  | .devInfo p => Sys2Proof.Machine.execDevInfo p s
  | .devStatus p => Sys2Proof.Machine.execDevStatus p s
  | .devReset p => Sys2Proof.Machine.execDevReset p s
  | .devResetExec => Sys2Proof.Machine.execDevResetExec s
  | .devEvents p => Sys2Proof.Machine.execDevEvents p s
  | .ctxCreate p => Sys2Proof.Machine.execCtxCreate p s
  | .ctxDestroy p => Sys2Proof.Machine.execCtxDestroy p s
  | .ctxList p => Sys2Proof.Machine.execCtxList p s
  | .windowSet p => Sys2Proof.Machine.execWindowSet p s
  | .floorSet p => Sys2Proof.Machine.execFloorSet p s
  | .objAlloc p => Sys2Proof.Machine.execObjAlloc p s
  | .objFree p => Sys2Proof.Machine.execObjFree p s
  | .objHint p => Sys2Proof.Machine.execObjHint p s
  | .objPromote p => Sys2Proof.Machine.execObjPromote p s
  | .objEvict p => Sys2Proof.Machine.execObjEvict p s
  | .objQuery p => Sys2Proof.Machine.execObjQuery p s
  | .hostMap p => Sys2Proof.Machine.execHostMap p s
  | .hostUnmap p => Sys2Proof.Machine.execHostUnmap p s
  | .poolStatus p => Sys2Proof.Machine.execPoolStatus p s
  | .poolMarks p => Sys2Proof.Machine.execPoolMarks p s
  | .plotEvictDone ctx plot => Sys2Proof.Machine.execPlotEvictDone ctx plot s
  | .plotPromoteDone ctx plot authOk => Sys2Proof.Machine.execPlotPromoteDone ctx plot authOk s
  | .stashDemoteDone ctx plot => Sys2Proof.Machine.execStashDemoteDone ctx plot s
  | .scrubTick stack corrected bad => Sys2Proof.Machine.execScrubTick stack corrected bad s
  | .plotRetireCopyDone stack plot => Sys2Proof.Machine.execPlotRetireCopyDone stack plot s
  | .kvTable p => Sys2Proof.Machine.execKvTable p s
  | .pageAdd p => Sys2Proof.Machine.execPageAdd p s
  | .pageMap p => Sys2Proof.Machine.execPageMap p s
  | .pageRef p => Sys2Proof.Machine.execPageRef p s
  | .pageUnref p => Sys2Proof.Machine.execPageUnref p s
  | .pageDrop p => Sys2Proof.Machine.execPageDrop p s
  | .pageRevive p => Sys2Proof.Machine.execPageRevive p s
  | .pageRead p => Sys2Proof.Machine.execPageRead p s
  | .pageCopyDone ctx page => Sys2Proof.Machine.execPageCopyDone ctx page s
  | .progLoad p => Sys2Proof.Machine.execProgLoad p s
  | .progRun p => Sys2Proof.Machine.execProgRun p s
  | .progStop p => Sys2Proof.Machine.execProgStop p s
  | .progUnload p => Sys2Proof.Machine.execProgUnload p s
  | .progFlag p => Sys2Proof.Machine.execProgFlag p s
  | .recordIssue => Sys2Proof.Machine.execRecordIssue s
  | .forkIssue => Sys2Proof.Machine.execForkIssue s
  | .variantEnd => Sys2Proof.Machine.execVariantEnd s
  | .settleRecord => Sys2Proof.Machine.execSettleRecord s
  | .settlePoint => Sys2Proof.Machine.execSettlePoint s
  | .endRecord => Sys2Proof.Machine.execEndRecord s
  | .actionBegin u => Sys2Proof.Machine.execActionBegin u s
  | .actionComplete u => Sys2Proof.Machine.execActionComplete u s
  | .nop u => Sys2Proof.Machine.execNop u s
  | .setap u => Sys2Proof.Machine.execSetap u s
  | .fProduct cell ups => Sys2Proof.Machine.execFProduct cell ups s
  | .bProduct cell ups => Sys2Proof.Machine.execBProduct cell ups s
  | .convert cell ups => Sys2Proof.Machine.execConvert cell ups s
  | .survey cell ups => Sys2Proof.Machine.execSurvey cell ups s
  | .unary cell ups => Sys2Proof.Machine.execUnary cell ups s
  | .binary cell ups => Sys2Proof.Machine.execBinary cell ups s
  | .rowreduce cell ups => Sys2Proof.Machine.execRowreduce cell ups s
  | .softmaxOnline cell ups => Sys2Proof.Machine.execSoftmaxOnline cell ups s
  | .softmaxFinish cell ups => Sys2Proof.Machine.execSoftmaxFinish cell ups s
  | .softmaxBackward cell ups => Sys2Proof.Machine.execSoftmaxBackward cell ups s
  | .flagw cell => Sys2Proof.Machine.execFlagw cell s
  | .receive cell => Sys2Proof.Machine.execReceive cell s
  | .send cell => Sys2Proof.Machine.execSend cell s
  | .silt cell => Sys2Proof.Machine.execSilt cell s
  | .granuleLand cell => Sys2Proof.Machine.execGranuleLand cell s
  | .siltPacketLand n => Sys2Proof.Machine.execSiltPacketLand n s
  | .arm die eng => Sys2Proof.Machine.execArm die eng s
  | .rearm die eng => Sys2Proof.Machine.execRearm die eng s
  | .disarm die eng => Sys2Proof.Machine.execDisarm die eng s
  | .tileDeliver die eng ups => Sys2Proof.Machine.execTileDeliver die eng ups s
  | .streamRetry die eng => Sys2Proof.Machine.execStreamRetry die eng s
  | .parkLimitExpire die eng => Sys2Proof.Machine.execParkLimitExpire die eng s
  | .stallLimitExpire u => Sys2Proof.Machine.execStallLimitExpire u s
  | .descLoad p => Sys2Proof.Machine.execDescLoad p s
  | .siltRoutes p => Sys2Proof.Machine.execSiltRoutes p s
  | .faultRing p => Sys2Proof.Machine.execFaultRing p s
  | .faultAbort p => Sys2Proof.Machine.execFaultAbort p s
  | .streamLimits p => Sys2Proof.Machine.execStreamLimits p s
  | .sweep die => Sys2Proof.Machine.execSweep die s
  | .shardSweepDone die => Sys2Proof.Machine.execShardSweepDone die s
  | .exportRingRoom ctx entry consumer => Sys2Proof.Machine.execExportRingRoom ctx entry consumer s
  | .exportRecordDrop ctx entry => Sys2Proof.Machine.execExportRecordDrop ctx entry s
  | .push die => Sys2Proof.Machine.execPush die s
  | .reduce die => Sys2Proof.Machine.execReduce die s
  | .verdict die => Sys2Proof.Machine.execVerdict die s
  | .dispatch die => Sys2Proof.Machine.execDispatch die s
  | .combine die => Sys2Proof.Machine.execCombine die s
  | .contribArrive src job step sid tile count pslot sum => Sys2Proof.Machine.execContribArrive src job step sid tile count pslot sum s
  | .nullContribArrive src job step sid pslot => Sys2Proof.Machine.execNullContribArrive src job step sid pslot s
  | .reduceDeadline ctx tset idx => Sys2Proof.Machine.execReduceDeadline ctx tset idx s
  | .verdContribArrive src job v => Sys2Proof.Machine.execVerdContribArrive src job v s
  | .verdRecordArrive src job v => Sys2Proof.Machine.execVerdRecordArrive src job v s
  | .beatSend ctx => Sys2Proof.Machine.execBeatSend ctx s
  | .beatArrive src job => Sys2Proof.Machine.execBeatArrive src job s
  | .livenessTimeout ctx dev => Sys2Proof.Machine.execLivenessTimeout ctx dev s
  | .lossArrive src job dev => Sys2Proof.Machine.execLossArrive src job dev s
  | .pushArrive src job tag sid version off data last => Sys2Proof.Machine.execPushArrive src job tag sid version off data last s
  | .pushReqTimer ctx entry => Sys2Proof.Machine.execPushReqTimer ctx entry s
  | .pushReqArrive src job sid => Sys2Proof.Machine.execPushReqArrive src job sid s
  | .dispCountArrive src job dplan second counts => Sys2Proof.Machine.execDispCountArrive src job dplan second counts s
  | .dispGrantArrive src job dplan second grants => Sys2Proof.Machine.execDispGrantArrive src job dplan second grants s
  | .dispRowArrive src job dplan lslot row tag off assign data => Sys2Proof.Machine.execDispRowArrive src job dplan lslot row tag off assign data s
  | .combRowArrive src job dplan assign tag off data => Sys2Proof.Machine.execCombRowArrive src job dplan assign tag off data s
  | .readArrive src job tag addr len => Sys2Proof.Machine.execReadArrive src job tag addr len s
  | .readServe n => Sys2Proof.Machine.execReadServe n s
  | .readDataArrive tag status versions data => Sys2Proof.Machine.execReadDataArrive tag status versions data s
  | .writeArrive src job tag addr data => Sys2Proof.Machine.execWriteArrive src job tag addr data s
  | .writeDoneArrive tag status => Sys2Proof.Machine.execWriteDoneArrive tag status s
  | .requestTimeout tag => Sys2Proof.Machine.execRequestTimeout tag s
  | .messageAssemblyTimeout link src tag => Sys2Proof.Machine.execMessageAssemblyTimeout link src tag s
  | .ackArrive link lseq => Sys2Proof.Machine.execAckArrive link lseq s
  | .nakArrive link => Sys2Proof.Machine.execNakArrive link s
  | .replayTimeout link => Sys2Proof.Machine.execReplayTimeout link s
  | .creditArrive link cls n => Sys2Proof.Machine.execCreditArrive link cls n s
  | .keyArrive link payload => Sys2Proof.Machine.execKeyArrive link payload s
  | .linkKeyExhaust link => Sys2Proof.Machine.execLinkKeyExhaust link s
  | .linkTrainDone link far => Sys2Proof.Machine.execLinkTrainDone link far s
  | .linkTrainRetry link => Sys2Proof.Machine.execLinkTrainRetry link s
  | .linkRetrainDone r => Sys2Proof.Machine.execLinkRetrainDone r s
  | .linkRetrainTimeout link => Sys2Proof.Machine.execLinkRetrainTimeout link s
  | .escapeTimeout n => Sys2Proof.Machine.execEscapeTimeout n s
  | .escapeWaitTimeout n => Sys2Proof.Machine.execEscapeWaitTimeout n s
  | .linkParams p => Sys2Proof.Machine.execLinkParams p s
  | .fabricMap p => Sys2Proof.Machine.execFabricMap p s
  | .jobBind p => Sys2Proof.Machine.execJobBind p s
  | .jobUnbind p => Sys2Proof.Machine.execJobUnbind p s
  | .jobRemap p => Sys2Proof.Machine.execJobRemap p s
  | .treeLoad p => Sys2Proof.Machine.execTreeLoad p s
  | .dispatchLoad p => Sys2Proof.Machine.execDispatchLoad p s
  | .linkCtlEnable p => Sys2Proof.Machine.execLinkCtlEnable p s
  | .linkCtlDisable p => Sys2Proof.Machine.execLinkCtlDisable p s
  | .linkCtlRetrain p => Sys2Proof.Machine.execLinkCtlRetrain p s
  | .stepParams p => Sys2Proof.Machine.execStepParams p s
  | .layerLoad p => Sys2Proof.Machine.execLayerLoad p s
  | .shardLoad p => Sys2Proof.Machine.execShardLoad p s
  | .reshard p => Sys2Proof.Machine.execReshard p s
  | .verdictRing p => Sys2Proof.Machine.execVerdictRing p s
  | .numMode p => Sys2Proof.Machine.execNumMode p s
  | .censusRead p => Sys2Proof.Machine.execCensusRead p s
  | .censusRing p => Sys2Proof.Machine.execCensusRing p s
  | .trapMode p => Sys2Proof.Machine.execTrapMode p s
  | .trapResume p => Sys2Proof.Machine.execTrapResume p s
  | .updPlan p => Sys2Proof.Machine.execUpdPlan p s
  | .updSched p => Sys2Proof.Machine.execUpdSched p s
  | .lossScale p => Sys2Proof.Machine.execLossScale p s
  | .updRead p => Sys2Proof.Machine.execUpdRead p s
  | .exportSet p => Sys2Proof.Machine.execExportSet p s
  | .exportBedrock p => Sys2Proof.Machine.execExportBedrock p s
  | .govEvaluate => Sys2Proof.Machine.execGovEvaluate s
  | .sensorSample r => Sys2Proof.Machine.execSensorSample r s
  | .powerOverLimit => Sys2Proof.Machine.execPowerOverLimit s
  | .opRampDone => Sys2Proof.Machine.execOpRampDone s
  | .thermalTrip stack unit temp => Sys2Proof.Machine.execThermalTrip stack unit temp s
  | .govBudget p => Sys2Proof.Machine.execGovBudget p s
  | .govLimits p => Sys2Proof.Machine.execGovLimits p s
  | .govFix p => Sys2Proof.Machine.execGovFix p s
  | .idCerts p => Sys2Proof.Machine.execIdCerts p s
  | .attestDev p => Sys2Proof.Machine.execAttestDev p s
  | .attestCtx p => Sys2Proof.Machine.execAttestCtx p s
  | .peerKeys p => Sys2Proof.Machine.execPeerKeys p s
  | .keyImport p => Sys2Proof.Machine.execKeyImport p s
  | .keyErase p => Sys2Proof.Machine.execKeyErase p s
  | .sealArea p => Sys2Proof.Machine.execSealArea p s
  | .ownerClaim p => Sys2Proof.Machine.execOwnerClaim p s
  | .ownerCmdLock p => Sys2Proof.Machine.execOwnerCmdLock p s
  | .ownerCmdUnlock p => Sys2Proof.Machine.execOwnerCmdUnlock p s
  | .ownerCmdRemove p => Sys2Proof.Machine.execOwnerCmdRemove p s
  | .ownerCmdReplace p => Sys2Proof.Machine.execOwnerCmdReplace p s
  | .fwBegin p => Sys2Proof.Machine.execFwBegin p s
  | .fwBlock p => Sys2Proof.Machine.execFwBlock p s
  | .fwCommit p => Sys2Proof.Machine.execFwCommit p s
  | .fwAbort p => Sys2Proof.Machine.execFwAbort p s
  | .spdmGetCertificate slot => Sys2Proof.Machine.execSpdmGetCertificate slot s
  | .spdmGetMeasurements => Sys2Proof.Machine.execSpdmGetMeasurements s
  | .ideKm stream key covers secure => Sys2Proof.Machine.execIdeKm stream key covers secure s
  | .ideStreamInsecure stream => Sys2Proof.Machine.execIdeStreamInsecure stream s
  | .bistRun p => Sys2Proof.Machine.execBistRun p s
  | .bistDone failed => Sys2Proof.Machine.execBistDone failed s
  | .selftestRun p => Sys2Proof.Machine.execSelftestRun p s
  | .selftestDone u pass => Sys2Proof.Machine.execSelftestDone u pass s
  | .correctionLimit u det => Sys2Proof.Machine.execCorrectionLimit u det s
  | .unitDisable p => Sys2Proof.Machine.execUnitDisable p s
  | .unitEnable p => Sys2Proof.Machine.execUnitEnable p s
  | .failRead p => Sys2Proof.Machine.execFailRead p s
  | .failForget p => Sys2Proof.Machine.execFailForget p s
  | .failcountFlashWrite => Sys2Proof.Machine.execFailcountFlashWrite s
  | .injArm off size value => Sys2Proof.Machine.execInjArm off size value s
  | .errFlagsClear off value during => Sys2Proof.Machine.execErrFlagsClear off value during s
  | .errFirstClear off size value => Sys2Proof.Machine.execErrFirstClear off size value s
  | .errActionClear off size value => Sys2Proof.Machine.execErrActionClear off size value s
  | .bar0FaultClear value during => Sys2Proof.Machine.execBar0FaultClear value during s
  | .bar0ReservedAccess off size write => Sys2Proof.Machine.execBar0ReservedAccess off size write s
  | .rcRegisterRead off size during => Sys2Proof.Machine.execRcRegisterRead off size during s
  | .lowHalfRead off => Sys2Proof.Machine.execLowHalfRead off s
  | .highHalfRead off => Sys2Proof.Machine.execHighHalfRead off s
  | .registerWrite off size value => Sys2Proof.Machine.execRegisterWrite off size value s
  | .bar2Read off len => Sys2Proof.Machine.execBar2Read off len s
  | .bar2Write off data => Sys2Proof.Machine.execBar2Write off data s
  | .sbState => Sys2Proof.Machine.execSbState s
  | .sbTdie => Sys2Proof.Machine.execSbTdie s
  | .sbThbm => Sys2Proof.Machine.execSbThbm s
  | .sbPower => Sys2Proof.Machine.execSbPower s
  | .sbCap => Sys2Proof.Machine.execSbCap s
  | .sbOp => Sys2Proof.Machine.execSbOp s
  | .sbInventory => Sys2Proof.Machine.execSbInventory s
  | .sbFirmware => Sys2Proof.Machine.execSbFirmware s
  | .sbWriteNack code write => Sys2Proof.Machine.execSbWriteNack code write s
  | .flitReceive link f ups => Sys2Proof.Machine.execFlitReceive link f ups s
  | .initialTrainingTimeout link => Sys2Proof.Machine.execInitialTrainingTimeout link s

end Sys2Proof.Machine
end

