-- ==== Sys2Proof/Machine/Step.lean ====
section
/-!
DEFINITION. One step of the block: the command at the front of the queue, or one tick of the interval timers while no
command waits.
-/
namespace Sys2Proof.Machine
open Sys2Proof

/-- The block with nothing to do: one tick of the timers (R258, R452). -/
def idle (s : State) : State := { s with dev := s.dev.tick }

/-- One step: the front command's effect with the queue's rest, or a tick on an empty queue. -/
def step (s : State) : Host.Outcome State Fault Refusal :=
  match s.pending with
  | [] => .next (idle s)
  | c :: r => exec c { s with pending := r }

/-- The state with the command that a word spells put at the front of its queue; unchanged where the word spells none. -/
def State.withFetchWord (s : State) (nbits w : Nat) : State :=
  match decodeTableWord nbits w with
  | some c => { s with pending := c :: s.pending }
  | none => s

end Sys2Proof.Machine
end

