-- ==== Sys2Proof/WellFormed.lean ====
section
/-!
DEFINITION. Well-formed commands: the unit, entry or register that a command names exists, and a packet stands under the row of its
own opcode with as many words as its H_PLEN says (R13, R22, R82, R404, R409, R416). Every well-formed command answers a next state.
-/
namespace Sys2Proof

/-- A packet of an opcode, whole: its payload is H_PLEN long and its slot is one of the aperture's (R402, R404). -/
def Packet.wf (p : Packet) (op : Nat) : Bool :=
  p.opcode.toNat = op && p.payload.length = p.plen.toNat / 8 && p.slot < 512

/-- Whether a command is well-formed. -/
def Instr.wf : Instr → Bool
  | .auxRailUp => true
  | .auxRailLoss => true
  | .mainInputAccept => true
  | .corePowerGood => true
  | .mainInputUvlo => true
  | .mainInputRecover => true
  | .perstDeassert => true
  | .pcieConventionalReset => true
  | .hotReset => true
  | .functionLevelReset => true
  | .stageBootRomDone => true
  | .stageFwVerifyDone => true
  | .fwStagedCopyDone => true
  | .stageBistDone failed => failed.all SUnit.valid
  | .stageHbmTrainingDone failed => failed.all (fun m => m < 24)
  | .stageLinkTrainingDone failed => failed.all (fun l => l < 36)
  | .stageLocalMappingDone => true
  | .apertureWrite off data => data ≠ [] && off + data.length ≤ 0x400000 && off / 0x1000 = (off + data.length - 1) / 0x1000
  | .slotCopyDone slot => slot < 512
  | .chainFetchDone _ _ => true
  | .devInfo p => p.wf 0x101
  | .devStatus p => p.wf 0x102
  | .devReset p => p.wf 0x103
  | .devResetExec => true
  | .devEvents p => p.wf 0x104
  | .ctxCreate p => p.wf 0x201
  | .ctxDestroy p => p.wf 0x202
  | .ctxList p => p.wf 0x203
  | .windowSet p => p.wf 0x204
  | .floorSet p => p.wf 0x210
  | .objAlloc p => p.wf 0x211
  | .objFree p => p.wf 0x212
  | .objHint p => p.wf 0x213
  | .objPromote p => p.wf 0x214
  | .objEvict p => p.wf 0x215
  | .objQuery p => p.wf 0x216
  | .hostMap p => p.wf 0x217
  | .hostUnmap p => p.wf 0x218
  | .poolStatus p => p.wf 0x219
  | .poolMarks p => p.wf 0x21A
  | .plotEvictDone ctx _ => ctx < 16
  | .plotPromoteDone ctx _ _ => ctx < 16
  | .stashDemoteDone ctx _ => ctx < 16
  | .scrubTick stack _ _ => stack < 24
  | .plotRetireCopyDone stack plot => stack < 24 && plot < 32768
  | .kvTable p => p.wf 0x230
  | .pageAdd p => p.wf 0x231
  | .pageMap p => p.wf 0x232
  | .pageRef p => p.wf 0x233
  | .pageUnref p => p.wf 0x234
  | .pageDrop p => p.wf 0x235
  | .pageRevive p => p.wf 0x236
  | .pageRead p => p.wf 0x237
  | .pageCopyDone ctx _ => ctx < 16
  | .progLoad p => p.wf 0x301
  | .progRun p => p.wf 0x302
  | .progStop p => p.wf 0x303
  | .progUnload p => p.wf 0x304
  | .progFlag p => p.wf 0x305
  | .recordIssue => true
  | .forkIssue => true
  | .variantEnd => true
  | .settleRecord => true
  | .settlePoint => true
  | .endRecord => true
  | .actionBegin u => u.valid
  | .actionComplete u => u.valid
  | .nop u => u.valid
  | .setap u => match u with | .cell c _ => c < 576 | _ => false
  | .fProduct cell _ => cell < 576
  | .bProduct cell _ => cell < 576
  | .convert cell _ => cell < 576
  | .survey cell _ => cell < 576
  | .unary cell _ => cell < 576
  | .binary cell _ => cell < 576
  | .rowreduce cell _ => cell < 576
  | .softmaxOnline cell _ => cell < 576
  | .softmaxFinish cell _ => cell < 576
  | .softmaxBackward cell _ => cell < 576
  | .flagw cell => cell < 576
  | .receive cell => cell < 576
  | .send cell => cell < 576
  | .silt cell => cell < 576
  | .granuleLand cell => cell < 576
  | .siltPacketLand _ => true
  | .arm die eng => (UnitId.se die eng).valid
  | .rearm die eng => (UnitId.se die eng).valid
  | .disarm die eng => (UnitId.se die eng).valid
  | .tileDeliver die eng _ => (UnitId.se die eng).valid
  | .streamRetry die eng => (UnitId.se die eng).valid
  | .parkLimitExpire die eng => (UnitId.se die eng).valid
  | .stallLimitExpire u => u.valid
  | .descLoad p => p.wf 0x306
  | .siltRoutes p => p.wf 0x307
  | .faultRing p => p.wf 0x308
  | .faultAbort p => p.wf 0x309
  | .streamLimits p => p.wf 0x30A
  | .sweep die => isPort die
  | .shardSweepDone die => isPort die
  | .exportRingRoom ctx entry consumer => ctx < 16 && entry < 16 && consumer < 2 ^ 64
  | .exportRecordDrop ctx entry => ctx < 16 && entry < 16
  | .push die => isPort die
  | .reduce die => isLinkDie die
  | .verdict die => isLinkDie die
  | .dispatch die => isLinkDie die
  | .combine die => isLinkDie die
  | .contribArrive src _ _ _ _ _ _ _ => src < 2 ^ 15
  | .nullContribArrive src _ _ _ _ => src < 2 ^ 15
  | .reduceDeadline ctx _ _ => ctx < 16
  | .verdContribArrive src _ _ => src < 2 ^ 15
  | .verdRecordArrive src _ _ => src < 2 ^ 15
  | .beatSend ctx => ctx < 16
  | .beatArrive src _ => src < 2 ^ 15
  | .livenessTimeout ctx _ => ctx < 16
  | .lossArrive src _ _ => src < 2 ^ 15
  | .pushArrive src _ _ _ _ _ _ _ => src < 2 ^ 15
  | .pushReqTimer ctx entry => ctx < 16 && entry < 65536
  | .pushReqArrive src _ _ => src < 2 ^ 15
  | .dispCountArrive src _ _ _ _ => src < 2 ^ 15
  | .dispGrantArrive src _ _ _ _ => src < 2 ^ 15
  | .dispRowArrive src _ _ _ _ _ _ _ _ => src < 2 ^ 15
  | .combRowArrive src _ _ _ _ _ _ => src < 2 ^ 15
  | .readArrive src _ _ _ _ => src < 2 ^ 15
  | .readServe _ => true
  | .readDataArrive _ _ _ _ => true
  | .writeArrive src _ _ _ _ => src < 2 ^ 15
  | .writeDoneArrive _ _ => true
  | .requestTimeout _ => true
  | .messageAssemblyTimeout link _ _ => link < 36
  | .ackArrive link _ => link < 36
  | .nakArrive link => link < 36
  | .replayTimeout link => link < 36
  | .creditArrive link cls _ => link < 36 && 1 ≤ cls && cls ≤ 3
  | .keyArrive link _ => link < 36
  | .linkKeyExhaust link => link < 36
  | .linkTrainDone link _ => link < 36
  | .linkTrainRetry link => link < 36
  | .linkRetrainDone r => r.link < 36
  | .linkRetrainTimeout link => link < 36
  | .escapeTimeout _ => true
  | .escapeWaitTimeout _ => true
  | .linkParams p => p.wf 0x401
  | .fabricMap p => p.wf 0x402
  | .jobBind p => p.wf 0x403
  | .jobUnbind p => p.wf 0x404
  | .jobRemap p => p.wf 0x405
  | .treeLoad p => p.wf 0x406
  | .dispatchLoad p => p.wf 0x407
  | .linkCtlEnable p => p.wf 0x408 && (p.arg 1 = 0 || 2 < p.arg 1)
  | .linkCtlDisable p => p.wf 0x408 && (p.arg 1 = 1 || 2 < p.arg 1)
  | .linkCtlRetrain p => p.wf 0x408 && (p.arg 1 = 2 || 2 < p.arg 1)
  | .stepParams p => p.wf 0x440
  | .layerLoad p => p.wf 0x441
  | .shardLoad p => p.wf 0x442
  | .reshard p => p.wf 0x443
  | .verdictRing p => p.wf 0x444
  | .numMode p => p.wf 0x501
  | .censusRead p => p.wf 0x502
  | .censusRing p => p.wf 0x503
  | .trapMode p => p.wf 0x504
  | .trapResume p => p.wf 0x505
  | .updPlan p => p.wf 0x510
  | .updSched p => p.wf 0x511
  | .lossScale p => p.wf 0x512
  | .updRead p => p.wf 0x513
  | .exportSet p => p.wf 0x514
  | .exportBedrock p => p.wf 0x515
  | .govEvaluate => true
  | .sensorSample r => Machine.readingsWhole r
  | .powerOverLimit => true
  | .opRampDone => true
  | .thermalTrip stack unit temp => unit < (if stack then 24 else 64) && temp < 256
  | .govBudget p => p.wf 0x701
  | .govLimits p => p.wf 0x702
  | .govFix p => p.wf 0x703
  | .idCerts p => p.wf 0x801
  | .attestDev p => p.wf 0x802
  | .attestCtx p => p.wf 0x803
  | .peerKeys p => p.wf 0x804
  | .keyImport p => p.wf 0x810
  | .keyErase p => p.wf 0x811
  | .sealArea p => p.wf 0x812
  | .ownerClaim p => p.wf 0x820
  | .ownerCmdLock p => p.wf 0x821 && (p.arg 0 = 0 || 3 < p.arg 0)
  | .ownerCmdUnlock p => p.wf 0x821 && (p.arg 0 = 1 || 3 < p.arg 0)
  | .ownerCmdRemove p => p.wf 0x821 && (p.arg 0 = 2 || 3 < p.arg 0)
  | .ownerCmdReplace p => p.wf 0x821 && (p.arg 0 = 3 || 3 < p.arg 0)
  | .fwBegin p => p.wf 0x830
  | .fwBlock p => p.wf 0x831
  | .fwCommit p => p.wf 0x832
  | .fwAbort p => p.wf 0x833
  | .spdmGetCertificate _ => true
  | .spdmGetMeasurements => true
  | .ideKm _ _ _ _ => true
  | .ideStreamInsecure _ => true
  | .bistRun p => p.wf 0x601
  | .bistDone failed => failed.all SUnit.valid
  | .selftestRun p => p.wf 0x602
  | .selftestDone u _ => u.valid
  | .correctionLimit u det => u.valid && Machine.detExists u det
  | .unitDisable p => p.wf 0x603
  | .unitEnable p => p.wf 0x604
  | .failRead p => p.wf 0x605
  | .failForget p => p.wf 0x606
  | .failcountFlashWrite => true
  | .injArm off _ _ => off < 2 ^ 28
  | .errFlagsClear off _ _ => off < 2 ^ 28
  | .errFirstClear off _ _ => off < 2 ^ 28
  | .errActionClear off _ _ => off < 2 ^ 28
  | .bar0FaultClear _ _ => true
  | .bar0ReservedAccess off _ _ => off < 2 ^ 28
  | .rcRegisterRead off _ _ => off < 2 ^ 28
  | .lowHalfRead off => off < 2 ^ 28
  | .highHalfRead off => off < 2 ^ 28
  | .registerWrite off _ _ => off < 2 ^ 28
  | .bar2Read off len => off + len ≤ 2 ^ 41
  | .bar2Write off data => off + data.length ≤ 2 ^ 41
  | .sbState => true
  | .sbTdie => true
  | .sbThbm => true
  | .sbPower => true
  | .sbCap => true
  | .sbOp => true
  | .sbInventory => true
  | .sbFirmware => true
  | .sbWriteNack code write => write || !(Machine.sbCodes.contains code)
  | .flitReceive link _ _ => link < 36
  | .initialTrainingTimeout link => link < 36

/-- The packet that a host command carries. -/
def Instr.packet? : Instr → Option Packet
  | .auxRailUp => none
  | .auxRailLoss => none
  | .mainInputAccept => none
  | .corePowerGood => none
  | .mainInputUvlo => none
  | .mainInputRecover => none
  | .perstDeassert => none
  | .pcieConventionalReset => none
  | .hotReset => none
  | .functionLevelReset => none
  | .stageBootRomDone => none
  | .stageFwVerifyDone => none
  | .fwStagedCopyDone => none
  | .stageBistDone _ => none
  | .stageHbmTrainingDone _ => none
  | .stageLinkTrainingDone _ => none
  | .stageLocalMappingDone => none
  | .apertureWrite _ _ => none
  | .slotCopyDone _ => none
  | .chainFetchDone _ _ => none
  | .devInfo p => some p
  | .devStatus p => some p
  | .devReset p => some p
  | .devResetExec => none
  | .devEvents p => some p
  | .ctxCreate p => some p
  | .ctxDestroy p => some p
  | .ctxList p => some p
  | .windowSet p => some p
  | .floorSet p => some p
  | .objAlloc p => some p
  | .objFree p => some p
  | .objHint p => some p
  | .objPromote p => some p
  | .objEvict p => some p
  | .objQuery p => some p
  | .hostMap p => some p
  | .hostUnmap p => some p
  | .poolStatus p => some p
  | .poolMarks p => some p
  | .plotEvictDone _ _ => none
  | .plotPromoteDone _ _ _ => none
  | .stashDemoteDone _ _ => none
  | .scrubTick _ _ _ => none
  | .plotRetireCopyDone _ _ => none
  | .kvTable p => some p
  | .pageAdd p => some p
  | .pageMap p => some p
  | .pageRef p => some p
  | .pageUnref p => some p
  | .pageDrop p => some p
  | .pageRevive p => some p
  | .pageRead p => some p
  | .pageCopyDone _ _ => none
  | .progLoad p => some p
  | .progRun p => some p
  | .progStop p => some p
  | .progUnload p => some p
  | .progFlag p => some p
  | .recordIssue => none
  | .forkIssue => none
  | .variantEnd => none
  | .settleRecord => none
  | .settlePoint => none
  | .endRecord => none
  | .actionBegin _ => none
  | .actionComplete _ => none
  | .nop _ => none
  | .setap _ => none
  | .fProduct _ _ => none
  | .bProduct _ _ => none
  | .convert _ _ => none
  | .survey _ _ => none
  | .unary _ _ => none
  | .binary _ _ => none
  | .rowreduce _ _ => none
  | .softmaxOnline _ _ => none
  | .softmaxFinish _ _ => none
  | .softmaxBackward _ _ => none
  | .flagw _ => none
  | .receive _ => none
  | .send _ => none
  | .silt _ => none
  | .granuleLand _ => none
  | .siltPacketLand _ => none
  | .arm _ _ => none
  | .rearm _ _ => none
  | .disarm _ _ => none
  | .tileDeliver _ _ _ => none
  | .streamRetry _ _ => none
  | .parkLimitExpire _ _ => none
  | .stallLimitExpire _ => none
  | .descLoad p => some p
  | .siltRoutes p => some p
  | .faultRing p => some p
  | .faultAbort p => some p
  | .streamLimits p => some p
  | .sweep _ => none
  | .shardSweepDone _ => none
  | .exportRingRoom _ _ _ => none
  | .exportRecordDrop _ _ => none
  | .push _ => none
  | .reduce _ => none
  | .verdict _ => none
  | .dispatch _ => none
  | .combine _ => none
  | .contribArrive _ _ _ _ _ _ _ _ => none
  | .nullContribArrive _ _ _ _ _ => none
  | .reduceDeadline _ _ _ => none
  | .verdContribArrive _ _ _ => none
  | .verdRecordArrive _ _ _ => none
  | .beatSend _ => none
  | .beatArrive _ _ => none
  | .livenessTimeout _ _ => none
  | .lossArrive _ _ _ => none
  | .pushArrive _ _ _ _ _ _ _ _ => none
  | .pushReqTimer _ _ => none
  | .pushReqArrive _ _ _ => none
  | .dispCountArrive _ _ _ _ _ => none
  | .dispGrantArrive _ _ _ _ _ => none
  | .dispRowArrive _ _ _ _ _ _ _ _ _ => none
  | .combRowArrive _ _ _ _ _ _ _ => none
  | .readArrive _ _ _ _ _ => none
  | .readServe _ => none
  | .readDataArrive _ _ _ _ => none
  | .writeArrive _ _ _ _ _ => none
  | .writeDoneArrive _ _ => none
  | .requestTimeout _ => none
  | .messageAssemblyTimeout _ _ _ => none
  | .ackArrive _ _ => none
  | .nakArrive _ => none
  | .replayTimeout _ => none
  | .creditArrive _ _ _ => none
  | .keyArrive _ _ => none
  | .linkKeyExhaust _ => none
  | .linkTrainDone _ _ => none
  | .linkTrainRetry _ => none
  | .linkRetrainDone _ => none
  | .linkRetrainTimeout _ => none
  | .escapeTimeout _ => none
  | .escapeWaitTimeout _ => none
  | .linkParams p => some p
  | .fabricMap p => some p
  | .jobBind p => some p
  | .jobUnbind p => some p
  | .jobRemap p => some p
  | .treeLoad p => some p
  | .dispatchLoad p => some p
  | .linkCtlEnable p => some p
  | .linkCtlDisable p => some p
  | .linkCtlRetrain p => some p
  | .stepParams p => some p
  | .layerLoad p => some p
  | .shardLoad p => some p
  | .reshard p => some p
  | .verdictRing p => some p
  | .numMode p => some p
  | .censusRead p => some p
  | .censusRing p => some p
  | .trapMode p => some p
  | .trapResume p => some p
  | .updPlan p => some p
  | .updSched p => some p
  | .lossScale p => some p
  | .updRead p => some p
  | .exportSet p => some p
  | .exportBedrock p => some p
  | .govEvaluate => none
  | .sensorSample _ => none
  | .powerOverLimit => none
  | .opRampDone => none
  | .thermalTrip _ _ _ => none
  | .govBudget p => some p
  | .govLimits p => some p
  | .govFix p => some p
  | .idCerts p => some p
  | .attestDev p => some p
  | .attestCtx p => some p
  | .peerKeys p => some p
  | .keyImport p => some p
  | .keyErase p => some p
  | .sealArea p => some p
  | .ownerClaim p => some p
  | .ownerCmdLock p => some p
  | .ownerCmdUnlock p => some p
  | .ownerCmdRemove p => some p
  | .ownerCmdReplace p => some p
  | .fwBegin p => some p
  | .fwBlock p => some p
  | .fwCommit p => some p
  | .fwAbort p => some p
  | .spdmGetCertificate _ => none
  | .spdmGetMeasurements => none
  | .ideKm _ _ _ _ => none
  | .ideStreamInsecure _ => none
  | .bistRun p => some p
  | .bistDone _ => none
  | .selftestRun p => some p
  | .selftestDone _ _ => none
  | .correctionLimit _ _ => none
  | .unitDisable p => some p
  | .unitEnable p => some p
  | .failRead p => some p
  | .failForget p => some p
  | .failcountFlashWrite => none
  | .injArm _ _ _ => none
  | .errFlagsClear _ _ _ => none
  | .errFirstClear _ _ _ => none
  | .errActionClear _ _ _ => none
  | .bar0FaultClear _ _ => none
  | .bar0ReservedAccess _ _ _ => none
  | .rcRegisterRead _ _ _ => none
  | .lowHalfRead _ => none
  | .highHalfRead _ => none
  | .registerWrite _ _ _ => none
  | .bar2Read _ _ => none
  | .bar2Write _ _ => none
  | .sbState => none
  | .sbTdie => none
  | .sbThbm => none
  | .sbPower => none
  | .sbCap => none
  | .sbOp => none
  | .sbInventory => none
  | .sbFirmware => none
  | .sbWriteNack _ _ => none
  | .flitReceive _ _ _ => none
  | .initialTrainingTimeout _ => none

end Sys2Proof
end

