-- ==== Sys2Proof/Safety.lean ====
section
/-!
DEFINITION. What counts as a safe state and a safe run, in the terms that the statements use.
-/
namespace Sys2Proof.Machine
open Sys2Proof

/-- The governor's settings and its state stay in their ranges (R376, R379 to R382, R387, R393). -/
def Gov.inv (g : Gov) : Prop :=
  g.op ≤ 7 ∧ g.inForce ≤ 7 ∧ g.hold ≤ 7 ∧ g.cls ≤ 3 ∧ g.opMin ≤ g.opMax ∧ g.opMax ≤ 7 ∧
  800 ≤ g.modCap ∧ g.modCap ≤ 3000 ∧ 1 ≤ g.share ∧ g.share ≤ 65536 ∧ (∀ k, g.fix = some k → k ≤ 7) ∧
  (∀ b, g.pendBudget = some b → 800 ≤ b.1 ∧ b.1 ≤ 3000 ∧ 1 ≤ b.2.2 ∧ b.2.2 ≤ 65536) ∧
  (∀ l, g.pendLimits = some l → l.1 ≤ l.2 ∧ l.2 ≤ 7) ∧ (∀ f, g.pendFix = some f → ∀ k, f = some k → k ≤ 7)

/-- A safe state: the governor is in range. -/
def State.inv (s : State) : Prop := s.dev.gov.inv

/-- What no command may take back: the SVN floor, the revocation fuses, and an owner's counter (R430, R445, R447). -/
def Trust.kept (a b : Trust) : Prop :=
  a.svnFloor ≤ b.svnFloor ∧ b.revoked = a.revoked ∧ (a.owner.isSome = true → a.ownerCtr ≤ b.ownerCtr)

/-- A trip recorded in GOV_TRIP of a region (R392). -/
def Gov.tripped (g : Gov) (r : Nat) : Bool := bit (kgetD g.trips r 0) 63

/-- A command that resets the device cold (R482). -/
def coldReset : Instr → Bool
  | .auxRailLoss => true
  | _ => false

/-- The commands that may reach beyond the core: rails, resets and start-up, the governor's events and commands, the security
engine's streams and updates, and the accesses that write BAR0 registers. -/
def beyondCore : Instr → Bool
  | .auxRailUp | .auxRailLoss | .mainInputAccept | .corePowerGood | .mainInputUvlo | .mainInputRecover | .perstDeassert
  | .pcieConventionalReset | .hotReset | .functionLevelReset | .devResetExec | .stageBootRomDone | .stageFwVerifyDone
  | .fwStagedCopyDone | .stageBistDone _ | .stageHbmTrainingDone _ | .stageLinkTrainingDone _ | .stageLocalMappingDone
  | .govEvaluate | .sensorSample _ | .powerOverLimit | .opRampDone | .thermalTrip _ _ _ | .govBudget _ | .govLimits _ | .govFix _
  | .ideKm _ _ _ _ | .ideStreamInsecure _ | .peerKeys _ | .ownerClaim _ | .ownerCmdLock _ | .ownerCmdUnlock _
  | .ownerCmdRemove _ | .ownerCmdReplace _ | .fwBegin _ | .fwBlock _ | .fwCommit _ | .fwAbort _
  | .injArm _ _ _ | .errFlagsClear _ _ _ | .errFirstClear _ _ _ | .errActionClear _ _ _ | .bar0FaultClear _ _
  | .bar0ReservedAccess _ _ _ | .registerWrite _ _ _ => true
  | _ => false

/-- The core changed, all else kept. -/
def Dev.setC (d : Dev) (c : Core) : Dev := { d with c := c }
def State.setC (s : State) (c : Core) : State := { s with dev := { s.dev with c := c } }
/-- The device changed, the queue kept. -/
def State.setD (s : State) (d : Dev) : State := { s with dev := d }

/-- A packet stands taken, next of its group, and passes every check of R414: the command that is due. -/
def Core.due (c : Core) (k : Cmd) (p : Packet) : Prop :=
  p.opcode.toNat = k.op ∧ p ∈ c.taken ∧ c.blocked p = false ∧ ({ c with taken := c.taken.erase p } : Core).check k p = none

/-- The core as such a command begins: the packet is taken out of those that wait. -/
def Core.begun (c : Core) (p : Packet) : Core := { c with taken := c.taken.erase p }

/-- A command of table row `k` under its own opcode begins with core `c`: its packet was due (R410, R414), or it arrives at a
working port, below the limit of R411 and behind no command of its group, and passes every check. -/
def Dev.begins (d : Dev) (k : Cmd) (p : Packet) (c : Core) : Prop :=
  (d.c.due k p ∧ c = d.c.begun p) ∨
  (p.opcode.toNat = k.op ∧ p ∉ d.c.taken ∧ d.portUp = true ∧ (d.c.devState = .stopped → k.op = 0x103) ∧ d.c.inflight < 1024 ∧
    d.c.blocked p = false ∧ d.c.check k p = none ∧ c = d.c.arrive p)

/-- The handle in a command's first parameter names object `o`, index `i`, of the command's context `x` (R226). -/
def Core.names (c : Core) (p : Packet) (x : Ctx) (i : Nat) (o : Obj) : Prop :=
  c.ctx? p.ctxNum = some x ∧ x.objOf p.ctxNum (p.arg 0) = some (i, o)

/-- The command's context has a page table that reaches a range of entries (R221). -/
def Core.hasPages (c : Core) (p : Packet) (x : Ctx) (first count : Nat) : Prop :=
  c.ctx? p.ctxNum = some x ∧ 8 ∉ x.absent ∧ ∃ e, x.kvEntries = some e ∧ first + count ≤ e

/-- No injection is armed at any detector of a block (R463). -/
def Core.unarmed (c : Core) (b : SUnit) : Prop := ∀ det, bit (c.rget (injAddr b det)) 63 = false

/-- A vector action of opcode `op` runs at a cell, its operands are located, no handshake window holds it back, nothing it writes
meets what it reads, and no injection is armed there (R88, R89, R153, R177, R464). -/
def Core.vecReady (c : Core) (cell op : Nat) (prep : Core → UnitId → ActionInst → Except (Nat × Nat) VecJob) (r : RunAct)
    (j : VecJob) : Prop :=
  c.active (.cell cell .v) op = some r ∧ prep c (.cell cell .v) r.a = .ok j ∧ c.held cell r.a.inst j.reads j.writes = false ∧
  j.clash = false ∧ c.unarmed (.cell cell)

/-- The core once such an action has reached its completion point: its effect, its census counts and events, its column (R83). -/
def Core.vecDone (c : Core) (cell : Nat) (r : RunAct) (j : VecJob) : Core :=
  ((j.go c).1.report (.cell cell .v) r.a (j.go c).2).actDone (.cell cell .v)

/-- The same for a PRODUCT of the F or B engine. -/
def Core.prodReady (c : Core) (cell : Nat) (k : CellUnit) (op : Nat) (r : RunAct) (j : ProdJob) : Prop :=
  c.active (.cell cell k) op = some r ∧ c.prepProduct cell (.cell cell k) r.a = .ok j ∧
  c.held cell r.a.inst j.reads [j.dst] = false ∧ j.clash = false ∧ c.unarmed (.cell cell)

/-- No injection is armed at a unit, at its die or at its region (R457, R464). -/
def Core.pathUnarmed (c : Core) (u : UnitId) : Prop :=
  c.unarmed u.sunit ∧ c.unarmed (.die u.die) ∧ c.unarmed (.region (dieRegion u.die))

/-- A table-loading command's entries `es` are read from the object of its third parameter, lie within the table, pass the table's
own check in the context's table as it will stand, and the table has a place, which gives core `c1` (R195, R259, R370, R493). -/
def Core.loads (c : Core) (p : Packet) (tab size limit plots err : Nat) (ok : Ctx → (Nat → Nat) → Nat → Except Nat Bool)
    (c1 : Core) (es : List Nat) : Prop :=
  ∃ x b, c.ctx? p.ctxNum = some x ∧ p.arg 0 + p.arg 1 ≤ limit ∧
    (c.checkObj p.ctxNum (p.arg 2) 0 (size * p.arg 1)).byHandle p.ctxNum (p.arg 2) 0 (size * p.arg 1) err = .ok b ∧
    es = (List.range (p.arg 1)).map (fun i => ofLe ((b.drop (size * i)).take size)) ∧
    (∀ i, i < p.arg 1 → ok x (fun e => if p.arg 0 ≤ e ∧ e < p.arg 0 + p.arg 1 then es.getD (e - p.arg 0) 0 else x.ahead tab e)
      (es.getD i 0) = .ok true) ∧
    (c.checkObj p.ctxNum (p.arg 2) 0 (size * p.arg 1)).needTable p.ctxNum (if tab = tSched then tPlan else tab) plots = some c1

end Sys2Proof.Machine
end

