-- ==== Sys2Proof/Certificates/Slice0/Obligations.lean ====
section
/-!
DEFINITION. The statements for the provers: what each command does, what every command keeps, and what reset leaves.
-/
section
open Sys2Proof Sys2Proof.Machine

/-- For every state whose queue has a command at its front, a step is that command's meaning run on the state that holds the
rest of the queue. (00_scope.md, 13_host_commands.md; derived) -/
def Obligations.StepRunsFront : Prop :=
  ∀ (s : State) (i : Instr) (rest : List Instr), s.pending = i :: rest → step s = exec i { s with pending := rest }

/-- On an empty queue a step answers a next state (the model's choice, assumption 2): each region's 10 ns timer is one higher
modulo 2^64 once it has started, which it does a free number of units after region 0's (assumption 127), the hold-up charge
is at least 80 percent once region 0's timer has reached 20 s with the auxiliary rail up, and nothing else differs.
(09_training_step.md; derived) -/
def Obligations.IdleTick : Prop :=
  ∀ s : State, s.pending = [] →
    step s = .next (s.setD s.dev.tick) ∧
    (∀ r, r < 4 → s.dev.pw.auxUp = true → s.dev.c.now r ≠ 0 ∨ lagOf r ≤ s.dev.c.now 0 →
      s.dev.tick.c.now r = (s.dev.c.now r + 1) % 2 ^ 64) ∧
    (∀ r, r < 4 → s.dev.pw.auxUp = true → s.dev.c.now r = 0 → s.dev.c.now 0 < lagOf r → s.dev.tick.c.now r = 0) ∧
    (2000000000 ≤ s.dev.tick.c.now 0 → s.dev.pw.auxUp = true → 80 ≤ s.dev.tick.pw.holdup) ∧
    s.dev.tick.pw = { s.dev.pw with holdup := s.dev.tick.pw.holdup } ∧
    s.dev.tick.gov = s.dev.gov ∧ s.dev.tick.tr = s.dev.tr ∧ s.dev.tick.c = { s.dev.c with timers := s.dev.tick.c.timers }

/-- Whatever command runs, a next state holds the same queue as before: what waits is changed by the step alone.
(13_host_commands.md; derived) -/
def Obligations.ExecKeepsQueue : Prop :=
  ∀ (i : Instr) (s t : State), exec i s = .next t → t.pending = s.pending

/-- A command whose operands name units and entries that exist, and whose packet carries its row's opcode, never faults and
is never refused, whatever the state. (00_scope.md, 13_host_commands.md, 15_faults_selftest.md; derived) -/
def Obligations.WellFormedCompletes : Prop :=
  ∀ (i : Instr) (s : State), i.wf = true → ∃ t, exec i s = .next t

/-- No command is ever refused, and one that faults is not well-formed: it names a unit that does not exist, or carries
another row's opcode. (00_scope.md, 13_host_commands.md; derived) -/
def Obligations.FaultsOnlyWhenIllFormed : Prop :=
  ∀ (i : Instr) (s : State), (∀ r, exec i s ≠ .refused r) ∧ (∀ f, exec i s = .fault f → i.wf = false)

/-- From every state in which the operating points are 0 to 7, the class 0 to 3, the minimum point at most the maximum, the
module cap 800 to 3,000 W and the share 1 to 65,536 (in force and waiting), whatever step runs next leads to a state in which
they are. (12_governor.md; derived) -/
def Obligations.GovernorInvariantStep : Prop :=
  ∀ s t : State, s.inv → step s = .next t → t.inv

/-- After reset the operating point is OP3, the limits are OP0 and OP7, the cap 2,600 W, the share 65,536, and the invariant
that every step keeps holds. (12_governor.md; derived) -/
def Obligations.GovernorInvariantReset : Prop :=
  State.reset.inv ∧ State.reset.dev.gov.op = 3 ∧ State.reset.dev.gov.opMin = 0 ∧ State.reset.dev.gov.opMax = 7 ∧
  State.reset.dev.gov.modCap = 2600 ∧ State.reset.dev.gov.share = 65536

/-- In every state whose GOV_TRIP of a region is valid, after any command but a loss of the auxiliary rail GOV_TRIP of the
region is still valid: warm resets, register writes and later trips included. (12_governor.md, 15_faults_selftest.md;
derived) -/
def Obligations.TripLatched : Prop :=
  ∀ (i : Instr) (s t : State) (r : Nat), s.dev.gov.tripped r = true → coldReset i = false → exec i s = .next t → t.dev.gov.tripped r = true

/-- Whatever command runs, the SVN floor of a next state is no lower, the revocation fuses are the same, and while an owner
stands the owner counter is no lower. (14_trust_firmware.md; derived) -/
def Obligations.SecurityKept : Prop :=
  ∀ (i : Instr) (s t : State), exec i s = .next t → s.dev.tr.kept t.dev.tr

/-- Every command of the sequencer, the units, the streams, the pool, the training step, the update unit and the links that
answers a next state leaves the rails, the governor with its thermal record, and the security engine with its keys, flash and
fuses unchanged. (02_step_code.md, 06_streams.md, 08_memory_pool.md, 09_training_step.md, 10_update_unit.md,
11_tricel_links.md; derived) -/
def Obligations.CoreOnlyCommands : Prop :=
  ∀ (i : Instr) (s t : State), beyondCore i = false → exec i s = .next t →
    t.dev.pw = s.dev.pw ∧ t.dev.gov = s.dev.gov ∧ t.dev.tr = s.dev.tr

/-- After reset the device is starting at stage 0 with no rail up, no command waits or is taken, no slot is busy, no context,
object, frame or job exists, DEV_NUM is invalid, every register kept by address reads 0, the eviction marks are 256 and 512
and the escape threshold and request timeout 20 and 100 microseconds; nothing is fenced and no owner stands (the last, and an
unlocked device without keys, is the model's choice, assumption 3). (15_faults_selftest.md, 16_module_electrical.md,
13_host_commands.md, 12_governor.md, 08_memory_pool.md; derived) -/
def Obligations.ResetState : Prop :=
  State.reset.pending = [] ∧ State.reset.dev.c.devState = .starting ∧ State.reset.dev.c.stage = 0 ∧
  State.reset.dev.pw.auxUp = false ∧ State.reset.dev.pw.coreOn = false ∧ State.reset.dev.portUp = false ∧
  State.reset.dev.c.taken = [] ∧ State.reset.dev.c.busy = [] ∧ State.reset.dev.c.ctxs = [] ∧ State.reset.dev.c.frames = [] ∧
  State.reset.dev.c.devNumReg = 0 ∧ (∀ a, State.reset.dev.c.rget a = 0) ∧ State.reset.dev.c.marks = (256, 512) ∧
  State.reset.dev.c.escUs = 20 ∧ State.reset.dev.c.reqUs = 100 ∧ (∀ u, State.reset.dev.c.isFenced u = false) ∧
  State.reset.dev.tr.owner = none

/-- The auxiliary rail coming up makes it good and leaves the hold-up charge open between 0 and 100; the main input is
accepted only while it is good; core power-good and PERST# high together begin stage 1; loss of the auxiliary rail is a cold
reset that keeps only what flash and fuses hold; undervoltage drops the core rails and stops the chip without replies; its
recovery is a warm reset from stage 0. Completing commands (each has a clause whose conclusion is that exec answers the next
state of its own effect): auxRailUp, auxRailLoss, mainInputAccept, corePowerGood, perstDeassert, mainInputUvlo,
mainInputRecover. (16_module_electrical.md, 15_faults_selftest.md; derived) -/
def Obligations.RailsAndPins : Prop :=
  ∀ s : State,
  (s.dev.pw.auxUp = false → exec .auxRailUp s = .next (s.setD { s.dev with
      pw := { s.dev.pw with auxUp := true, holdup := Config.holdup s.dev.c.freeCtr % 101 }, c := s.dev.c.drawn })) ∧
  (exec .auxRailLoss s = .next (s.setD s.dev.cold) ∧ s.dev.cold.pw.auxUp = false ∧ s.dev.cold.pw.coreOn = false ∧
    s.dev.cold.gov = Gov.reset ∧ s.dev.cold.c.reg = [] ∧ s.dev.cold.c.ctxs = [] ∧ s.dev.cold.c.stage = 0 ∧
    s.dev.cold.c.failCnt = s.dev.c.failFlash ∧ s.dev.cold.c.retired = s.dev.c.retiredFlash ∧ s.dev.cold.tr.owner = s.dev.tr.owner ∧
    s.dev.cold.tr.peerKeys = []) ∧
  (s.dev.pw.auxUp = true → exec .mainInputAccept s =
    .next (s.setD { s.dev with pw := { s.dev.pw with mainOk := true, coreOn := true } })) ∧
  (s.dev.pw.coreOn = true → s.dev.pw.perstHigh = true → s.dev.c.devState = .starting → s.dev.c.stage = 0 →
    exec .corePowerGood s =
      .next (s.setD { s.dev with pw := { s.dev.pw with coreGood := true }, c := { s.dev.c with stage := 1 } })) ∧
  (s.dev.pw.coreOn = true → s.dev.pw.perstHigh = false →
    exec .corePowerGood s = .next (s.setD { s.dev with pw := { s.dev.pw with coreGood := true } })) ∧
  (s.dev.pw.coreGood = true → s.dev.c.devState = .starting → s.dev.c.stage = 0 → exec .perstDeassert s =
    .next (s.setD { s.dev with pw := { s.dev.pw with perstHigh := true }, c := { s.dev.c with stage := 1 } })) ∧
  (s.dev.pw.coreGood = false → exec .perstDeassert s =
    .next (s.setD { s.dev with pw := { s.dev.pw with perstHigh := true } })) ∧
  (exec .mainInputUvlo s = .next (s.setD { s.dev with
    pw := { s.dev.pw with mainOk := false, coreOn := false, coreGood := false }, c := s.dev.c.chipStop false })) ∧
  (s.dev.pw.auxUp = true → s.dev.pw.mainOk = false → exec .mainInputRecover s = .next (s.setD
    { s.dev.warm 0 false with pw := { s.dev.pw with mainOk := true, coreOn := true } }))

/-- A conventional reset, a hot reset, a Function Level Reset and the reset of DEV_RESET are the same warm reset from stage
1, but that the last two keep configuration space with its IDE streams: contexts, waiting commands, objects, keys and jobs
are gone, no reply is written, an RWS register keeps its value, every other register kept by address reads 0, GOV_TRIP and
the failure counts stay. Completing commands (each has a clause whose conclusion is that exec answers the next state of its
own effect): pcieConventionalReset, hotReset, functionLevelReset, devResetExec. (13_host_commands.md, 15_faults_selftest.md,
14_trust_firmware.md; derived) -/
def Obligations.WarmResets : Prop :=
  ∀ s : State,
  (s.dev.pw.coreGood = true → exec .pcieConventionalReset s = .next (s.setD (s.dev.warm 1 false))) ∧
  (s.dev.portUp = true → exec .hotReset s = .next (s.setD (s.dev.warm 1 false))) ∧
  (s.dev.portUp = true → exec .functionLevelReset s = .next (s.setD (s.dev.warm 1 true))) ∧
  (s.dev.c.resetReq = true → exec .devResetExec s = .next (s.setD (s.dev.warm 1 true))) ∧
  ∀ k,
    (s.dev.warm 1 k).pw = s.dev.pw ∧ (s.dev.warm 1 k).gov.trips = s.dev.gov.trips ∧
    (s.dev.warm 1 k).c.cfg = (if k then s.dev.c.cfg else PciConfig.reset) ∧
    (s.dev.warm 1 k).tr.ide = (if k then s.dev.tr.ide else []) ∧ (s.dev.warm 1 k).tr.peerKeys = [] ∧
    (s.dev.warm 1 k).tr.owner = s.dev.tr.owner ∧ (s.dev.warm 1 k).tr.svnFloor = s.dev.tr.svnFloor ∧
    (s.dev.warm 1 k).c.devState = .starting ∧ (s.dev.warm 1 k).c.stage = 1 ∧ (s.dev.warm 1 k).c.ctxs = [] ∧
    (s.dev.warm 1 k).c.waiting = [] ∧ (s.dev.warm 1 k).c.taken = [] ∧ (s.dev.warm 1 k).c.out = s.dev.c.out ∧
    (s.dev.warm 1 k).c.hostMem = s.dev.c.hostMem ∧ (s.dev.warm 1 k).c.failCnt = s.dev.c.failCnt ∧
    (s.dev.warm 1 k).c.dnValid = false ∧ (s.dev.warm 1 k).c.window = none ∧
    (∀ a, isRws a = true → (s.dev.warm 1 k).c.rget a = s.dev.c.rget a) ∧
    (∀ a, isRws a = false → (s.dev.warm 1 k).c.rget a = 0)

/-- At its own stage with the port working, each stage's event proceeds to the next: the boot ROM's measurement, the image
verified and booted, and then, at once or after a trip once every sensor reads below 85 degrees, BIST begun with the governor
at OP3, the staged image copied into the inactive slot, BIST, HBM training with every stack's contents gone, link training,
and local mapping, after which the device is ready unless R475 stops it. Where neither firmware slot verifies, the device
stays at stage 2 and accepts DEV_INFO, DEV_STATUS and DEV_EVENTS but not DEV_RESET. Completing commands (each has a clause
whose conclusion is that exec answers the next state of its own effect): stageBootRomDone, stageFwVerifyDone,
fwStagedCopyDone, stageBistDone, stageHbmTrainingDone, stageLinkTrainingDone, stageLocalMappingDone. (15_faults_selftest.md,
14_trust_firmware.md, 12_governor.md; derived) -/
def Obligations.StartUpStages : Prop :=
  ∀ s : State,
  (s.dev.atStage 1 = true → exec .stageBootRomDone s =
    .next (s.setD { s.dev with tr := { s.dev.tr with romMeas := Config.romDigest }, c := { s.dev.c with stage := 2 } })) ∧
  (∀ i, s.dev.atStage 2 = true → s.dev.tr.runImage = none → s.dev.tr.upd = .idle → s.dev.tr.fails < 2 → s.dev.tr.active = some i →
    s.dev.tr.verifies i = true →
    exec .stageFwVerifyDone s = .next (s.setD
      (({ s.dev with tr := { s.dev.tr with fails := s.dev.tr.fails + 1, copying := false } } : Dev).boot i false)) ∧
    ∀ d : Dev, d.c.devState = .starting → d.c.stage = 2 → (d.boot i false).tr.runImage = some i ∧
      (d.c.tripWait = false ∨ d.gov.cool = true →
        (d.boot i false).gov.op = 3 ∧ (d.boot i false).gov.active = true ∧ (d.boot i false).c.stage = 3) ∧
      (d.c.tripWait = true → d.gov.cool = false → (d.boot i false).c.stage = 2)) ∧
  (s.dev.atStage 2 = true → s.dev.tr.runImage = none → s.dev.tr.upd = .staged → s.dev.tr.verifies s.dev.tr.stage = true →
    exec .stageFwVerifyDone s = .next (s.setD { s.dev with tr := { s.dev.tr with copying := true } }) ∧
    exec .fwStagedCopyDone s = .next (s.setD { s.dev with tr := { s.dev.tr with
      slotA := (if s.dev.tr.activeB then some s.dev.tr.stage else s.dev.tr.slotA),
      slotB := (if s.dev.tr.activeB then s.dev.tr.slotB else some s.dev.tr.stage),
      activeB := !s.dev.tr.activeB, upd := .idle, copying := false, fails := 0 } })) ∧
  (∀ failed : List SUnit, s.dev.atStage 3 = true → (∀ u, u ∈ failed → u.valid = true) →
    ∃ c, exec (.stageBistDone failed) s = .next (s.setC c) ∧ c.stage = 4 ∧ c.sram = [] ∧
      c = { s.dev.c.bistOutcome (bistUnits 3 0 false) ((bistUnits 3 0 false).filter (fun u => failed.contains u)) false with
        stage := 4, sram := [], sramEpoch := c.sramEpoch, stageFail := c.stageFail } ∧
      ∀ u, u ∈ failed → u ∈ bistUnits 3 0 false → u ∈ c.stageFail) ∧
  (∀ failed : List Nat, s.dev.atStage 4 = true → (∀ m, m ∈ failed → m < 24) →
    exec (.stageHbmTrainingDone failed) s = .next (s.setC { s.dev.c with
      stage := 5, stageFail := s.dev.c.stageFail ++ failed.map SUnit.stack, hbm := [], words := [], scrub := [],
      links := (List.range 36).map (fun l => (l, { s.dev.c.link l with
        st := if (s.dev.c.link l).enabled then .training else .disabled })) })) ∧
  (∀ failed : List Nat, s.dev.atStage 5 = true → (∀ l, l ∈ failed → l < 36) →
    s.dev.pw.linkRef = false ∨ (∀ e, e ∈ s.dev.c.links → e.2.st ≠ .training ∨ e.1 ∈ failed) →
    exec (.stageLinkTrainingDone failed) s = .next (s.setC { s.dev.c with
      stage := 6,
      links := s.dev.c.links.map (fun e => (e.1,
        if e.2.st = .training ∨ (s.dev.pw.linkRef = false ∧ e.2.enabled = true) then { e.2 with st := .down } else e.2)) })) ∧
  (s.dev.atStage 6 = true → s.dev.c.localMap.devState = .stopped →
    exec .stageLocalMappingDone s = .next (s.setC s.dev.c.localMap)) ∧
  (s.dev.atStage 6 = true → s.dev.c.localMap.devState ≠ .stopped →
    exec .stageLocalMappingDone s = .next (s.setD (s.dev.setC s.dev.c.localMap).becomeReady) ∧
    (s.dev.setC s.dev.c.localMap).becomeReady.c.devState = .ready ∧ (s.dev.setC s.dev.c.localMap).becomeReady.tr.fails = 0) ∧
  (s.dev.atStage 2 = true → s.dev.tr.runImage = none → s.dev.tr.upd = .idle → s.dev.tr.slotOk s.dev.tr.slotA = false →
    s.dev.tr.slotOk s.dev.tr.slotB = false →
    ∃ d, exec .stageFwVerifyDone s = .next (s.setD d) ∧ d.tr.runImage = none ∧ d.c.noImage = true ∧ d.c.devState = .starting ∧
      d.c.stage = 2 ∧ d.c.accepts 0x101 = true ∧ d.c.accepts 0x102 = true ∧ d.c.accepts 0x103 = false ∧ d.c.accepts 0x104 = true)

/-- At a working port, a write that lands in a busy slot changes nothing but CMD_DROPPED, one higher while it fits its 32
bits, and DEV_EVENT[1] with its interrupt: no byte of the slot is written and no packet is taken. Completing commands (each
has a clause whose conclusion is that exec answers the next state of its own effect): apertureWrite. (R407) -/
def Obligations.BusySlotDropsTheWrite : Prop :=
  ∀ (s : State) (off : Nat) (data : List Byte), (Instr.apertureWrite off data).wf = true → s.dev.portUp = true →
    (kget s.dev.c.busy (off / 0x2000)).isSome = true →
    ∃ c, exec (.apertureWrite off data) s = .next (s.setC c) ∧ c.slotMem = s.dev.c.slotMem ∧ c.taken = s.dev.c.taken ∧
      c.event = s.dev.c.event ||| 2#32 ∧ (s.dev.c.rget 0x550 + 1 < 2 ^ 32 → c.rget 0x550 = s.dev.c.rget 0x550 + 1) ∧
      c = { s.dev.c with reg := c.reg, event := c.event, msixPend := c.msixPend, out := c.out } ∧
      ∀ a, a ≠ 0x550 → c.rget a = s.dev.c.rget a

/-- At a working port of a device that is not stopped, a write into a free slot that covers the word after the payload and
leaves there a seal that matches sequence number and CRC makes the slot busy and takes the packet that the slot's bytes
spell: below the limit of commands in flight a known opcode is queued, an unknown one answered with status 1, and at the
limit status 5. A bad seal is counted in CMD_SEAL_ERR with DEV_EVENT[0] and makes no packet. The copy of a packet frees its
slot. Completing commands (each has a clause whose conclusion is that exec answers the next state of its own effect):
apertureWrite, slotCopyDone. (13_host_commands.md; derived) -/
def Obligations.SealedPacketIsTaken : Prop :=
  ∀ (s : State) (off : Nat) (data : List Byte), (Instr.apertureWrite off data).wf = true → s.dev.portUp = true →
    kget s.dev.c.busy (off / 0x2000) = none →
    let c1 : Core := { s.dev.c with slotMem := mputs s.dev.c.slotMem off data }
    let a := off / 0x2000 * 0x2000
    let plen := ofLe (c1.slotBytes (a + 0x0C) 2)
    let word := ofLe (c1.slotBytes (a + 64 + plen) 8)
    let b := c1.slotBytes a (64 + plen)
    let covers : Prop := plen % 8 = 0 ∧ 64 + plen + 8 ≤ 0x2000 ∧ off ≤ a + 64 + plen ∧ a + 64 + plen + 8 ≤ off + data.length
    (¬ covers → exec (.apertureWrite off data) s = .next (s.setC c1)) ∧
    (covers → word / 2 ^ 32 % 2 ^ 16 ≠ 0xA55A → exec (.apertureWrite off data) s = .next (s.setC c1)) ∧
    (covers → word / 2 ^ 32 % 2 ^ 16 = 0xA55A → sealOk b plen word = false →
      exec (.apertureWrite off data) s = .next (s.setC ((c1.bump 0x54C 32 1).devEvent 0))) ∧
    (covers → word / 2 ^ 32 % 2 ^ 16 = 0xA55A → sealOk b plen word = true → s.dev.c.devState ≠ .stopped →
      let p := parsePacket b (off / 0x2000) false
      let c2 := ({ c1 with busy := kset c1.busy (off / 0x2000) p } : Core).arrive p
      (c1.inflight < 1024 → opcodeKnown p.opcode.toNat = true →
        exec (.apertureWrite off data) s = .next (s.setC { c2 with taken := c2.taken ++ [p] })) ∧
      (c1.inflight < 1024 → opcodeKnown p.opcode.toNat = false →
        exec (.apertureWrite off data) s = .next (s.setC (c2.finish p 1 []))) ∧
      (1024 ≤ c1.inflight → exec (.apertureWrite off data) s = .next (s.setC (c2.finish p 5 [])))) ∧
    ∀ slot, slot < 512 →
      exec (.slotCopyDone slot) s = .next (s.setC { s.dev.c with busy := kdel s.dev.c.busy slot })

/-- The fetch in progress at a place of the list ends: bytes that pass the checks of R406 are taken as a fetched packet and
the naming command's held reply is written; otherwise DEV_EVENT[2] is set, the chain ends, and the held reply is written with
R_FLAGS[1], or the naming packet marked so that its reply will carry it. Completing commands (each has a clause whose
conclusion is that exec answers the next state of its own effect): chainFetchDone. (13_host_commands.md; derived) -/
def Obligations.ChainFetch : Prop :=
  ∀ (s : State) (n : Nat) (x : Chain) (b : List Byte), s.dev.c.chains[n]? = some x → x.ended = false →
    (∀ r, fetchOk b = true → x.held = some r → exec (.chainFetchDone n (some b)) s = .next (s.setC
      ((({ s.dev.c with chains := dropAt s.dev.c.chains n } : Core).takePkt (parsePacket b 0 true)).writeReply x.pkt r))) ∧
    (fetchOk b = true → x.held = none → exec (.chainFetchDone n (some b)) s = .next (s.setC
      (({ s.dev.c with chains := dropAt s.dev.c.chains n } : Core).takePkt (parsePacket b 0 true)))) ∧
    (∀ o r, o = none ∨ (o = some b ∧ fetchOk b = false) → x.held = some r →
      exec (.chainFetchDone n o) s = .next (s.setC
        ((({ s.dev.c with chains := dropAt s.dev.c.chains n } : Core).devEvent 2).writeReply x.pkt (chainEndedReply r)))) ∧
    (∀ o, o = none ∨ (o = some b ∧ fetchOk b = false) → x.held = none →
      exec (.chainFetchDone n o) s = .next (s.setC
        (({ s.dev.c with chains := modAt s.dev.c.chains n (fun x => { x with ended := true }) } : Core).devEvent 2)))

/-- Whatever command of the table its row runs, a taken packet that is next of its group and fails a check replies with the
status of the first failing check in the table's order, and only the reply's effects follow: header 2, length 3, context 4,
device state 6, parameter width 8. (13_host_commands.md; derived) -/
def Obligations.RefusedHeaders : Prop :=
  ∀ (k : Cmd) (p : Packet) (s : State) (body : Dev → Core) (st : Nat), p.opcode.toNat = k.op → p ∈ s.dev.c.taken →
    s.dev.c.blocked p = false → (s.dev.c.begun p).check k p = some st →
    hostCmd k p s body = .next (s.setC ((s.dev.c.begun p).finish p st [])) ∧
    (headerOk p = false → st = 2) ∧ (headerOk p = true → k.lenOk p = false → st = 3) ∧
    (headerOk p = true → k.lenOk p = true → p.ctxv = k.ctxv → (k.ctxv = false → p.ctx = 0) → st ≠ 4 →
      (s.dev.c.accepts k.op = false → st = 6) ∧ (s.dev.c.accepts k.op = true → st = 8 ∧ k.widthsOk p = false)) ∧
    ∃ ev pe ou hm bu ch, (s.dev.c.begun p).finish p st [] = { s.dev.c.begun p with
      event := ev, msixPend := pe, out := ou, hostMem := hm, busy := bu, chains := ch }

/-- A command that completes with its H_REPLY aligned, reachable and not 0, no chain and no vector writes exactly the record
of R412 there: sequence number, opcode, status, context, slot, values, the time of region 0's timer and the closing word; no
other byte of host memory changes and the write is the last thing made visible. (13_host_commands.md; derived) -/
def Obligations.ReplyRecord : Prop :=
  ∀ (c : Core) (p : Packet) (st : Nat) (vals : List Nat), p.reply ≠ 0 → p.reply.toNat % 64 = 0 →
    c.reach p.reply.toNat 64 = true → p.wantsVec = false → p.chain = false → (∀ x, x ∈ c.chains → x.pkt ≠ p) →
    (replyRecord p st 0 vals false (c.now 0)).length = 64 ∧
    (c.finish p st vals).out = c.out ++ [.dma p.reply.toNat (replyRecord p st 0 vals false (c.now 0))] ∧
    (c.finish p st vals).hostMem = mputs c.hostMem p.reply.toNat (replyRecord p st 0 vals false (c.now 0)) ∧
    c.finish p st vals = { c with out := (c.finish p st vals).out, hostMem := (c.finish p st vals).hostMem,
                                  busy := (c.finish p st vals).busy }

/-- Once begun: DEV_INFO and DEV_STATUS write their record at the aligned host address that DMA reaches and reply 0 (0x0008
when misaligned, 0x0102 when not reached); DEV_RESET is refused with 0x0101 while a job is bound and not forced, else replies
and arranges the reset; DEV_EVENTS returns DEV_EVENT in R_VAL0 and clears it. Completing commands (each has a clause whose
conclusion is that exec answers the next state of its own effect): devInfo, devStatus, devReset, devEvents.
(13_host_commands.md; derived) -/
def Obligations.DeviceCommands : Prop :=
  ∀ (s : State) (p : Packet) (c : Core),
  (s.dev.begins (Cmd.plain 0x101 false [64]) p c → p.arg 0 % 64 = 0 →
    c.reach (p.arg 0) (s.dev.setC c).infoRecord.length = true →
    exec (.devInfo p) s = .next (s.setC ((c.dma (p.arg 0) (s.dev.setC c).infoRecord).finish p 0 []))) ∧
  (s.dev.begins (Cmd.plain 0x101 false [64]) p c → p.arg 0 % 64 ≠ 0 →
    exec (.devInfo p) s = .next (s.setC (c.finish p 8 []))) ∧
  (s.dev.begins (Cmd.plain 0x101 false [64]) p c → p.arg 0 % 64 = 0 →
    c.reach (p.arg 0) (s.dev.setC c).infoRecord.length = false →
    exec (.devInfo p) s = .next (s.setC (c.finish p 0x102 []))) ∧
  (s.dev.begins (Cmd.plain 0x102 false [64]) p c → p.arg 0 % 64 = 0 →
    c.reach (p.arg 0) (s.dev.setC c).statusRecord.length = true →
    exec (.devStatus p) s = .next (s.setC ((c.dma (p.arg 0) (s.dev.setC c).statusRecord).finish p 0 []))) ∧
  (s.dev.begins (Cmd.plain 0x103 false [1]) p c → c.anyJob = true → p.arg 0 = 0 →
    exec (.devReset p) s = .next (s.setC (c.finish p 0x101 []))) ∧
  (s.dev.begins (Cmd.plain 0x103 false [1]) p c → c.anyJob = false ∨ p.arg 0 ≠ 0 →
    exec (.devReset p) s = .next (s.setC { c.finish p 0 [] with resetReq := true })) ∧
  (s.dev.begins (Cmd.plain 0x104 false []) p c →
    exec (.devEvents p) s = .next (s.setC (({ c with event := 0 } : Core).finish p 0 [c.event.toNat])))

/-- Once begun: CTX_CREATE refuses an existing number with 0x0260 and a confidential context without a secure stream over all
BARs with 0x0262, else creates the context fresh; CTX_DESTROY refuses while a job is bound (0x0261), waits for the settle
point of a started run, else drops the context with all it owns; CTX_LIST writes the status record; WINDOW_SET sets or clears
the window and is refused with 0x0263 for a confidential context or a bad base. Completing commands (each has a clause whose
conclusion is that exec answers the next state of its own effect): ctxCreate, ctxDestroy, ctxList, windowSet.
(13_host_commands.md; derived) -/
def Obligations.ContextCommands : Prop :=
  ∀ (s : State) (p : Packet) (c : Core) (x : Ctx),
  (s.dev.begins (Cmd.plain 0x201 true [1]) p c → c.ctx? p.ctxNum = some x →
    exec (.ctxCreate p) s = .next (s.setC (c.finish p 0x260 []))) ∧
  (s.dev.begins (Cmd.plain 0x201 true [1]) p c → c.ctx? p.ctxNum = none → p.arg 0 = 1 → s.dev.tr.ideOk = false →
    exec (.ctxCreate p) s = .next (s.setC (c.finish p 0x262 []))) ∧
  (s.dev.begins (Cmd.plain 0x201 true [1]) p c → c.ctx? p.ctxNum = none → p.arg 0 = 0 ∨ s.dev.tr.ideOk = true →
    exec (.ctxCreate p) s = .next (s.setC
      (({ c with ctxs := kset c.ctxs p.ctxNum (Ctx.fresh (p.arg 0 = 1)) } : Core).finish p 0 []))) ∧
  (s.dev.begins (Cmd.plain 0x202 true []) p c → c.ctx? p.ctxNum = some x → x.job.isSome = true →
    exec (.ctxDestroy p) s = .next (s.setC (c.finish p 0x261 []))) ∧
  (s.dev.begins (Cmd.plain 0x202 true []) p c → c.ctx? p.ctxNum = some x → x.job = none → x.run.isSome = true →
    exec (.ctxDestroy p) s = .next (s.setC ((c.modRun p.ctxNum (fun r => { r with stopReq := true })).wait p .destroy))) ∧
  (s.dev.begins (Cmd.plain 0x202 true []) p c → c.ctx? p.ctxNum = some x → x.job = none → x.run = none →
    exec (.ctxDestroy p) s = .next (s.setC ((c.dropCtx p.ctxNum).finish p 0 []))) ∧
  (s.dev.begins (Cmd.plain 0x203 true [64]) p c → p.arg 0 % 64 = 0 →
    c.reach (p.arg 0) (s.dev.setC c).statusRecord.length = true →
    exec (.ctxList p) s = .next (s.setC ((c.dma (p.arg 0) (s.dev.setC c).statusRecord).finish p 0 []))) ∧
  (s.dev.begins (Cmd.plain 0x204 true [64, 1]) p c → c.ctx? p.ctxNum = some x →
    x.conf = true ∨ p.arg 0 % 2 ^ 30 ≠ 0 ∨ 2 ^ 45 ≤ p.arg 0 →
    exec (.windowSet p) s = .next (s.setC (c.finish p 0x263 []))) ∧
  (s.dev.begins (Cmd.plain 0x204 true [64, 1]) p c → c.ctx? p.ctxNum = some x → x.conf = false → p.arg 0 % 2 ^ 30 = 0 →
    p.arg 0 < 2 ^ 45 → p.arg 1 = 1 →
    exec (.windowSet p) s = .next (s.setC (({ c with window := some (p.ctxNum, p.arg 0) } : Core).finish p 0 []))) ∧
  (s.dev.begins (Cmd.plain 0x204 true [64, 1]) p c → c.ctx? p.ctxNum = some x → x.conf = false → p.arg 0 % 2 ^ 30 = 0 →
    p.arg 0 < 2 ^ 45 → p.arg 1 = 0 → ∀ b, c.window = some (p.ctxNum, b) →
    exec (.windowSet p) s = .next (s.setC (({ c with window := none } : Core).finish p 0 [])))

/-- Once begun on an object the handle names: OBJ_FREE is refused for an object with pages (0x0246), marks the object while a
run is started, else frees it and serves what waits, the reply waiting for a plot in motion; OBJ_HINT sets the hint of floor
objects, and the pin hint of a pinned one, at once, else pins by promotion or is refused with 0x0243, and unpins; OBJ_PROMOTE
checks its range and waits for it; OBJ_EVICT is refused for objects that stay (0x0246), promoting (0x0244) or without spill
frames (0x0248), else starts the eviction and waits; an object already leaving is waited for and one with no plot resident is
done at once; OBJ_QUERY writes the record. A handle of no object replies 0x0245. OBJ_ALLOC and FLOOR_SET are tried at once
and wait where plots must first be evicted. Completing commands (each has a clause whose conclusion is that exec answers the
next state of its own effect): floorSet, objAlloc, objFree, objHint, objPromote, objEvict, objQuery. (08_memory_pool.md;
derived) -/
def Obligations.PoolCommands : Prop :=
  ∀ (s : State) (p : Packet) (c : Core) (x : Ctx) (i : Nat) (o : Obj),
  (s.dev.begins (Cmd.plain 0x210 true [64, 64]) p c → c.ctx? p.ctxNum = some x → 8192 < p.arg 0 ∨ 8192 < p.arg 1 →
    exec (.floorSet p) s = .next (s.setC (c.finish p 0x24A []))) ∧
  (s.dev.begins (Cmd.plain 0x210 true [64, 64]) p c → c.ctx? p.ctxNum = some x → p.arg 0 ≤ 8192 → p.arg 1 ≤ 8192 →
    x.objs = [] → x.progs = [] →
    (∀ m, m < 24 → c.stackOk m = true → x.floorUsed m ≤ p.arg 0 ∧ p.arg 0 ≤
      32752 - (c.retired.filter (fun r => r.1 = m && 16 ≤ r.2)).length -
        (c.ctxs.map (fun e => if e.1 = p.ctxNum then 0 else e.2.floorIn m)).sum) →
    exec (.floorSet p) s = .next (s.setC
      (if (c.tryFloor { pkt := p, kind := .floor }).2 then (c.tryFloor { pkt := p, kind := .floor }).1
       else (c.tryFloor { pkt := p, kind := .floor }).1.wait p .floor))) ∧
  (s.dev.begins (Cmd.plain 0x211 true [64, 64, 64, 64]) p c → ∀ st,
    c.allocRefusal p.ctxNum (p.arg 0) (p.arg 1) (p.arg 2) (p.arg 3) = some st →
    exec (.objAlloc p) s = .next (s.setC (c.finish p st []))) ∧
  (s.dev.begins (Cmd.plain 0x211 true [64, 64, 64, 64]) p c → ∀ idx,
    c.allocRefusal p.ctxNum (p.arg 0) (p.arg 1) (p.arg 2) (p.arg 3) = none → c.freeIndex p.ctxNum = some idx →
    winLo ≤ p.arg 0 ∨ p.arg 3 = 1 ∨ p.arg 2 = 2 → c.ctx? p.ctxNum = some x →
    (∀ o, o ∈ x.objs → overlaps (p.arg 0) (p.arg 1 * plotBytes) o.2.base o.2.size = false) →
    exec (.objAlloc p) s = .next (s.setC
      ((c.allocNow p.ctxNum (p.arg 0) (p.arg 1) (p.arg 2) (p.arg 3) idx).1.finish p 0
        [(c.allocNow p.ctxNum (p.arg 0) (p.arg 1) (p.arg 2) (p.arg 3) idx).2]))) ∧
  (s.dev.begins (Cmd.plain 0x212 true [64]) p c → c.ctx? p.ctxNum = some x → x.objOf p.ctxNum (p.arg 0) = none →
    exec (.objFree p) s = .next (s.setC (c.finish p 0x245 []))) ∧
  (s.dev.begins (Cmd.plain 0x212 true [64]) p c → c.names p x i o → x.pagesIn o = true →
    exec (.objFree p) s = .next (s.setC (c.finish p 0x246 []))) ∧
  (s.dev.begins (Cmd.plain 0x212 true [64]) p c → c.names p x i o → x.pagesIn o = false → x.run.isSome = true →
    exec (.objFree p) s = .next (s.setC
      ((c.modObj p.ctxNum i (fun o => { o with freeAtSettle := true })).finish p 0 []))) ∧
  (s.dev.begins (Cmd.plain 0x212 true [64]) p c → c.names p x i o → x.pagesIn o = false → x.run = none → o.moving = false →
    exec (.objFree p) s = .next (s.setC (((c.freeObj p.ctxNum i).servePool).finish p 0 []))) ∧
  (s.dev.begins (Cmd.plain 0x212 true [64]) p c → c.names p x i o → x.pagesIn o = false → x.run = none → o.moving = true →
    exec (.objFree p) s = .next (s.setC ((c.wait p (.free i)).freeObj p.ctxNum i).servePool)) ∧
  (s.dev.begins (Cmd.plain 0x213 true [64, 64]) p c → c.names p x i o → p.arg 1 < 5 → o.window = false →
    x.isSpill p.ctxNum i o = false → o.floor = true ∨ (p.arg 1 = 4 ∧ o.st = .pinned) →
    exec (.objHint p) s = .next (s.setC ((c.modObj p.ctxNum i (fun o => { o with hint := p.arg 1 })).finish p 0 []))) ∧
  (s.dev.begins (Cmd.plain 0x213 true [64, 64]) p c → c.names p x i o → p.arg 1 = 4 → o.window = false →
    x.isSpill p.ctxNum i o = false → o.floor = false → o.st ≠ .pinned → c.pinFits x i o = true →
    exec (.objHint p) s = .next (s.setC
      (((c.wait p (.pin i)).modObj p.ctxNum i (fun o => { o with hint := 4 })).promote p.ctxNum i 0 o.plots.length))) ∧
  (s.dev.begins (Cmd.plain 0x213 true [64, 64]) p c → c.names p x i o → p.arg 1 = 4 → o.window = false →
    x.isSpill p.ctxNum i o = false → o.floor = false → o.st ≠ .pinned → c.pinFits x i o = false →
    exec (.objHint p) s = .next (s.setC (c.finish p 0x243 []))) ∧
  (s.dev.begins (Cmd.plain 0x213 true [64, 64]) p c → c.names p x i o → p.arg 1 < 4 → o.window = false →
    x.isSpill p.ctxNum i o = false → o.floor = false →
    exec (.objHint p) s = .next (s.setC ((c.modObj p.ctxNum i (fun o => { o with
      hint := p.arg 1, st := if o.st = .pinned then .resident else o.st })).finish p 0 []))) ∧
  (s.dev.begins (Cmd.plain 0x214 true [64, 64, 64]) p c → c.names p x i o → o.window = false →
    x.isSpill p.ctxNum i o = false → o.floor = false → 1 ≤ p.arg 2 → p.arg 1 + p.arg 2 ≤ o.plots.length →
    exec (.objPromote p) s = .next (s.setC
      ((c.wait p (.promote i (p.arg 1) (p.arg 2))).promote p.ctxNum i (p.arg 1) (p.arg 2)))) ∧
  (s.dev.begins (Cmd.plain 0x214 true [64, 64, 64]) p c → c.names p x i o → o.window = false →
    x.isSpill p.ctxNum i o = false → o.plots.length < p.arg 1 + p.arg 2 →
    exec (.objPromote p) s = .next (s.setC (c.finish p 0x24A []))) ∧
  (s.dev.begins (Cmd.plain 0x215 true [64]) p c → c.names p x i o →
    o.window = true ∨ o.floor = true ∨ o.st = .pinned ∨ x.isSpill p.ctxNum i o = true →
    exec (.objEvict p) s = .next (s.setC (c.finish p 0x246 []))) ∧
  (s.dev.begins (Cmd.plain 0x215 true [64]) p c → c.names p x i o → o.window = false → o.floor = false →
    x.isSpill p.ctxNum i o = false → x.conf = false → o.st = .resident → o.residentPlots ≠ [] →
    o.residentPlots.length ≤ (c.freeFrames p.ctxNum).length →
    exec (.objEvict p) s = .next (s.setC ((c.startEvict p.ctxNum i o false).wait p (.evict i)))) ∧
  (s.dev.begins (Cmd.plain 0x215 true [64]) p c → c.names p x i o → o.window = false → o.floor = false →
    x.isSpill p.ctxNum i o = false → x.conf = false → o.st = .resident → o.residentPlots ≠ [] →
    (c.freeFrames p.ctxNum).length < o.residentPlots.length →
    exec (.objEvict p) s = .next (s.setC (c.finish p 0x248 []))) ∧
  (s.dev.begins (Cmd.plain 0x215 true [64]) p c → c.names p x i o → o.window = false → o.floor = false →
    x.isSpill p.ctxNum i o = false → x.conf = false → o.st = .promoting →
    exec (.objEvict p) s = .next (s.setC ((c.modObj p.ctxNum i (fun o => { o with age := 0 })).finish p 0x244 []))) ∧
  (s.dev.begins (Cmd.plain 0x215 true [64]) p c → c.names p x i o → o.window = false → o.floor = false →
    x.isSpill p.ctxNum i o = false → x.conf = false → o.st = .evicting →
    exec (.objEvict p) s = .next (s.setC (c.wait p (.evict i)))) ∧
  (s.dev.begins (Cmd.plain 0x215 true [64]) p c → c.names p x i o → o.window = false → o.floor = false →
    x.isSpill p.ctxNum i o = false → x.conf = false → o.st = .resident ∨ o.st = .host → o.residentPlots = [] →
    exec (.objEvict p) s = .next (s.setC (c.finish p 0 []))) ∧
  (s.dev.begins (Cmd.plain 0x216 true [64, 64]) p c → c.names p x i o → p.arg 1 % 64 = 0 →
    c.reach (p.arg 1) (objRecord x.conf (x.isSpill p.ctxNum i o) p.ctxNum i o).length = true →
    exec (.objQuery p) s = .next (s.setC
      ((c.dma (p.arg 1) (objRecord x.conf (x.isSpill p.ctxNum i o) p.ctxNum i o)).finish p 0 [])))

/-- Once begun: HOST_MAP maps its frames to the context, all or, where one is mapped or an address is misaligned, none
(0x0247); HOST_UNMAP unmaps a range only while every frame of it is the context's and free; POOL_STATUS writes the pool
record; POOL_MARKS sets both marks when they are in range and in order, else replies 0x024A. Completing commands (each has a
clause whose conclusion is that exec answers the next state of its own effect): hostMap, hostUnmap, poolStatus, poolMarks.
(08_memory_pool.md; derived) -/
def Obligations.FrameAndMarkCommands : Prop :=
  ∀ (s : State) (p : Packet) (c : Core) (x : Ctx),
  (s.dev.begins { op := 0x217, ctxv := true, widths := [64, 64, 64], list := some (0, 509) } p c →
    1 ≤ p.arg 1 → p.arg 1 ≤ 256 → p.arg 0 + p.arg 1 ≤ frameCount → p.arg 2 < 2 → p.plen.toNat = 8 * (3 + p.arg 1) →
    (∀ i, i < p.arg 1 → kget c.frames (p.arg 0 + i) = none ∧ p.arg (3 + i) % plotBytes = 0) →
    exec (.hostMap p) s = .next (s.setC (({ c with
      frames := (List.range (p.arg 1)).foldl (fun (fs : KMap Nat Frame) (i : Nat) =>
        kset fs (p.arg 0 + i) (Frame.mk p.ctxNum (p.arg 2 = 1) (p.arg (3 + i)) false)) c.frames } : Core).finish p 0 []))) ∧
  (s.dev.begins { op := 0x217, ctxv := true, widths := [64, 64, 64], list := some (0, 509) } p c →
    1 ≤ p.arg 1 → p.arg 1 ≤ 256 → p.arg 0 + p.arg 1 ≤ frameCount → p.arg 2 < 2 → p.plen.toNat = 8 * (3 + p.arg 1) →
    (∃ i, i < p.arg 1 ∧ (kget c.frames (p.arg 0 + i) ≠ none ∨ p.arg (3 + i) % plotBytes ≠ 0)) →
    exec (.hostMap p) s = .next (s.setC (c.finish p 0x247 []))) ∧
  (s.dev.begins (Cmd.plain 0x218 true [64, 64]) p c → c.ctx? p.ctxNum = some x → p.arg 0 + p.arg 1 ≤ frameCount →
    (∀ i, i < p.arg 1 → ∃ fr, kget c.frames (p.arg 0 + i) = some fr ∧ x.frameFree p.ctxNum (p.arg 0 + i) fr = true) →
    exec (.hostUnmap p) s = .next (s.setC
      ((({ c with frames := c.frames.filter (fun e =>
          !(((List.range (p.arg 1)).map (fun i => p.arg 0 + i)).contains e.1)) } : Core).modCtx p.ctxNum
        (fun x => { x with sealArea := x.sealArea.filter (fun e =>
          !(((List.range (p.arg 1)).map (fun i => p.arg 0 + i)).contains e.1)) })).finish p 0 []))) ∧
  (s.dev.begins (Cmd.plain 0x218 true [64, 64]) p c → c.ctx? p.ctxNum = some x → p.arg 0 + p.arg 1 ≤ frameCount →
    (∃ i, i < p.arg 1 ∧ ∀ fr, kget c.frames (p.arg 0 + i) = some fr → x.frameFree p.ctxNum (p.arg 0 + i) fr = false) →
    exec (.hostUnmap p) s = .next (s.setC (c.finish p 0x247 []))) ∧
  (s.dev.begins (Cmd.plain 0x219 false [64]) p c → p.arg 0 % 64 = 0 → c.reach (p.arg 0) c.poolRecord.length = true →
    exec (.poolStatus p) s = .next (s.setC ((c.dma (p.arg 0) c.poolRecord).finish p 0 []))) ∧
  (s.dev.begins (Cmd.plain 0x21A false [64, 64]) p c → p.arg 0 ≤ p.arg 1 → p.arg 1 ≤ 8192 →
    exec (.poolMarks p) s = .next (s.setC (({ c with marks := (p.arg 0, p.arg 1) } : Core).finish p 0 []))) ∧
  (s.dev.begins (Cmd.plain 0x21A false [64, 64]) p c → p.arg 1 < p.arg 0 ∨ 8192 < p.arg 0 ∨ 8192 < p.arg 1 →
    exec (.poolMarks p) s = .next (s.setC (c.finish p 0x24A [])))

/-- A leaving plot of an ordinary object is put out to its spill frame, the passes that met it are parked anew, the eviction
ends with its last plot, and what waits for plots is served; a plot of a confidential context without its key stays; a
leaving plot of the spill object serves the promotion that waits; an arriving plot is put in and its object's moves go on;
the scrub of a working stack moves to its next physical plot, plot 0 first; a plot copied for retirement is repointed and
retired, and its stack is fenced when too many are. Completing commands (each has a clause whose conclusion is that exec
answers the next state of its own effect): plotEvictDone, stashDemoteDone, plotPromoteDone, scrubTick, plotRetireCopyDone.
(08_memory_pool.md, 15_faults_selftest.md, 10_update_unit.md; derived) -/
def Obligations.PlotMoves : Prop :=
  ∀ (s : State) (n plot i k : Nat) (x : Ctx) (o : Obj) (e : PlotEnt),
  (n < 16 → s.dev.c.entryAt n plot = some (i, k, o, e) → s.dev.c.ctx? n = some x → e.st = .leaving →
    x.isSpill n i o = false → s.dev.stacksUp = true → x.maySpill = true →
    exec (.plotEvictDone n plot) s = .next (s.setC
      (((((s.dev.c.plotOut n plot i k o e).reparks n plot).endEvict n i true).endFree n i).servePool))) ∧
  (n < 16 → s.dev.c.entryAt n plot = some (i, k, o, e) → s.dev.c.ctx? n = some x → e.st = .leaving →
    x.isSpill n i o = false → s.dev.stacksUp = true → x.maySpill = false →
    exec (.plotEvictDone n plot) s = .next (s.setC
      ((((s.dev.c.plotKept n i k e).endEvict n i false).endFree n i).servePool))) ∧
  (∀ c : Core, c.obj? n i = some o → (∀ e, e ∈ o.plots → e.st ≠ .leaving) → o.st = .evicting →
    c.endEvict n i true = (c.modObj n i (fun o => { o with st := o.rest, need := false, evicts := (o.evicts + 1) % 2 ^ 32 })).replyWaiting
      (fun w => w.pkt.ctxNum = n && w.kind = .evict i) 0 []) ∧
  (n < 16 → s.dev.c.entryAt n plot = some (i, k, o, e) → s.dev.c.ctx? n = some x → e.st = .leaving →
    x.isSpill n i o = true → s.dev.stacksUp = true → x.maySpill = true →
    exec (.stashDemoteDone n plot) s = .next (s.setC
      (((((s.dev.c.plotOut n plot i k o e).respill n plot i k).arrivals n i).endFree n i).servePool))) ∧
  (∀ ok, n < 16 → s.dev.stacksUp = true → exec (.plotPromoteDone n plot ok) s = .next (s.setC (s.dev.c.promoteDone n plot ok).allRequests)) ∧
  (∀ stack, stack < 24 → s.dev.c.stackOk stack = true → 5 ≤ s.dev.c.stage → s.dev.pw.coreGood = true → s.dev.stacksUp = true →
    let q := match kget s.dev.c.scrub stack with | some q => (q + 1) % 32768 | none => 0
    exec (.scrubTick stack [] []) s = .next (s.setC
      (({ s.dev.c with scrub := kset s.dev.c.scrub stack q } : Core).scrubInject stack (q * plotBytes) 255))) ∧
  (∀ stack phys, stack < 24 → phys < 32768 → s.dev.stacksUp = true → (s.dev.c.retireDone stack phys).tooRetired stack = false →
    exec (.plotRetireCopyDone stack phys) s = .next (s.setC (s.dev.c.retireDone stack phys).servePool)) ∧
  (∀ stack phys, stack < 24 → phys < 32768 → s.dev.stacksUp = true → (s.dev.c.retireDone stack phys).tooRetired stack = true →
    exec (.plotRetireCopyDone stack phys) s = .next (s.setC ((s.dev.c.retireDone stack phys).decideFence (.stack stack)).servePool))

/-- Once begun on entries that the context's page table holds: PAGE_ADD gives unused pages their addresses in order and puts
them at the end of their class's free list; PAGE_MAP takes a free page off its list and makes it live with one reference;
PAGE_REF and PAGE_UNREF count references (0x0254 at 65,535 and at 0); PAGE_DROP is refused for a pinned page (0x0253), else
makes the page fallow and hands its memory to the unused page; PAGE_REVIVE copies one page's size into memory from its
class's list; PAGE_READ writes the descriptors; KV_TABLE makes every entry unused. Entries beyond the table reply 0x0251.
Completing commands (each has a clause whose conclusion is that exec answers the next state of its own effect): kvTable,
pageAdd, pageMap, pageRef, pageUnref, pageDrop, pageRevive, pageRead, pageCopyDone. (07_attention_pages.md; derived) -/
def Obligations.PageCommands : Prop :=
  ∀ (s : State) (p : Packet) (c : Core) (x : Ctx),
  (s.dev.begins (Cmd.plain 0x230 true [64]) p c → c.ctx? p.ctxNum = some x → isPow2 (p.arg 0) = true → 1024 ≤ p.arg 0 →
    p.arg 0 ≤ 1048576 → x.run = none → ∀ c2, (({ c with copies := c.copies.filter (fun k => k.ctx ≠ p.ctxNum) } : Core).modCtx p.ctxNum (fun x => { x with
        tabPlots := x.tabPlots.filter (fun t => t.table ≠ 8), absent := x.absent.filter (fun t => t ≠ 8), pages := [],
        freeLists := [], kvEntries := some (p.arg 0) })).placeTable p.ctxNum 8 (cdiv (32 * p.arg 0) plotBytes) = some c2 →
    exec (.kvTable p) s = .next (s.setC (c2.sweepRetire.finish p 0 []))) ∧
  (s.dev.begins (Cmd.plain 0x230 true [64]) p c → c.ctx? p.ctxNum = some x →
    isPow2 (p.arg 0) = false ∨ p.arg 0 < 1024 ∨ 1048576 < p.arg 0 →
    exec (.kvTable p) s = .next (s.setC (c.finish p 0x250 []))) ∧
  (s.dev.begins (Cmd.plain 0x231 true [64, 64, 3, 64, 64]) p c → c.hasPages p x (p.arg 0) (p.arg 1) → ∀ i o,
    x.objOf p.ctxNum (p.arg 3) = some (i, o) → o.window = false → (o.base + p.arg 4) % pageSize (p.arg 2) = 0 →
    p.arg 4 + p.arg 1 * pageSize (p.arg 2) ≤ o.size →
    (∀ j, j < p.arg 1 → (x.page (p.arg 0 + j)).st = .free ∧ (x.page (p.arg 0 + j)).mem = false) →
    let ps := (List.range (p.arg 1)).map (fun i => p.arg 0 + i)
    exec (.pageAdd p) s = .next (s.setC
      (((ps.foldl (fun c q => c.modPage p.ctxNum q (fun g => { Page.unused with
          gen := g.gen, mem := true, addr := o.base + p.arg 4 + (q - p.arg 0) * pageSize (p.arg 2), cls := p.arg 2 })) c).modCtx
        p.ctxNum (fun x => { x with freeLists := kset x.freeLists (p.arg 2) (x.freeList (p.arg 2) ++ ps) })).finish p 0 []))) ∧
  (s.dev.begins (Cmd.plain 0x232 true [64]) p c → c.hasPages p x (p.arg 0) 1 → (x.page (p.arg 0)).st = .free →
    (x.page (p.arg 0)).mem = true →
    exec (.pageMap p) s = .next (s.setC (((c.leaveList p.ctxNum (x.page (p.arg 0)).cls (p.arg 0)).modPage p.ctxNum (p.arg 0)
      (fun g => { g with st := .live, refs := 1 })).finish p 0 []))) ∧
  (s.dev.begins (Cmd.plain 0x232 true [64]) p c → c.ctx? p.ctxNum = some x → 8 ∉ x.absent → ∀ e,
    x.kvEntries = some e → e < p.arg 0 + 1 →
    exec (.pageMap p) s = .next (s.setC (c.finish p 0x251 []))) ∧
  (s.dev.begins (Cmd.plain 0x233 true [64]) p c → c.hasPages p x (p.arg 0) 1 → (x.page (p.arg 0)).inService = true →
    (x.page (p.arg 0)).refs < 65535 →
    exec (.pageRef p) s = .next (s.setC ((c.modPage p.ctxNum (p.arg 0) (fun g =>
      if g.st = .fallow then { g with refs := g.refs + 1 } else Page.settled { g with refs := g.refs + 1 })).finish p 0 []))) ∧
  (s.dev.begins (Cmd.plain 0x233 true [64]) p c → c.hasPages p x (p.arg 0) 1 → (x.page (p.arg 0)).inService = true →
    65535 ≤ (x.page (p.arg 0)).refs →
    exec (.pageRef p) s = .next (s.setC (c.finish p 0x254 []))) ∧
  (s.dev.begins (Cmd.plain 0x234 true [64]) p c → c.hasPages p x (p.arg 0) 1 → (x.page (p.arg 0)).inService = true →
    0 < (x.page (p.arg 0)).refs →
    exec (.pageUnref p) s = .next (s.setC ((c.unrefPage p.ctxNum (p.arg 0)).finish p 0 []))) ∧
  (s.dev.begins (Cmd.plain 0x235 true [64, 64, 32, 32, 16, 8, 8]) p c →
    c.hasPages p x (max (p.arg 0) (p.arg 1)) 1 → (x.page (p.arg 0)).st = .live ∨ (x.page (p.arg 0)).st = .shared →
    (x.page (p.arg 1)).st = .free → (x.page (p.arg 1)).mem = false → (x.page (p.arg 0)).pins ≠ 0 →
    exec (.pageDrop p) s = .next (s.setC (c.finish p 0x253 []))) ∧
  (s.dev.begins (Cmd.plain 0x235 true [64, 64, 32, 32, 16, 8, 8]) p c →
    c.hasPages p x (max (p.arg 0) (p.arg 1)) 1 → (x.page (p.arg 0)).st = .live ∨ (x.page (p.arg 0)).st = .shared →
    (x.page (p.arg 1)).st = .free → (x.page (p.arg 1)).mem = false → (x.page (p.arg 0)).pins = 0 →
    exec (.pageDrop p) s = .next (s.setC
      ((((c.modPage p.ctxNum (p.arg 0) (fun g => { g with
            st := .fallow, mem := false, addr := 0, seqn := p.arg 2, tok0 := p.arg 3, tokn := p.arg 4, layer := p.arg 5,
            from_ := p.arg 6 })).modPage p.ctxNum (p.arg 1) (fun r => { r with
            mem := true, addr := (x.page (p.arg 0)).addr, cls := (x.page (p.arg 0)).cls })).joinHead p.ctxNum
        (x.page (p.arg 0)).cls (p.arg 1)).finish p 0 []))) ∧
  (s.dev.begins (Cmd.plain 0x236 true [64, 64]) p c → c.hasPages p x (p.arg 0) 1 → (x.page (p.arg 0)).st = .fallow →
    ∀ a b c1 c2, c.localOf (p.arg 1) = some a → a % 256 = 0 →
    let c0 := (c.hbmRead p.ctxNum a (pageSize (x.page (p.arg 0)).cls)).1
    c0.giveMemory p.ctxNum (p.arg 0) = some c1 →
    c0.readBytes p.ctxNum a (pageSize (x.page (p.arg 0)).cls) = .ok b →
    c1.writeBytes p.ctxNum (c1.page p.ctxNum (p.arg 0)).addr b = .ok c2 →
    exec (.pageRevive p) s = .next (s.setC ((((c2.touchAt p.ctxNum a).touchAt p.ctxNum (c1.page p.ctxNum (p.arg 0)).addr).modPage
      p.ctxNum (p.arg 0) Page.settled).finish p 0 []))) ∧
  (s.dev.begins (Cmd.plain 0x237 true [64, 64, 64]) p c → c.hasPages p x (p.arg 0) (p.arg 1) → p.arg 2 % 64 = 0 →
    let r := (List.range (p.arg 1)).flatMap (fun i => x.pageBytes (p.arg 0 + i))
    c.reach (p.arg 2) r.length = true →
    exec (.pageRead p) s = .next (s.setC ((c.dma (p.arg 2) r).finish p 0 []))) ∧
  (∀ n page, n < 16 → exec (.pageCopyDone n page) s = .next (s.setC (s.dev.c.pageCopied n page)))

/-- Once begun: PROG_LOAD is refused with 0x0823 under a data key and with 0x032D for a slot in use, replies the load refusal
with its step address in R_INFO, and otherwise places the image with its measurement in its slot, unless it does not fit the
device as mapped (0x032B) or the floor has no room (0x032C); PROG_RUN of an empty slot or with a run started replies 0x032D
and of an unfit program 0x032B, else starts the run and waits; PROG_STOP asks the started run to stop and waits, or replies
at once; PROG_UNLOAD frees a slot that is not running; PROG_FLAG writes its flag. Completing commands (each has a clause
whose conclusion is that exec answers the next state of its own effect): progLoad, progRun, progStop, progUnload, progFlag.
(02_step_code.md, 14_trust_firmware.md; derived) -/
def Obligations.ProgramCommands : Prop :=
  ∀ (s : State) (p : Packet) (c : Core) (x : Ctx),
  (s.dev.begins (Cmd.plain 0x301 true [2, 64]) p c → c.ctx? p.ctxNum = some x → x.dataKey = none →
    kget x.progs (p.arg 0) = none → ∀ b f, (c.checkObj p.ctxNum (p.arg 1) 0 (2 ^ 28)).imageOf p.ctxNum (p.arg 1) = .ok b →
    loadRefusal x.strict (toUnits b (b.length / 16)) = some f →
    exec (.progLoad p) s = .next (s.setC ((c.checkObj p.ctxNum (p.arg 1) 0 (2 ^ 28)).finishI p f.2 f.1 []))) ∧
  (s.dev.begins (Cmd.plain 0x301 true [2, 64]) p c → c.ctx? p.ctxNum = some x → x.dataKey = none →
    kget x.progs (p.arg 0) = none →
    let c0 := c.checkObj p.ctxNum (p.arg 1) 0 (2 ^ 28)
    ∀ b, c0.imageOf p.ctxNum (p.arg 1) = .ok b →
    let us := toUnits b (b.length / 16)
    loadRefusal x.strict us = none →
    ((c0.fits us = true → c0.treesFit p.ctxNum (progTrees us) = true →
      ∀ c1, c0.placeArea p.ctxNum (p.arg 0)
        { units := us, trees := progTrees us, area := [], measure := Config.sha384 b, unfit := false }
        (cdiv b.length plotBytes) = some c1 →
      exec (.progLoad p) s = .next (s.setC
        ((c1.modCtx p.ctxNum (fun y => { y with flags := if x.progs = [] then [] else y.flags })).finish p 0 []))) ∧
    (c0.fits us = false ∨ c0.treesFit p.ctxNum (progTrees us) = false →
      exec (.progLoad p) s = .next (s.setC (c0.finish p 0x32B []))))) ∧
  (s.dev.begins (Cmd.plain 0x301 true [2, 64]) p c → c.ctx? p.ctxNum = some x → x.dataKey.isSome = true →
    exec (.progLoad p) s = .next (s.setC (c.finish p 0x823 []))) ∧
  (s.dev.begins (Cmd.plain 0x302 true [2, 40, 64, 64]) p c → c.ctx? p.ctxNum = some x → kget x.progs (p.arg 0) = none →
    exec (.progRun p) s = .next (s.setC (c.finish p 0x32D []))) ∧
  (s.dev.begins (Cmd.plain 0x302 true [2, 40, 64, 64]) p c → c.ctx? p.ctxNum = some x → ∀ g,
    kget x.progs (p.arg 0) = some g → x.run = none → g.unfit = true ∨ c.treesFit p.ctxNum g.trees = false →
    exec (.progRun p) s = .next (s.setC (c.finish p 0x32B []))) ∧
  (s.dev.begins (Cmd.plain 0x302 true [2, 40, 64, 64]) p c → c.ctx? p.ctxNum = some x → ∀ g,
    kget x.progs (p.arg 0) = some g → x.run = none → g.unfit = false → c.treesFit p.ctxNum g.trees = true →
    let c1 := (c.modCtx p.ctxNum (fun x => { x with
      stopped := false, vnode := x.vnode.atRun (p.arg 1) x.lastStep,
      run := some (Run.start (p.arg 0) p (hdrField g.units 0x0C 3)) })).wait p .run
    (c1.cur ≠ none → exec (.progRun p) s = .next (s.setC c1)) ∧
    (c1.cur = none → exec (.progRun p) s = .next (s.setC
      ((({ c1 with cur := some p.ctxNum, seqErr := false } : Core).gate).beginStep p.ctxNum)))) ∧
  (s.dev.begins (Cmd.plain 0x303 true []) p c → c.runStarted p.ctxNum = true →
    exec (.progStop p) s = .next (s.setC ((c.modRun p.ctxNum (fun r => { r with stopReq := true })).wait p .stop))) ∧
  (s.dev.begins (Cmd.plain 0x303 true []) p c → c.runStarted p.ctxNum = false →
    exec (.progStop p) s = .next (s.setC (c.finish p 0 []))) ∧
  (s.dev.begins (Cmd.plain 0x304 true [2]) p c → c.ctx? p.ctxNum = some x → x.dataKey = none →
    (kget x.progs (p.arg 0)).isSome = true → (∀ r, x.run = some r → r.slot ≠ p.arg 0) →
    exec (.progUnload p) s = .next (s.setC
      (((c.modCtx p.ctxNum (fun x => { x with progs := kdel x.progs (p.arg 0) })).sweepRetire).finish p 0 []))) ∧
  (s.dev.begins (Cmd.plain 0x304 true [2]) p c → c.ctx? p.ctxNum = some x → x.dataKey = none → ∀ r,
    x.run = some r → r.slot = p.arg 0 →
    exec (.progUnload p) s = .next (s.setC (c.finish p 0x32D []))) ∧
  (s.dev.begins (Cmd.plain 0x305 true [16]) p c →
    exec (.progFlag p) s = .next (s.setC ((c.setFlag p.ctxNum (p.arg 0 % 256) (p.arg 0 / 256)).finish p 0 [])))

/-- With a run in progress and the record's words, as it is fetched, not poisoned: an action record whose header waits are
met consumes one event of each, lays its actions into their columns, forms the signal events and moves past itself (closing
loops); while a wait is not met nothing changes; a fork continues at the variant its predicate chooses and remembers JOIN; a
variant-end record continues there; a settle record, reached in order or under an abandon, begins the settle; an end record
completes the run. A hold or an outrun column stops issue. A poisoned record abandons the step. Completing commands (each has
a clause whose conclusion is that exec answers the next state of its own effect): recordIssue, forkIssue, variantEnd,
settleRecord, endRecord. (02_step_code.md; derived) -/
def Obligations.RecordIssue : Prop :=
  ∀ (s : State) (n : Nat) (r : Run) (g : Prog), s.dev.c.running? = some (n, r, g) →
  let h := g.units.getD r.pc 0
  let f (len : Nat) : Core := s.dev.c.fetch r g len
  let ws := (recWaits h).map (fun t => (t, TokPlace.chip))
  (recClass h = 1 → s.dev.c.mayIssue r = true → (f (recLen h)).fetchPoisoned r g (recLen h) = false →
    (f (recLen h)).waitsMet none ws = false → exec .recordIssue s = .next (s.setC (f (recLen h)))) ∧
  (recClass h = 1 → s.dev.c.mayIssue r = false → exec .recordIssue s = .next s) ∧
  (recClass h = 1 → s.dev.c.mayIssue r = true → (f (recLen h)).fetchPoisoned r g (recLen h) = true →
    exec .recordIssue s = .next (s.setC ((f (recLen h)).poisonedFetch n g.units))) ∧
  (recClass h = 1 → s.dev.c.mayIssue r = true → (f (recLen h)).fetchPoisoned r g (recLen h) = false →
    (f (recLen h)).waitsMet none ws = true →
    let c := f (recLen h)
    let acts := c.sliceOf g.units n r
    let pend := slicePend h acts r.inst
    (∀ e, e ∈ pend → e.left ≠ 0) →
    exec .recordIssue s = .next (s.setC (
      let c1 := (((c.consume none ws).laySlice acts).issued n (r.saw.after h)).showSlices acts
      { c1 with evs := c1.evs ++ pend }))) ∧
  (recClass h = 2 → s.dev.c.mayIssue r = true → (f 2).fetchPoisoned r g 2 = false → (f 2).waitsMet none ws = true → recSig h = none →
    exec .forkIssue s = .next (s.setC (((f 2).consume none ws).issued n { r.saw with
      pc := r.pc + chosen (g.units.getD (r.pc + 1) 0)
        (s.dev.predicate n (forkSource (g.units.getD (r.pc + 1) 0)) (recForkOperand h)),
      forks := (r.pc + forkJoin (g.units.getD (r.pc + 1) 0)) :: r.forks }))) ∧
  (recClass h = 3 → s.dev.c.mayIssue r = true → (f 1).fetchPoisoned r g 1 = false → ∀ j rest, r.forks = j :: rest →
    exec .variantEnd s = .next (s.setC ((f 1).issued n { r.saw with pc := j, forks := rest }))) ∧
  (recClass h = 4 → r.step.abandon = none → s.dev.c.mayMove r = true → (f 1).fetchPoisoned r g 1 = false →
    exec .settleRecord s = .next (s.setC { (f 1).issued n { r.saw with settling := true } with seqPc := r.pc })) ∧
  (let r1 := r.toSettle g.units (4 * g.units.length + 4)
   r.step.abandon.isSome = true → recClass (g.units.getD r1.pc 0) = 4 → s.dev.c.mayMove r = true →
    (s.dev.c.fetch r1 g 1).fetchPoisoned r1 g 1 = false →
    exec .settleRecord s = .next (s.setC { (s.dev.c.fetch r1 g 1).issued n { r1.saw with settling := true } with seqPc := r1.pc })) ∧
  (recClass h = 5 → r.step.abandon = none → s.dev.c.mayMove r = true → r.poison = false → (f 1).fetchPoisoned r g 1 = false →
    exec .endRecord s = .next (s.setC { (f 1).endRun n with seqPc := r.pc }))

/-- Let v be (value >= T1) + (value >= T2) + (value >= T3). If variant v is present it is chosen; if it is absent the highest
present variant below it is; variant 0 is always present. (02_step_code.md; derived) -/
def Obligations.ForkChoosesByThresholds : Prop :=
  ∀ (w value v : Nat), v = b2n (forkT w 1 ≤ value) + b2n (forkT w 2 ≤ value) + b2n (forkT w 3 ≤ value) →
    (forkVar w v ≠ 0 → chosen w value = forkVar w v) ∧ forkVar w 0 ≠ 0 ∧
    ∀ k, k ≤ v → forkVar w k ≠ 0 → (∀ j, k < j → j ≤ v → forkVar w j = 0) → chosen w value = forkVar w k

/-- With a context running: until the step has drained the command changes nothing; once it has, the settle runs. With no
context running nothing happens. What the settle begins with drops every event count, consumed count, pending signal, address
pointer, window and column, and the contents of every cell's SRAM. Completing commands (each has a clause whose conclusion is
that exec answers the next state of its own effect): settlePoint. (02_step_code.md, 09_training_step.md; derived) -/
def Obligations.SettlePoint : Prop :=
  ∀ (s : State),
  (s.dev.c.cur = none → exec .settlePoint s = .next s) ∧
  (∀ n, s.dev.c.cur = some n → s.dev.c.drained n = false → exec .settlePoint s = .next s) ∧
  (∀ n, s.dev.c.cur = some n → s.dev.c.drained n = true →
    exec .settlePoint s = .next (s.setC (s.dev.c.settle n))) ∧
  (∀ (c : Core) (n : Nat), (c.clearStep n).toks = [] ∧ (c.clearStep n).used = [] ∧ (c.clearStep n).evs = [] ∧
    (c.clearStep n).aps = [] ∧ (c.clearStep n).wins = [] ∧ (c.clearStep n).cols = [] ∧ (c.clearStep n).sram = [])

/-- A unit whose previous action has completed begins the next one of its column when every wait is met, consuming one event
of each; otherwise nothing changes. A NOP that has begun reaches its completion point; a SETAP also writes its pointer. An
action at its completion point leaves the unit free, its signal joins the record's event, and an event left with no
completion outstanding occurs. After an abandon an action completes as it begins, a VERDICT once its record is there.
Completing commands (each has a clause whose conclusion is that exec answers the next state of its own effect): actionBegin,
actionComplete, nop, setap. (02_step_code.md, 03_slot_actions.md; derived) -/
def Obligations.ColumnsAndTokens : Prop :=
  ∀ (s : State) (u : UnitId), u.valid = true →
  let c := s.dev.c
  (∀ col a q r, kget c.cols u = some col → col.run = none → col.queue = a :: q → c.run? a.ctx = some r → r.halted = false →
    r.step.abandon = none → col.dropped = false → c.verdictHeld a = false → (c.rget (injAddr u.sunit 0)) = 0 →
    let ws := (actWaits a.bits).map (fun w => (w.2, tokPlace u w.1))
    (c.waitsMet (some u) ws = false → exec (.actionBegin u) s = .next s) ∧
    (c.waitsMet (some u) ws = true → exec (.actionBegin u) s = .next (s.setC { c.consume (some u) ws with
      cols := kset c.cols u { col with
        run := some { a := a, started := false, done := false, count := 0, evs := ActEvs.none }, queue := q } }))) ∧
  (∀ col a q r, kget c.cols u = some col → col.run = none → col.queue = a :: q → c.run? a.ctx = some r → r.halted = false →
    r.step.abandon.isSome = true → a.op ≠ 0x82 →
    exec (.actionBegin u) s = .next (s.setC { c with cols := kset c.cols u { col with
      run := some { a := a, started := false, done := true, count := 0, evs := ActEvs.none }, queue := q } })) ∧
  (∀ col a, kget c.cols u = some col → col.run = some a → exec (.actionBegin u) s = .next s) ∧
  (∀ col r, kget c.cols u = some col → c.running u = some r → r.done = false → exec (.actionComplete u) s = .next s) ∧
  (∀ col r, kget c.cols u = some col → c.running u = some r → r.done = true →
    (∀ e, e ∈ c.evs → joins u r.a e = true → e.left ≠ 1) →
    exec (.actionComplete u) s = .next (s.setC (((({ c with
      cols := kset c.cols u { col with run := none },
      evs := (c.evs.map (fun (e : PendEv) => if joins u r.a e then { e with left := e.left - 1 } else e)).filter
        (fun e => e.left ≠ 0) } : Core).closeWins u r.a).endPass u).lastEvents u r))) ∧
  (∀ r, c.running u = some r → r.a.op % 16 = 0 → exec (.nop u) s = .next (s.setC (c.actDone u))) ∧
  (∀ r n k, u = .cell n k → c.running u = some r → r.a.op % 16 = 1 → r.a.op < 0x60 → r.done = false →
    exec (.setap u) s = .next (s.setC
      (({ c with aps := kset c.aps (u, setapAPN r.a.bits) (setapPtr r.a.bits) } : Core).actDone u)))

/-- In every state where each subscriber has consumed at most as many events of each token as have occurred, the beginning of
any unit's action (with no injection armed at the unit, whose error would stop the step) leaves that so. (02_step_code.md;
derived) -/
def Obligations.TokenConservation : Prop :=
  ∀ (s t : State) (u : UnitId),
    (∀ k pl v, s.dev.c.consumed k pl v ≤ s.dev.c.events k pl) → s.dev.c.rget (injAddr u.sunit 0) = 0 →
    exec (.actionBegin u) s = .next t →
    ∀ k pl v, t.dev.c.consumed k pl v ≤ t.dev.c.events k pl

/-- A running PRODUCT of the engine whose operands are located, held back by no window and not met by C, forms the tiles of C
with a trained row in tile order from A and B as they stood, each into its place, with its census counts, and reaches its
completion point. An operand that cannot be located and a C that meets an operand are action faults (the latter of reason 3
at C's granule); a closed window and an idle engine change nothing; an uncorrected hardware detection that no tile's granules
bear ends the action with that error, and one on the F engine's first tile ends it with nothing of C written. Completing
commands (each has a clause whose conclusion is that exec answers the next state of its own effect): fProduct, bProduct.
(03_slot_actions.md, 05_cells_engines.md, 04_number_formats.md, 15_faults_selftest.md; derived) -/
def Obligations.Products : Prop :=
  ∀ (s : State) (cell : Nat) (r : RunAct) (j : ProdJob), cell < 576 →
  let c := s.dev.c
  let p := j.go c.freeCtr
  let w := (p.tiles c).foldl (fun acc t => p.tile c acc t) (c, Report.none)
  (c.prodReady cell .f 0x12 r j →
    exec (.fProduct cell []) s = .next (s.setC
      ((w.1.productEnd (.cell cell .f) r.a p c w.2 (p.tiles c)).actDone (.cell cell .f)))) ∧
  (c.prodReady cell .b 0x22 r j →
    exec (.bProduct cell []) s = .next (s.setC
      ((w.1.productEnd (.cell cell .b) r.a p c w.2 (p.tiles c)).actDone (.cell cell .b)))) ∧
  (∀ ups, c.active (.cell cell .f) 0x12 = none → exec (.fProduct cell ups) s = .next s) ∧
  (∀ ups e, c.active (.cell cell .b) 0x22 = some r → c.prepProduct cell (.cell cell .b) r.a = .error e →
    exec (.bProduct cell ups) s = .next (s.setC (c.actionFault (.cell cell .b) e.1 e.2))) ∧
  (∀ ups, c.active (.cell cell .f) 0x12 = some r → c.prepProduct cell (.cell cell .f) r.a = .ok j →
    c.held cell r.a.inst j.reads [j.dst] = true → exec (.fProduct cell ups) s = .next s) ∧
  (∀ ups, c.active (.cell cell .f) 0x12 = some r → c.prepProduct cell (.cell cell .f) r.a = .ok j →
    c.held cell r.a.inst j.reads [j.dst] = false → j.clash = true →
    exec (.fProduct cell ups) s = .next (s.setC (c.actionFault (.cell cell .f) 3 (j.dst.byte / 256)))) ∧
  (∀ x : Upset, c.prodReady cell .b 0x22 r j → x.corrected = false → x.blk = none →
    (∀ t, t ∈ p.tiles c → p.struck t x = false) →
    exec (.bProduct cell [x]) s = .next (s.setC (c.errorAt (.cell cell .b) (.cell cell) x.det x.wher x.synd false))) ∧
  (∀ (x : Upset) t ts, c.prodReady cell .f 0x12 r j → x.corrected = false → x.blk = none → p.tiles c = t :: ts →
    p.struck t x = true →
    exec (.fProduct cell [x]) s = .next (s.setC ((c.productEnd (.cell cell .f) r.a p c Report.none []).errorAt
      (.cell cell .f) (.cell cell) x.det x.wher x.synd false)))

/-- A running vector action of the opcode whose operands are located, held back by no window and not clashing, has its
element-wise effect with its census counts and reaches its completion point; the three SOFTMAX rows are the functions 0, 1
and 2 of one opcode. An operand fault is the action fault the location gives, a clash one of reason 3, and a closed window
changes nothing. Completing commands (each has a clause whose conclusion is that exec answers the next state of its own
effect): convert, survey, unary, binary, rowreduce, softmaxOnline, softmaxFinish, softmaxBackward. (03_slot_actions.md,
05_cells_engines.md, 07_attention_pages.md, 04_number_formats.md; derived) -/
def Obligations.VectorActions : Prop :=
  ∀ (s : State) (cell : Nat) (r : RunAct) (j : VecJob), cell < 576 →
  (s.dev.c.vecReady cell 0x32 prepConvert r j → exec (.convert cell []) s = .next (s.setC (s.dev.c.vecDone cell r j))) ∧
  (s.dev.c.vecReady cell 0x33 prepSurvey r j → exec (.survey cell []) s = .next (s.setC (s.dev.c.vecDone cell r j))) ∧
  (s.dev.c.vecReady cell 0x34 (prepElem false) r j → exec (.unary cell []) s = .next (s.setC (s.dev.c.vecDone cell r j))) ∧
  (s.dev.c.vecReady cell 0x35 (prepElem true) r j → exec (.binary cell []) s = .next (s.setC (s.dev.c.vecDone cell r j))) ∧
  (s.dev.c.vecReady cell 0x36 prepRow r j → exec (.rowreduce cell []) s = .next (s.setC (s.dev.c.vecDone cell r j))) ∧
  (s.dev.c.vecReady cell 0x37 prepOnline r j → vFUNC r.a.bits = 0 →
    exec (.softmaxOnline cell []) s = .next (s.setC (s.dev.c.vecDone cell r j))) ∧
  (s.dev.c.vecReady cell 0x37 prepFinish r j → vFUNC r.a.bits = 1 →
    exec (.softmaxFinish cell []) s = .next (s.setC (s.dev.c.vecDone cell r j))) ∧
  (s.dev.c.vecReady cell 0x37 prepBackward r j → vFUNC r.a.bits = 2 →
    exec (.softmaxBackward cell []) s = .next (s.setC (s.dev.c.vecDone cell r j))) ∧
  (∀ ups e, s.dev.c.active (.cell cell .v) 0x34 = some r → prepElem false s.dev.c (.cell cell .v) r.a = .error e →
    exec (.unary cell ups) s = .next (s.setC (s.dev.c.actionFault (.cell cell .v) e.1 e.2))) ∧
  (∀ ups, s.dev.c.active (.cell cell .v) 0x32 = some r → prepConvert s.dev.c (.cell cell .v) r.a = .ok j →
    s.dev.c.held cell r.a.inst j.reads j.writes = true → exec (.convert cell ups) s = .next s) ∧
  (∀ ups, s.dev.c.active (.cell cell .v) 0x35 = some r → prepElem true s.dev.c (.cell cell .v) r.a = .ok j →
    s.dev.c.held cell r.a.inst j.reads j.writes = false → j.clash = true →
    exec (.binary cell ups) s = .next (s.setC
      (s.dev.c.actionFault (.cell cell .v) 3 ((j.writes.head?.map Stretch.gran).getD 0))))

/-- For a grain of finite values of which a has the largest magnitude, a survey for any grain-scaled format gives the scale
code 0 when a is zero, and otherwise the clamp of floor(log2 |a|) - emax to -127 to 127, plus 127. (04_number_formats.md;
derived) -/
def Obligations.SurveyScale : Prop :=
  ∀ (fmt : Nat) (l : List Dy) (a : Dy), a ∈ l → (∀ b, b ∈ l → a.magLt b = false) →
    (a.m = 0 → surveyScale fmt (l.map Num.fin) = 0) ∧
    (a.m ≠ 0 → (surveyScale fmt (l.map Num.fin) : Int) = max (-127) (min 127 (a.flog - fmtEmax fmt)) + 127)

/-- A magnitude m x 2^e rounded at a quantum 2^k times coarser: to nearest, the result is never further than half a quantum
away, and even when exactly half; stochastically with bits r, an exact multiple is unchanged, and any other value x between
neighbours lo and hi becomes hi exactly when r is below floor(65536 (x - lo) / (hi - lo)), with lo the neighbour further from
zero for a negative x. (04_number_formats.md; derived) -/
def Obligations.Rounding : Prop :=
  ∀ (neg : Bool) (m k : Nat) (e : Int) (r : BitVec 16),
    let near := roundAt .ne neg m e (e + k)
    let sto := roundAt (.st r) neg m e (e + k)
    (2 * (near * 2 ^ k) ≤ 2 * m + 2 ^ k ∧ 2 * m ≤ 2 * (near * 2 ^ k) + 2 ^ k) ∧
    (2 * (near * 2 ^ k) = 2 * m + 2 ^ k ∨ 2 * m = 2 * (near * 2 ^ k) + 2 ^ k → near % 2 = 0) ∧
    (m % 2 ^ k = 0 → sto * 2 ^ k = m) ∧
    (m % 2 ^ k ≠ 0 → neg = false →
      sto = (if r.toNat < 65536 * (m % 2 ^ k) / 2 ^ k then m / 2 ^ k + 1 else m / 2 ^ k)) ∧
    (m % 2 ^ k ≠ 0 → neg = true →
      sto = (if r.toNat < 65536 * (2 ^ k - m % 2 ^ k) / 2 ^ k then m / 2 ^ k else m / 2 ^ k + 1))

/-- FLAGW writes its immediate as the flag; RECEIVE moves the granules that stand at its source, at most what its word still
asks, into the cell and completes with the last; SEND starts; a granule lands in the ring successor's buffer or the engine's
intake and completes the SEND with the last; SILT takes one of four places in flight and completes; a silt packet lands at
its route's cell granule, HBM, host or flags. With no source granule or no room nothing changes, and packets of one place and
route land in the order sent. Completing commands (each has a clause whose conclusion is that exec answers the next state of
its own effect): flagw, receive, send, granuleLand, silt, siltPacketLand. (03_slot_actions.md, 06_streams.md; derived) -/
def Obligations.PortActions : Prop :=
  ∀ (s : State) (cell : Nat) (r : RunAct) (base : Nat), cell < 576 →
  (s.dev.c.active (.cell cell .v) 0x38 = some r → vFUNC r.a.bits = 0 → exec (.flagw cell) s = .next (s.setC
    ((s.dev.c.setFlag r.a.ctx (vIMM r.a.bits / 256) (vIMM r.a.bits)).actDone (.cell cell .v)))) ∧
  (s.dev.c.active (.cell cell .sin) 0x42 = some r →
    s.dev.c.locateOp (.cell cell .sin) r.a (sAP r.a.bits) (256 * sGRAN r.a.bits) .either = .ok base →
    s.dev.c.land cell (recvSrc r.a.bits) = [] → exec (.receive cell) s = .next s) ∧
  (∀ g, s.dev.c.active (.cell cell .sin) 0x42 = some r →
    s.dev.c.locateOp (.cell cell .sin) r.a (sAP r.a.bits) (256 * sGRAN r.a.bits) .either = .ok base →
    s.dev.c.land cell (recvSrc r.a.bits) = [g] → r.count + 1 = sGRAN r.a.bits →
    s.dev.c.writeHeld cell r.a.inst (base / 256 + r.count) 1 = false → s.dev.c.unarmed (.cell cell) →
    exec (.receive cell) s = .next (s.setC
      (let c2 := s.dev.c.cellWrite cell (base + 256 * r.count) (padTo 256 g)
       let c3 : Core := { c2 with landing := kset c2.landing (cell, recvSrc r.a.bits) [] }
       (((c3.advanceWin cell .sin r.a 1).moved (.cell cell .sin) 1).actDone (.cell cell .sin))))) ∧
  (s.dev.c.active (.cell cell .sout) 0x52 = some r →
    s.dev.c.locateOp (.cell cell .sout) r.a (sAP r.a.bits) (256 * sGRAN r.a.bits) .either = .ok base →
    exec (.send cell) s = .next (s.setC (s.dev.c.moved (.cell cell .sout) 0))) ∧
  (∀ t, s.dev.c.active (.cell cell .sout) 0x52 = some r → r.started = true →
    s.dev.c.locateOp (.cell cell .sout) r.a (sAP r.a.bits) (256 * sGRAN r.a.bits) .either = .ok base →
    sRing r.a.bits = true → s.dev.c.successor r.a = some t → (s.dev.c.land t 8).length < landRoom →
    s.dev.c.readHeld cell r.a.inst ((base + 256 * r.count) / 256) 1 = false → r.count + 1 < sGRAN r.a.bits →
    s.dev.c.pathUnarmed (.cell cell .sout) →
    exec (.granuleLand cell) s = .next (s.setC
      (((s.dev.c.putLand t 8 [s.dev.c.cellRead cell (base + 256 * r.count) 256]).advanceWin cell .sout r.a 1).moved
        (.cell cell .sout) 1))) ∧
  (s.dev.c.active (.cell cell .sout) 0x53 = some r →
    s.dev.c.locateOp (.cell cell .sout) r.a (sAP r.a.bits) (sLEN r.a.bits) .either = .ok base →
    routeKind (s.dev.c.route r.a.ctx (sDEST r.a.bits)) ≠ 0 → routeKind (s.dev.c.route r.a.ctx (sDEST r.a.bits)) ≠ 4 →
    (s.dev.c.silt.filter (fun q => q.src = cell)).length < 4 →
    s.dev.c.readHeld cell r.a.inst (base / 256) 1 = false → s.dev.c.unarmed (.cell cell) →
    exec (.silt cell) s = .next (s.setC (({ s.dev.c with
      silt := s.dev.c.silt ++ [Silt.mk (siltHdr (kgetD s.dev.c.siltSeq cell 0) (sDEST r.a.bits) r.a.ctx (sLEN r.a.bits) cell)
        (s.dev.c.cellRead cell base (sLEN r.a.bits)) r.a.inst r.a.nth],
      siltSeq := kset s.dev.c.siltSeq cell ((kgetD s.dev.c.siltSeq cell 0 + 1) % 2 ^ 16) } : Core).actDone (.cell cell .sout)))) ∧
  (∀ n q, s.dev.c.silt[n]? = some q →
    (∃ p, p ∈ s.dev.c.silt.take n ∧ p.src = q.src ∧ p.route = q.route ∧ p.ctx = q.ctx) →
    exec (.siltPacketLand n) s = .next s) ∧
  (∀ n q t, s.dev.c.silt[n]? = some q →
    (∀ p, p ∈ s.dev.c.silt.take n → ¬ (p.src = q.src ∧ p.route = q.route ∧ p.ctx = q.ctx)) →
    routeKind (s.dev.c.route q.ctx q.route) = 1 → s.dev.c.physCell (routeCell (s.dev.c.route q.ctx q.route)) = some t →
    exec (.siltPacketLand n) s = .next (s.setC
      (let c2 := ({ s.dev.c with silt := dropAt s.dev.c.silt n } : Core).cellWrite t
        (256 * routeAddr (s.dev.c.route q.ctx q.route)) q.bytes
       { c2 with wins := c2.wins.filter (fun w =>
         !(w.by_ = q.src && w.owner = .sout && w.inst = q.inst && w.word = q.word)) })))

/-- An ARM or REARM that has not started and whose descriptor passes the checks starts a pass of it (a persistent one becomes
an armed copy, REARM with its new base), and otherwise is an action fault of the reason given; DISARM releases the armed copy
and completes; a tile of a pass moves its data when the pass is neither parked nor waiting, and nothing happens while it is;
a retry moves the faulting tile again; the park limit takes the unresolved-fault path; the stall limit faults, with reason 7,
a unit that its own row would not advance and that R178 does not exempt. Completing commands (each has a clause whose
conclusion is that exec answers the next state of its own effect): arm, rearm, disarm, tileDeliver, streamRetry,
parkLimitExpire, stallLimitExpire. (06_streams.md, 03_slot_actions.md, 07_attention_pages.md; derived) -/
def Obligations.StreamActions : Prop :=
  ∀ (s : State) (d e : Nat) (r : RunAct), (UnitId.se d e).valid = true →
  let c := s.dev.c
  let u := UnitId.se d e
  (∀ image, c.active u 0x61 = some r → r.started = false → (c.engine d e).armed = [] →
    c.entry r.a.ctx tDesc (aEntry r.a.bits) = image → image ≠ 0 → c.armFault r.a.ctx d (aEntry r.a.bits) image = none →
    dPersist image = false → c.armedElsewhere d e (aEntry r.a.bits) = false →
    exec (.arm d e) s = .next (s.setC (c.startPass d e r.a.ctx (aEntry r.a.bits) image))) ∧
  (c.active u 0x61 = some r → r.started = false → (c.engine d e).armed = [] →
    c.entry r.a.ctx tDesc (aEntry r.a.bits) = 0 →
    exec (.arm d e) s = .next (s.setC (c.actionFault u 4 (aEntry r.a.bits)))) ∧
  (∀ stored image, c.active u 0x62 = some r → r.started = false → (c.engine d e).armed = [] →
    c.entry r.a.ctx tDesc (aEntry r.a.bits) = stored → stored ≠ 0 → image = stored - fieldN stored 0 8 + aBase r.a.bits →
    c.armFault r.a.ctx d (aEntry r.a.bits) image = none → dPersist image = true →
    c.armedElsewhere d e (aEntry r.a.bits) = false →
    exec (.rearm d e) s = .next (s.setC (({ c with engines := kset c.engines (d, e) { c.engine d e with
      armed := [{ desc := aEntry r.a.bits, image := image, pace := 0 }] } } : Core).startPass d e r.a.ctx (aEntry r.a.bits)
        image))) ∧
  (∀ q, c.active u 0x63 = some r → (c.engine d e).armed = [q] → q.desc = aEntry r.a.bits → q.image ≠ 0 →
    dPersist q.image = true →
    exec (.disarm d e) s = .next (s.setC (({ c with engines := kset c.engines (d, e) { c.engine d e with
      armed := [] } } : Core).actDone u))) ∧
  (∀ p ups, c.passOf d e = some p → c.running u = some r → r.done = true ∨ p.parked.isSome = true ∨ p.copyWait.isSome = true ∨
    p.asked ≠ [] ∨ passTiles p.image ≤ p.tile →
    exec (.tileDeliver d e ups) s = .next s) ∧
  (∀ p p1 c1, c.passOf d e = some p → c.running u = some r → r.done = false → p.parked = none → p.copyWait = none →
    p.asked = [] → p.tile < passTiles p.image → c.indexPhase d e p = .ok (c1, p1) → p1.scale = 0 → c1.pathUnarmed u →
    exec (.tileDeliver d e []) s = .next (s.setC ((c1.setPass d e p1).dataPhase d e p1))) ∧
  (∀ p k c1, c.passOf d e = some p → p.parked = some k → k ≠ 3 →
    c1 = (c.setPass d e { p with parked := none, ff := 0 }).tileStep d e [] →
    (∀ q, c1.passOf d e = some q → q.parked = none) →
    exec (.streamRetry d e) s = .next (s.setC c1)) ∧
  (∀ p, c.passOf d e = some p → p.parked = some 3 → (c.page p.ctx p.faultIx).st = .fallow →
    exec (.streamRetry d e) s = .next s) ∧
  (∀ p k, c.passOf d e = some p → p.parked = some k →
    exec (.parkLimitExpire d e) s = .next (s.setC
      (c.unresolved d e p k (c.engine d e).faultAddr (1 + 2 * p.fside) p.faultIx 0x02))) ∧
  (∀ v : UnitId, v.valid = true → unitWaits v s = true → exempt v s = false →
    exec (.stallLimitExpire v) s = .next (s.setC (c.actionFault v 7 0))) ∧
  (∀ v : UnitId, v.valid = true → unitWaits v s = false ∨ exempt v s = true → exec (.stallLimitExpire v) s = .next s)

/-- Once begun: DESC_LOAD and SILT_ROUTES write entries that all pass their checks to the context's table, at once or, under
a started run, at its settle point, and refuse a range beyond the table with 0x0342; FAULT_RING installs a well-formed ring
at its reply and refuses any other with 0x0343; FAULT_ABORT sends every parked pass of the context down the unresolved path,
or replies 0x0344 with none; STREAM_LIMITS sets both limits or replies 0x0343. Completing commands (each has a clause whose
conclusion is that exec answers the next state of its own effect): descLoad, siltRoutes, faultRing, faultAbort, streamLimits.
(06_streams.md; derived) -/
def Obligations.StreamCommands : Prop :=
  ∀ (s : State) (p : Packet) (c : Core),
  (s.dev.begins (Cmd.plain 0x306 true [64, 64, 64]) p c → ∀ c1 es,
    c.loads p tDesc 128 4096 1 0x343 (fun x look e => .ok (descOk x.conf (x.kvEntries.getD 0) look e)) c1 es →
    exec (.descLoad p) s = .next (s.setC ((c1.change p.ctxNum (.words tDesc (p.arg 0) es)).finish p 0 []))) ∧
  (s.dev.begins (Cmd.plain 0x307 true [64, 64, 64]) p c → ∀ c1 es,
    c.loads p tRoute 16 4096 1 0x343 (fun x _ e => .ok (routeOk x.conf e)) c1 es →
    exec (.siltRoutes p) s = .next (s.setC ((c1.change p.ctxNum (.words tRoute (p.arg 0) es)).finish p 0 []))) ∧
  (s.dev.begins (Cmd.plain 0x306 true [64, 64, 64]) p c → ∀ x, c.ctx? p.ctxNum = some x → 4096 < p.arg 0 + p.arg 1 →
    exec (.descLoad p) s = .next (s.setC (c.finish p 0x342 []))) ∧
  (s.dev.begins (Cmd.plain 0x308 true [64, 64, 64]) p c → p.arg 0 % 64 = 0 → isPow2 (p.arg 1) = true → p.arg 1 ≤ 65536 →
    p.arg 2 < 2 →
    exec (.faultRing p) s = .next (s.setC ((c.applyPend p.ctxNum
      (.ring 0 { base := p.arg 0, entries := p.arg 1, enabled := p.arg 2 = 1 })).finish p 0 []))) ∧
  (s.dev.begins (Cmd.plain 0x308 true [64, 64, 64]) p c → p.arg 0 % 64 ≠ 0 ∨ isPow2 (p.arg 1) = false ∨ 65536 < p.arg 1 ∨
    2 ≤ p.arg 2 → exec (.faultRing p) s = .next (s.setC (c.finish p 0x343 []))) ∧
  (s.dev.begins (Cmd.plain 0x309 true []) p c →
    (∀ g q, g ∈ c.engines → g.2.pass = some q → q.ctx = p.ctxNum → q.parked = none) →
    exec (.faultAbort p) s = .next (s.setC (c.finish p 0x344 []))) ∧
  (s.dev.begins (Cmd.plain 0x309 true []) p c → ∀ k g q, c.engines = [(k, g)] → g.pass = some q → q.ctx = p.ctxNum →
    q.parked.isSome = true →
    exec (.faultAbort p) s = .next (s.setC ((c.giveUp k.1 k.2).finish p 0 []))) ∧
  (s.dev.begins (Cmd.plain 0x30A true [64, 64]) p c → 1 ≤ p.arg 0 → p.arg 0 ≤ 65535 → 1 ≤ p.arg 1 → p.arg 1 ≤ 4294967295 →
    exec (.streamLimits p) s = .next (s.setC ((c.change p.ctxNum (.limits (p.arg 0) (p.arg 1))).finish p 0 []))) ∧
  (s.dev.begins (Cmd.plain 0x30A true [64, 64]) p c → p.arg 0 = 0 ∨ 65535 < p.arg 0 ∨ p.arg 1 = 0 ∨ 4294967295 < p.arg 1 →
    exec (.streamLimits p) s = .next (s.setC (c.finish p 0x343 [])))

/-- A SWEEP whose plan, lists and arrays, their words read, pass their checks waits for the verdict, does nothing under skip
or abandon, and under apply starts with its scalars and its shards, warm ones first; a shard whose plots are resident is
swept and the next begun; PUSH under apply sends each listed shard's published range to its holders and completes with their
acknowledgements, and under another decision sends nothing; room in an export ring lets waiting records go; a record dropped
at the park limit takes with it those of its sweep behind it. Completing commands (each has a clause whose conclusion is that
exec answers the next state of its own effect): sweep, shardSweepDone, push, exportRingRoom, exportRecordDrop.
(10_update_unit.md, 09_training_step.md, 03_slot_actions.md; derived) -/
def Obligations.UpdateActions : Prop :=
  ∀ (s : State) (d : Nat) (r : RunAct) (l : List Nat), isPort d = true →
  let c := s.dev.c
  let n := r.a.ctx
  let pe := aEntry r.a.bits
  let plan := c.entry n tPlan pe
  let rd := c.unitReads (.uu d) n [(uList plan, 128 * uCount plan)]
  let good : Prop := c.active (.uu d) 0x71 = some r ∧ r.started = false ∧ plan ≠ 0 ∧
    (∃ x, c.ctx? n = some x ∧ x.inFloor (uList plan) (128 * uCount plan) = true) ∧ rd.2 = false ∧ rd.1.shardList n plan = .ok l ∧
    ∀ i, i < l.length → rd.1.sweepEntryOk n d plan (l.getD i 0) = true
  (good → (rd.1.stepSt n).verdict = none → exec (.sweep d) s = .next (s.setC rd.1)) ∧
  (∀ v, good → (rd.1.stepSt n).verdict = some v → v.decision ≠ 0 →
    exec (.sweep d) s = .next (s.setC (rd.1.actDone (.uu d)))) ∧
  (∀ v, good → (rd.1.stepSt n).verdict = some v → v.decision = 0 → exec (.sweep d) s = .next (s.setC
    ((((rd.1.sweepStart d n pe l).sweepAdvance d).sweepRequest d).sweepEnd d))) ∧
  (c.active (.uu d) 0x71 = some r → r.started = false → plan = 0 →
    exec (.sweep d) s = .next (s.setC (c.actionFault (.uu d) 4 pe))) ∧
  (∀ (w : SweepSt) (x : ShardIn), c.active (.uu d) 0x71 = some r → kget c.sweeps d = some w →
    let pl := c.entry w.ctx tPlan w.plan
    let e := l.getD (w.order.getD w.pos 0) 0
    let rs := c.unitReads (.uu d) w.ctx (c.shardReads w.ctx pl e)
    c.recordsWait w.ctx d = false → w.pos < w.order.length → c.shardList w.ctx pl = .ok l →
    (∀ q, q ∈ c.shardPlots w.ctx pl e → c.plotSt w.ctx q = some .resident) → rs.2 = false →
    rs.1.readShard w.ctx pl e = .ok x → rs.1.unarmed (.sub d 8 0) →
    let c2 := rs.1.sweepShard d w.ctx pl e x ((c.shardPlots w.ctx pl e).any (fun q => rs.1.plotSt w.ctx q = some .host))
    exec (.shardSweepDone d) s = .next (s.setC
      (((({ c2 with sweeps := kmod c2.sweeps d (fun v => { v with pos := v.pos + 1, finished := v.finished + 1 }) } :
        Core).sweepAdvance d).sweepRequest d).sweepEnd d))) ∧
  (∀ v c1 ts, c.active (.uu d) 0x72 = some r → r.started = false → plan ≠ 0 → (c.stepSt n).verdict = some v →
    v.decision = 0 → rd.2 = false → rd.1.shardList n plan = .ok l →
    let rp := rd.1.unitReads (.uu d) n ((l.filter (fun e => slNpush e ≠ 0)).flatMap (fun e =>
      [(slPush e, 2 * slNpush e),
       (shPub (rd.1.entry n tShard (slReg e)), rd.1.pubBytes n (rd.1.entry n tShard (slReg e)))]))
    rp.2 = false → rp.1.pushAll n d l = .ok (c1, ts) →
    exec (.push d) s = .next (s.setC (({ c1 with pushTags := kset c1.pushTags d ts } : Core).pushEnd d))) ∧
  (∀ v, c.active (.uu d) 0x72 = some r → r.started = false → plan ≠ 0 → (c.stepSt n).verdict = some v → v.decision ≠ 0 →
    exec (.push d) s = .next (s.setC (c.actDone (.uu d)))) ∧
  (∀ k entry consumer x q, k < 16 → entry < 16 → consumer < 2 ^ 64 → c.ctx? k = some x → kget x.exports entry = some q →
    exec (.exportRingRoom k entry consumer) s = .next (s.setC
      (((c.modExport k entry (fun q => { q with consumer := consumer })).flushExport k entry (q.waiting.length + 1)).sweepEnds
        k))) ∧
  (∀ k entry x q a die rest, k < 16 → entry < 16 → c.ctx? k = some x → kget x.exports entry = some q →
    q.waiting = (a, die, rest) :: [] → (c.active (.uu die) 0x71) = none →
    exec (.exportRecordDrop k entry) s = .next (s.setC
      ((((c.dropRecord k entry die a).modExport k entry (fun q => { q with
        waiting := q.waiting.filter (fun r => r.2.1 ≠ die) })).flushExport k entry 2).sweepEnds k)))

/-- A REDUCE whose tree set passes its checks sends the null contributions its leaves owe and finishes what waits for nobody;
a contribution from an expected child for the current, unabandoned step is summed (or discarded late) and finished tiles
looked at, one for another step is discarded, and one for no bound job has no effect; a null contribution also renews its
sender's liveness; a deadline that has come finishes every trained tile not yet finished, and one not yet reached changes
nothing. Completing commands (each has a clause whose conclusion is that exec answers the next state of its own effect):
reduce, contribArrive, nullContribArrive, reduceDeadline. (09_training_step.md, 11_tricel_links.md; derived) -/
def Obligations.Reductions : Prop :=
  ∀ (s : State) (n tset idx t : Nat),
  let c := s.dev.c
  (∀ die r ts, isLinkDie die = true → c.active (.ru die) 0x81 = some r → r.started = false →
    c.entry r.a.ctx tTree (aEntry r.a.bits) ≠ 0 →
    let e := c.entry r.a.ctx tTree (aEntry r.a.bits)
    let rd := c.actionReads (.ru die) r.a.ctx [(tsList e, 128 * tsCount e)]
    rd.2 = false →
    (∀ i, i < tsCount e → ∃ o, rd.1.treeAt r.a.ctx (aEntry r.a.bits) i = .ok o) →
    ts = ((List.range (tsCount e)).map (fun i =>
      rd.1.treeAt r.a.ctx (aEntry r.a.bits) i)).filterMap (fun q => match q with | .ok o => o | .error _ => none) →
    rd.1.treeSetOk r.a.ctx e = .ok true → (∀ q, q ∈ ts → rd.1.treeAreas r.a.ctx q = true) →
    exec (.reduce die) s = .next (s.setC
      ((rd.1.reduceStart (.ru die) r.a.ctx (aEntry r.a.bits) ts).checkReduces r.a.ctx))) ∧
  (∀ die r, isLinkDie die = true → c.active (.ru die) 0x81 = some r → r.started = false →
    c.entry r.a.ctx tTree (aEntry r.a.bits) = 0 →
    exec (.reduce die) s = .next (s.setC (c.actionFault (.ru die) 4 (aEntry r.a.bits)))) ∧
  (∀ src job step sid tile count pslot sum, c.jobCtx job = some n → c.slotTree n sid pslot src = .ok (tset, idx, t) →
    c.takesStep n step = true →
    exec (.contribArrive src job step sid tile count pslot sum) s = .next (s.setC
      ((c.arriveTile n tset idx t src tile (sum.map BitVec.toNat) (count % 2 ^ 48)).checkReduces n))) ∧
  (∀ src job step sid tile count pslot sum, c.jobCtx job = some n → c.slotTree n sid pslot src = .ok (tset, idx, t) →
    c.takesStep n step = false → exec (.contribArrive src job step sid tile count pslot sum) s = .next s) ∧
  (∀ src job step sid tile count pslot sum, c.jobCtx job = none →
    exec (.contribArrive src job step sid tile count pslot sum) s = .next s) ∧
  (∀ src job step sid pslot, c.jobCtx job = some n → (c.hear n src).slotTree n sid pslot src = .ok (tset, idx, t) →
    c.takesStep n step = true →
    exec (.nullContribArrive src job step sid pslot) s = .next (s.setC
      (((c.hear n src).arriveNull n tset idx t src).checkReduces n))) ∧
  (∀ at_ die, c.treeAt n tset idx = .ok (some t) → (c.node n tset idx t).deadline = some at_ → c.treeDie t = some die →
    c.now (dieRegion die) < at_ → exec (.reduceDeadline n tset idx) s = .next s) ∧
  (∀ at_ die, c.treeAt n tset idx = .ok (some t) → (c.node n tset idx t).deadline = some at_ → c.treeDie t = some die →
    (c.node n tset idx t).expired = false → at_ ≤ c.now (dieRegion die) →
    let c1 := (List.range (c.treeTiles n t)).foldl (fun c k =>
      if !((c.node n tset idx t).tile k).fwd && c.tileTrained n t k then c.finishTile n tset idx t k else c) c
    exec (.reduceDeadline n tset idx) s = .next (s.setC
      ((c1.setNode n tset idx { c1.node n tset idx t with expired := true }).checkReduces n)))

/-- A running VERDICT owes its contribution and completes once the step's record is there; a contribution that arrives for a
bound job is combined at the verdict node, and a record of the current step is taken unless it is older than one seen or this
is the root; every such message and a beat renew the sender's liveness; a beat goes to each verdict-tree neighbour; a
neighbour silent for the liveness timeout and not yet lost is declared lost, and one heard since is not; a notice that names
this device stops its context, another declares the device it names lost. Completing commands (each has a clause whose
conclusion is that exec answers the next state of its own effect): verdict, verdContribArrive, verdRecordArrive, beatSend,
beatArrive, livenessTimeout, lossArrive. (09_training_step.md, 11_tricel_links.md; derived) -/
def Obligations.VerdictAndLiveness : Prop :=
  ∀ (s : State) (n src job : Nat) (x : Ctx) (j : Job),
  let c := s.dev.c
  (∀ die r, isLinkDie die = true → c.active (.ru die) 0x82 = some r → (c.stepSt r.a.ctx).verdict.isSome = true →
    exec (.verdict die) s = .next (s.setC (c.actDone (.ru die)))) ∧
  (∀ die r, isLinkDie die = true → c.active (.ru die) 0x82 = some r → (c.stepSt r.a.ctx).verdict = none →
    exec (.verdict die) s = .next (s.setC
      ((c.modStep r.a.ctx (fun s => { s with contribPending := true })).tryContribute r.a.ctx))) ∧
  (∀ v, c.jobCtx job = some n → exec (.verdContribArrive src job v) s = .next (s.setC
    (((c.hear n src).contribute n src v).pollDone n))) ∧
  (∀ v, c.jobCtx job = none → exec (.verdContribArrive src job v) s = .next s) ∧
  (∀ v : VRecord, c.jobCtx job = some n → (c.hear n src).job? n = some j → ((c.hear n src).vnode n).polling = none →
    ((c.hear n src).vnode n).latest = none → j.rootHere = false → (c.hear n src).stepOf n ≤ v.step → v.decision ≤ 2 →
    exec (.verdRecordArrive src job v) s = .next (s.setC ((c.hear n src).takeRecord n src j v))) ∧
  (∀ (v l : VRecord), c.jobCtx job = some n → (c.hear n src).job? n = some j → ((c.hear n src).vnode n).polling = none →
    ((c.hear n src).vnode n).latest = some l → v.step ≤ l.step →
    exec (.verdRecordArrive src job v) s = .next (s.setC (c.hear n src))) ∧
  (c.ctx? n = some x → x.job = some j → (∀ r, x.run = some r → r.halted = false) → x.stopped = false →
    c.devState ≠ .stopped →
    exec (.beatSend n) s = .next (s.setC
      (((if j.isRoot then [] else [j.parent]) ++ j.children).foldl (fun c m => c.send n m kBeat []) c))) ∧
  (c.jobCtx job = some n → exec (.beatArrive src job) s = .next (s.setC (c.hear n src))) ∧
  (∀ dev, c.ctx? n = some x → x.job = some j → j.neighbour dev = true → dev ∉ j.lost →
    kgetD j.heard dev 0 + 100000 * x.liveMs ≤ c.now 0 →
    exec (.livenessTimeout n dev) s = .next (s.setC (((c.declareLost n dev).afterLoss n dev true).pollDone n))) ∧
  (∀ dev, c.ctx? n = some x → x.job = some j → c.now 0 < kgetD j.heard dev 0 + 100000 * x.liveMs →
    exec (.livenessTimeout n dev) s = .next s) ∧
  (∀ dev, c.jobCtx job = some n → (c.hear n src).job? n = some j → dev = (c.hear n src).devNum →
    (c.hear n src).dnValid = true →
    exec (.lossArrive src job dev) s = .next (s.setC ((c.hear n src).stopAndSwitch n 0x468).settleIdle)) ∧
  (∀ dev, c.jobCtx job = some n → (c.hear n src).job? n = some j → dev ≠ (c.hear n src).devNum → dev ∉ j.lost →
    exec (.lossArrive src job dev) s = .next (s.setC
      ((((c.hear n src).declareLost n dev).afterLoss n dev false).pollDone n)))

/-- A push for a replica entry lands at its range and is answered with WRITE_DONE, and without such an entry is counted; a
replica that still awaits its push of an applied step asks its owner; the owner sends the published range again; DISPATCH
sends its first counts and COMBINE, once the counts are written, returns the rows; a first count, a grant that answers a
request of this device, a row and a combined row are recorded and move the exchange on, and a second count from one source
changes nothing. Completing commands (each has a clause whose conclusion is that exec answers the next state of its own
effect): pushArrive, pushReqTimer, pushReqArrive, dispatch, combine, dispCountArrive, dispGrantArrive, dispRowArrive,
combRowArrive. (09_training_step.md, 10_update_unit.md, 11_tricel_links.md; derived) -/
def Obligations.PushesAndDispatch : Prop :=
  ∀ (s : State) (n src job : Nat),
  let c := s.dev.c
  (∀ tag sid version off data last x e sh, c.jobCtx job = some n → c.ctx? n = some x → x.replicaOf sid = some (e, sh) →
    exec (.pushArrive src job tag sid version off data last) s = .next (s.setC
      ((c.landPush n e sh version off data last).1.answer n src kWriteDone tag
        (leBytes (c.landPush n e sh version off data last).2 1)))) ∧
  (∀ tag sid version off data last x, c.jobCtx job = some n → c.ctx? n = some x → x.replicaOf sid = none →
    exec (.pushArrive src job tag sid version off data last) s = .next (s.setC (c.bump (subBase 10 8 0 + 0x438) 32 1))) ∧
  (∀ entry v j, n < 16 → entry < 65536 → shRole (c.entry n tShard entry) = 2 → (c.stepSt n).verdict = some v → v.decision = 0 →
    c.job? n = some j → shOwner (c.entry n tShard entry) ∉ j.lost → entry ∉ (c.stepSt n).pushLanded →
    exec (.pushReqTimer n entry) s = .next (s.setC
      (c.send n (shOwner (c.entry n tShard entry)) kPushReq (leBytes (shId (c.entry n tShard entry)) 4)))) ∧
  (∀ entry, n < 16 → entry < 65536 → entry ∈ (c.stepSt n).pushLanded → exec (.pushReqTimer n entry) s = .next s) ∧
  (∀ sid x e sh b, c.jobCtx job = some n → (c.hear n src).ctx? n = some x → x.ownedOf sid = some (e, sh) →
    let c1 := (((c.hear n src).touchAt n (shPub sh)).hbmRead n (shPub sh) ((c.hear n src).pubBytes n sh)).1
    c1.uuRead n (shPub sh) (c1.pubBytes n sh) = .ok b →
    exec (.pushReqArrive src job sid) s = .next (s.setC
      (c1.sendPush n (portDie (shPub sh / 2 ^ 36)) src sid (shVersion sh) b).1)) ∧
  (∀ die r x j p, isLinkDie die = true → c.active (.de die) 0x91 = some r → r.started = false →
    c.entry r.a.ctx tDisp (aEntry r.a.bits) ≠ 0 → c.ctx? r.a.ctx = some x →
    let e := c.entry r.a.ctx tDisp (aEntry r.a.bits)
    x.dispatchOk e = true → c.job? r.a.ctx = some j →
    let rd := c.unitReads (.de die) r.a.ctx [(dpDevs e, 2 * dpDevN e), (dpEmap e, 8 * dpExperts e), (dpAssign e, 8 * dpAssigns e)]
    rd.2 = false → rd.1.planLists r.a.ctx e = .ok p → p.ok rd.1.devNum = true → rd.1.unarmed (.sub die 12 0) →
    exec (.dispatch die) s = .next (s.setC
      ((rd.1.dispAsk die r.a.ctx (aEntry r.a.bits) (aOVF r.a.bits) p).dispAdvance r.a.ctx (aEntry r.a.bits) p 8))) ∧
  (∀ die r c3, isLinkDie die = true → c.active (.de die) 0x92 = some r → r.started = false →
    c.entry r.a.ctx tDisp (aEntry r.a.bits) ≠ 0 → (c.disp r.a.ctx (aEntry r.a.bits)).die.isSome = true →
    (c.disp r.a.ctx (aEntry r.a.bits)).counted = true → c.unarmed (.sub die 12 0) →
    c.combReturn die r.a.ctx (aEntry r.a.bits) (c.disp r.a.ctx (aEntry r.a.bits)) = .ok c3 →
    exec (.combine die) s = .next (s.setC (c3.combEnd r.a.ctx (aEntry r.a.bits)))) ∧
  (∀ dplan counts, c.dispCtx job src = some n → (c.hear n src).entry n tDisp dplan ≠ 0 →
    kget ((c.hear n src).disp n dplan).counts src = none →
    exec (.dispCountArrive src job dplan false counts) s = .next (s.setC
      (((c.hear n src).modDisp n dplan (fun q => { q with counts := kset q.counts src counts })).dispGo n dplan))) ∧
  (∀ dplan counts, c.dispCtx job src = some n → (kget ((c.hear n src).disp n dplan).counts src).isSome = true →
    exec (.dispCountArrive src job dplan false counts) s = .next (s.setC (c.hear n src))) ∧
  (∀ dplan grants k q, c.dispCtx job src = some n → (c.hear n src).requests = [(k, q)] → q.ctx = n →
    q.msg.kind = kDispCount → q.msg.dst = src → q.msg.payload.take 3 = leBytes dplan 2 ++ leBytes (b2n false) 1 →
    exec (.dispGrantArrive src job dplan false grants) s = .next (s.setC
      ((({ c.hear n src with requests := [] } : Core).modDisp n dplan (fun q => { q with got := kset q.got src grants })).dispGo n
        dplan))) ∧
  (∀ dplan lslot row tag off assign data, c.dispCtx job src = some n →
    exec (.dispRowArrive src job dplan lslot row tag off assign data) s = .next (s.setC
      (((c.landRow n dplan src lslot row off assign data).1.answer n src kWriteDone tag
        (leBytes (c.landRow n dplan src lslot row off assign data).2 1)).dispEnd n dplan))) ∧
  (∀ dplan assign tag off data, c.dispCtx job src = some n →
    exec (.combRowArrive src job dplan assign tag off data) s = .next (s.setC
      (((c.landComb n dplan assign off data).1.answer n src kWriteDone tag
        (leBytes (c.landComb n dplan assign off data).2 1)).combEnd n dplan)))

/-- A READ for a bound job waits to be served; it is served with its data and the versions it meets, or its failure status,
once reply credits are held for the whole reply; a WRITE sinks and is answered with WRITE_DONE of its status; READ_DATA that
answers an outstanding READ lands in its pass, and any other is discarded; a completion frees its request; a request with no
completion is sent again under a new tag with one send more, and after 8 sends fails with an action fault of reason 8.
Completing commands (each has a clause whose conclusion is that exec answers the next state of its own effect): readArrive,
readServe, writeArrive, readDataArrive, writeDoneArrive, requestTimeout. (11_tricel_links.md, 06_streams.md; derived) -/
def Obligations.RemoteRequests : Prop :=
  ∀ (s : State) (n src job tag : Nat),
  let c := s.dev.c
  (∀ addr len, c.jobCtx job = some n → exec (.readArrive src job tag addr len) s = .next (s.setC { c with
    reads := c.reads ++ [{ src := src, job := job, tag := tag, addr := addr, len := len }] })) ∧
  (∀ addr len, c.jobCtx job = none → exec (.readArrive src job tag addr len) s = .next s) ∧
  (∀ i r j b, c.reads[i]? = some r → c.jobCtx r.job = some n → c.job? n = some j → farRange r.addr r.len = true →
    c.readBytes n r.addr r.len = .ok b →
    let pl := readPayload 0 (c.versions n r.addr r.len) b
    let flits := flitsOf (4 + pl.length + (if j.enc then 16 else 0))
    let h := c.hbmRead n r.addr r.len
    let reply (pl : List Byte) : Core :=
      (({ h.1 with reads := dropAt h.1.reads i } : Core).touchAt n r.addr).answer n r.src kReadData r.tag pl
    (c.replyReady r.src flits j.enc = false → exec (.readServe i) s = .next s) ∧
    (c.replyReady r.src flits j.enc = true → h.2 = false → ∀ b1, h.1.readBytes n r.addr r.len = .ok b1 →
      exec (.readServe i) s = .next (s.setC (reply (readPayload 0 (h.1.versions n r.addr r.len) b1)))) ∧
    (c.replyReady r.src flits j.enc = true → h.2 = true →
      exec (.readServe i) s = .next (s.setC (reply (readPayload 3 [] []))))) ∧
  (∀ addr data, c.jobCtx job = some n → exec (.writeArrive src job tag addr data) s = .next (s.setC
    ((c.farWrite n addr data).1.answer n src kWriteDone tag (leBytes (c.farWrite n addr data).2 1)))) ∧
  (∀ st v data q d e, kget c.requests tag = some q → q.msg.kind = kRead → q.owner = .se d e →
    exec (.readDataArrive tag st v data) s = .next (s.setC
      (({ c with requests := kdel c.requests tag } : Core).passData d e q st v data))) ∧
  (∀ st v data, kget c.requests tag = none → exec (.readDataArrive tag st v data) s = .next s) ∧
  (∀ st q d e, kget c.requests tag = some q → q.msg.kind = kWrite → q.owner = .se d e →
    exec (.writeDoneArrive tag st) s = .next (s.setC
      ((({ c with requests := kdel c.requests tag } : Core).hear q.ctx q.msg.dst).passWritten d e q st))) ∧
  (∀ st, kget c.requests tag = none → exec (.writeDoneArrive tag st) s = .next s) ∧
  (∀ q, kget c.requests tag = some q → c.orphan q = false → q.sends < 8 →
    let t : Transit := { q.msg with tag := c.nextTag % 2 ^ 20, arrived := none, cls := kindClass q.msg.kind }
    exec (.requestTimeout tag) s = .next (s.setC
      ((({ c with
        requests := kset (kdel c.requests tag) (c.nextTag % 2 ^ 20) { q with msg := t, sends := q.sends + 1 },
        nextTag := (c.nextTag + 1) % 2 ^ 20, transit := c.transit ++ [t] } : Core).retag q tag (c.nextTag % 2 ^ 20)).pump))) ∧
  (∀ q r, kget c.requests tag = some q → c.orphan q = false → 8 ≤ q.sends → c.running q.owner = some r → r.a.ctx = q.ctx →
    r.done = false →
    exec (.requestTimeout tag) s = .next (s.setC
      (({ c with requests := kdel c.requests tag } : Core).actionFault q.owner 8 tag)))

/-- On a link that is up, with nothing detected: an intact flit of the expected number is taken in order, one received before
is acknowledged again, one that runs ahead is discarded, and one whose CRC fails is answered with a NAK; an encrypted message
whose tag fails at its last flit is dropped as a whole; a link that is not up ignores flits, acknowledgements and credits; a
NAK or a replay timeout sends what is not acknowledged again; credits never pass the far end's buffers; a message not whole
in time is discarded flit by flit; a waiting reply or bulk message turns to the escape class at the escape threshold; an
escape message with no usable link is discarded, its buffers freed and counted, at the request timeout. Completing commands
(each has a clause whose conclusion is that exec answers the next state of its own effect): flitReceive, ackArrive,
nakArrive, replayTimeout, creditArrive, messageAssemblyTimeout, escapeTimeout, escapeWaitTimeout. (11_tricel_links.md;
derived) -/
def Obligations.LinkFlits : Prop :=
  ∀ (s : State) (l : Nat), l < 36 →
  let c := s.dev.c
  let k := c.link l
  let c1 := c.bump (linkBase l + 0x418) 64 1
  (∀ f : Flit, k.st = .up → c1.unarmed (.link l) → c1.unarmed (.die (linkDie l)) → f.crcOk = true → f.kind ≠ 1 → f.lseq = k.rxSeq →
    exec (.flitReceive l f []) s = .next (s.setC (c1.goodFlit l f))) ∧
  (∀ f : Flit, k.st = .up → c1.unarmed (.link l) → c1.unarmed (.die (linkDie l)) → f.crcOk = true → f.kind ≠ 1 → f.lseq ≠ k.rxSeq →
    (k.rxSeq + 4096 - f.lseq) % 4096 ≤ 2048 →
    exec (.flitReceive l f []) s = .next (s.setC (c1.ack l))) ∧
  (∀ f : Flit, k.st = .up → c1.unarmed (.link l) → c1.unarmed (.die (linkDie l)) → f.crcOk = true →
    f.kind = 1 ∨ (f.lseq ≠ k.rxSeq ∧ 2048 < (k.rxSeq + 4096 - f.lseq) % 4096) →
    exec (.flitReceive l f []) s = .next (s.setC c1)) ∧
  (∀ f : Flit, k.st = .up → c1.unarmed (.link l) → c1.unarmed (.die (linkDie l)) → f.crcOk = false →
    exec (.flitReceive l f []) s = .next (s.setC
      (((c1.bump (linkBase l + 0x42C) 32 1).correction (.link l) 1 1).nak l))) ∧
  (∀ (f : Flit) (m : RxMsg), f.last = true → m.enc = true → f.tagOk = false →
    c.joinFlit l f m = (c.modLink l (fun k => { k with rx := kdel k.rx (f.src, f.mtag) })).tagFailed l
      { m with parts := m.parts ++ [(f.cls, flitHeader f, f.payload)] }) ∧
  (∀ f ups n cls, k.st ≠ .up → 1 ≤ cls → cls ≤ 3 →
    exec (.flitReceive l f ups) s = .next s ∧ exec (.ackArrive l n) s = .next s ∧ exec (.creditArrive l cls n) s = .next s) ∧
  (∀ n f, k.st = .up → f ∈ k.replay → f.lseq = n →
    let rest := acked n k.replay
    let gone := ((k.replay.take (k.replay.length - rest.length)).filter (fun f =>
      f.kind = kPush && !(rest.any (fun g => g.tag = f.tag && g.kind = kPush)))).map (fun f => f.tag)
    exec (.ackArrive l n) s = .next (s.setC
      (((k.local_.foldl (fun c p => c.sendLocal l p.1 p.2)
        (c.modLink l (fun k => { k with replay := rest, local_ := [] }))).pushesAcked gone).checkDrain l).pump)) ∧
  exec (.nakArrive l) s = .next (s.setC (c.replayAll l)) ∧
  exec (.replayTimeout l) s = .next (s.setC (c.replayAll l)) ∧
  (k.st = .up → k.replay ≠ [] → (∀ f, f ∈ k.replay → f.replays < 2) →
    c.replayAll l = ((c.modLink l (fun k => { k with replay := k.replay.map (fun f => { f with replays := f.replays + 1 }) })).bump
      (linkBase l + 0x430) 32 1).emitKept l) ∧
  (∀ n, k.st = .up → exec (.creditArrive l 2 n) s = .next (s.setC
    (c.modLink l (fun k => { k with credBulk := min (k.credBulk + n) 40960 })).pump)) ∧
  (∀ src tag, kget k.rx (src, tag) = none → exec (.messageAssemblyTimeout l src tag) s = .next s) ∧
  (∀ src tag (m : RxMsg), kget k.rx (src, tag) = some m →
    exec (.messageAssemblyTimeout l src tag) s = .next (s.setC
      (m.parts.foldl (fun c q => c.discardFlit l q.1) (c.modLink l (fun k => { k with rx := kdel k.rx (src, tag) }))))) ∧
  (∀ n t, c.transit[n]? = some t → t.cls = 1 ∨ t.cls = 2 → c.waitsAt t = some l →
    exec (.escapeTimeout n) s = .next (s.setC
      ({ c.bump (linkBase l + 0x438) 32 1 with
        transit := (c.bump (linkBase l + 0x438) 32 1).transit.set n { t with cls := 3 } } : Core).pump)) ∧
  (∀ n t, c.transit[n]? = some t → t.cls = 3 → t.arrived = some l →
    (∀ m, m ∈ c.outLinks (kgetD c.routes t.dst 0) 3 → c.linkUsable m 3 t.enc = false) →
    exec (.escapeWaitTimeout n) s = .next (s.setC
      ((({ c with transit := dropAt c.transit n } : Core).bump (linkBase l + 0x43C) 32 1).sendCredit l t.buf t.flits)))

/-- With no injection armed: a training link whose far end is a GNW-T1536 with 8 lanes and a round trip of at most 1.0 µs
announces itself, comes up with full credits and sends its KEY flit, and otherwise stays down; a link down and in service
trains again; training not done in time leaves it down; a retrained link whose far end still fits sends its kept flits again
and agrees a fresh key; a retrain not done in time takes the link down; a KEY flit that verifies installs the key that both
ends derive, and one that does not is counted; a key that has served 2^32 messages is renewed by a retrain. Completing
commands (each has a clause whose conclusion is that exec answers the next state of its own effect): linkTrainDone,
linkTrainRetry, initialTrainingTimeout, linkRetrainDone, linkRetrainTimeout, keyArrive, linkKeyExhaust. (11_tricel_links.md,
15_faults_selftest.md; derived) -/
def Obligations.LinkTraining : Prop :=
  ∀ (s : State) (l : Nat), l < 36 →
  let c := s.dev.c
  let k := c.link l
  (∀ far : FarEnd, k.st = .training → k.enabled = true → c.usable (.link l) = true → c.unarmed (.link l) → far.isT1536 = true →
    far.lanes = 8 → far.rtt ≤ 1000 →
    exec (.linkTrainDone l far) s = .next (s.setC (((c.announce l far.rtt).modLink l (fun k => { k with
      st := .up, drain := false, far := some far, credReply := 16384, credBulk := 40960, credEscape := 8192, txSeq := 0,
      rxSeq := 0, replay := [], rx := [], nakked := false, slots := 7, local_ := [] })).keyFlit l).pump)) ∧
  (∀ far : FarEnd, k.st = .training → k.enabled = true → c.usable (.link l) = true → c.unarmed (.link l) →
    far.isT1536 = false ∨ far.lanes ≠ 8 ∨ 1000 < far.rtt →
    exec (.linkTrainDone l far) s = .next (s.setC ((c.announce l far.rtt).modLink l (fun k => { k with st := .down })))) ∧
  (∀ far : FarEnd, k.st ≠ .training ∨ k.enabled = false ∨ c.usable (.link l) = false → exec (.linkTrainDone l far) s = .next s) ∧
  (k.st = .down → k.enabled = true → c.usable (.link l) = true → 5 ≤ c.stage → s.dev.pw.linkRef = true → c.devState ≠ .stopped →
    exec (.linkTrainRetry l) s = .next (s.setC (c.modLink l (fun k => { k with st := .training })))) ∧
  (k.st = .training → exec (.initialTrainingTimeout l) s = .next (s.setC (c.modLink l (fun k => { k with st := .down })))) ∧
  (∀ far : FarEnd, k.st = .retraining → c.unarmed (.link l) → far.isT1536 = true → far.lanes = 8 → far.rtt ≤ 1000 →
    exec (.linkRetrainDone ⟨l, far⟩) s = .next (s.setC ((((c.announce l far.rtt).modLink l (fun k => { k with
      st := .up, far := some far, replay := k.replay.map (fun f => { f with replays := 0 }) })).emitKept l).keyFlit l).pump)) ∧
  (∀ far : FarEnd, k.st = .retraining → c.unarmed (.link l) → far.isT1536 = false ∨ far.lanes ≠ 8 ∨ 1000 < far.rtt →
    exec (.linkRetrainDone ⟨l, far⟩) s = .next (s.setC ((c.announce l far.rtt).linkLost l).pump)) ∧
  (k.st = .retraining → exec (.linkRetrainTimeout l) s = .next (s.setC (c.linkLost l).pump)) ∧
  (∀ far : FarEnd, k.st ≠ .retraining →
    exec (.linkRetrainDone ⟨l, far⟩) s = .next s ∧ exec (.linkRetrainTimeout l) s = .next s) ∧
  (∀ pl key, k.st = .up → k.pendKey = true → s.dev.linkKey l pl = some key →
    exec (.keyArrive l pl) s = .next (s.setC
      (c.modLink l (fun k => { k with key := some key, keyMsgs := 0, rxMsgs := 0, pendKey := false })).pump)) ∧
  (∀ pl, k.st = .up → k.pendKey = true → s.dev.linkKey l pl = none →
    exec (.keyArrive l pl) s = .next (s.setC
      ((c.modLink l (fun k => { k with pendKey := false })).bump (subBase 0 5 0 + 0x41C) 32 1))) ∧
  (2 ^ 32 ≤ k.keyMsgs → k.key.isSome = true → exec (.linkKeyExhaust l) s = .next (s.setC (c.retrain l))) ∧
  (k.keyMsgs < 2 ^ 32 → exec (.linkKeyExhaust l) s = .next s)

/-- Once begun: LINK_PARAMS sets the escape threshold and the request timeout, under a started run at the next settle point,
and refuses values outside their ranges with 0x0480; FABRIC_MAP needs recovery everywhere (0x0482) and a good table, and
takes effect at once or at the settle point; LINK_CTL refuses a link or an action beyond the table with 0x0480, and otherwise
enables the link, drains and disables it, or retrains it. Completing commands (each has a clause whose conclusion is that
exec answers the next state of its own effect): linkParams, fabricMap, linkCtlEnable, linkCtlDisable, linkCtlRetrain.
(11_tricel_links.md; derived) -/
def Obligations.LinkCommands : Prop :=
  ∀ (s : State) (p : Packet) (c : Core),
  (s.dev.begins (Cmd.plain 0x401 false [64, 64]) p c → 1 ≤ p.arg 0 → p.arg 0 ≤ 65535 → 10 ≤ p.arg 1 → p.arg 1 ≤ 65535 →
    exec (.linkParams p) s = .next (s.setC
      ((if c.anyRun then { c with pendLink := some (p.arg 0, p.arg 1) } else { c with escUs := p.arg 0, reqUs := p.arg 1 } :
        Core).finish p 0 []))) ∧
  (s.dev.begins (Cmd.plain 0x401 false [64, 64]) p c → p.arg 0 < 1 ∨ 65535 < p.arg 0 ∨ p.arg 1 < 10 ∨ 65535 < p.arg 1 →
    exec (.linkParams p) s = .next (s.setC (c.finish p 0x480 []))) ∧
  (s.dev.begins (Cmd.plain 0x402 false [64, 64]) p c → 2 ^ 15 ≤ p.arg 0 →
    exec (.fabricMap p) s = .next (s.setC (c.finish p 0x480 []))) ∧
  (s.dev.begins (Cmd.plain 0x402 false [64, 64]) p c → p.arg 0 < 2 ^ 15 → c.allRecover = false →
    exec (.fabricMap p) s = .next (s.setC (c.finish p 0x482 []))) ∧
  (∀ b, s.dev.begins (Cmd.plain 0x402 false [64, 64]) p c → p.arg 0 < 2 ^ 15 → c.allRecover = true →
    let c0 := c.checkObj (p.arg 1 / 2 ^ 28) (p.arg 1) 0 131072
    c0.byHandle (p.arg 1 / 2 ^ 28) (p.arg 1) 0 131072 0x481 = .ok b →
    let es := (List.range 32768).map (fun i => fieldAt b (4 * i) 4)
    (∀ i, i < 32768 → routeEntryOk (p.arg 0) i (es.getD i 0) = true) →
    exec (.fabricMap p) s = .next (s.setC
      ((if c0.anyRun then ({ c0 with pendMap := some (p.arg 0, es) } : Core).redraw else c0.applyMap (p.arg 0) es).finish p 0
        []))) ∧
  (s.dev.begins (Cmd.plain 0x408 false [64, 64]) p c → 36 ≤ p.arg 0 →
    (p.arg 1 = 0 → exec (.linkCtlEnable p) s = .next (s.setC (c.finish p 0x480 []))) ∧
    (p.arg 1 = 1 → exec (.linkCtlDisable p) s = .next (s.setC (c.finish p 0x480 []))) ∧
    (p.arg 1 = 2 → exec (.linkCtlRetrain p) s = .next (s.setC (c.finish p 0x480 [])))) ∧
  (s.dev.begins (Cmd.plain 0x408 false [64, 64]) p c → p.arg 0 < 36 → p.arg 1 = 0 → c.usable (.link (p.arg 0)) = true →
    exec (.linkCtlEnable p) s = .next (s.setC ((c.modLink (p.arg 0) (fun q => { q with
      enabled := true, drain := false,
      st := if (c.link (p.arg 0)).st = .disabled then .training else (c.link (p.arg 0)).st })).finish p 0 []))) ∧
  (s.dev.begins (Cmd.plain 0x408 false [64, 64]) p c → p.arg 0 < 36 → p.arg 1 = 1 → (c.link (p.arg 0)).st = .up →
    exec (.linkCtlDisable p) s = .next (s.setC
      ((((c.modLink (p.arg 0) (fun k => { k with enabled := false })).modLink (p.arg 0) (fun k => { k with
        drain := true })).checkDrain (p.arg 0)).finish p 0 []))) ∧
  (s.dev.begins (Cmd.plain 0x408 false [64, 64]) p c → p.arg 0 < 36 → p.arg 1 = 1 → (c.link (p.arg 0)).st ≠ .up →
    (c.link (p.arg 0)).st ≠ .retraining →
    exec (.linkCtlDisable p) s = .next (s.setC
      (((c.modLink (p.arg 0) (fun k => { k with enabled := false })).modLink (p.arg 0) (fun k => { k with
        st := .disabled })).finish p 0 []))) ∧
  (s.dev.begins (Cmd.plain 0x408 false [64, 64]) p c → p.arg 0 < 36 → p.arg 1 = 2 →
    exec (.linkCtlRetrain p) s = .next (s.setC ((c.retrain (p.arg 0)).finish p 0 [])))

/-- Once begun: JOB_BIND binds a good job record to a context without one and waits for the job's first exchange, and refuses
a context or a job number already bound with 0x0483; JOB_UNBIND, JOB_REMAP, TREE_LOAD and DISPATCH_LOAD refuse an unbound
context with 0x0487; an unbind takes effect at once, or waits for the settle point of a started run; a remap needs recovery
everywhere (0x0482); the tree and dispatch tables take entries that pass their checks. Completing commands (each has a clause
whose conclusion is that exec answers the next state of its own effect): jobBind, jobUnbind, jobRemap, treeLoad,
dispatchLoad. (11_tricel_links.md, 09_training_step.md; derived) -/
def Obligations.JobCommands : Prop :=
  ∀ (s : State) (p : Packet) (c : Core),
  let n := p.ctxNum
  let c0 := c.checkJob n (p.arg 0)
  (∀ b, s.dev.begins (Cmd.plain 0x403 true [64]) p c → c0.readJob n (p.arg 0) = .ok b → c0.job? n = none →
    c0.jobCtx (fieldAt b 0 2) = none →
    exec (.jobBind p) s = .next (s.setC
      ((c0.modCtx n (fun x => { x with job := some (c0.jobOf b (some p)), vnode := VNode.fresh })).wait p .bind))) ∧
  (∀ b, s.dev.begins (Cmd.plain 0x403 true [64]) p c → c0.readJob n (p.arg 0) = .ok b →
    (c0.job? n).isSome = true ∨ (c0.jobCtx (fieldAt b 0 2)).isSome = true →
    exec (.jobBind p) s = .next (s.setC (c0.finish p 0x483 []))) ∧
  (∀ e, s.dev.begins (Cmd.plain 0x403 true [64]) p c → c0.readJob n (p.arg 0) = .error e →
    exec (.jobBind p) s = .next (s.setC (c0.finish p e []))) ∧
  (s.dev.begins (Cmd.plain 0x404 true []) p c → c.job? n = none → exec (.jobUnbind p) s = .next (s.setC (c.finish p 0x487 []))) ∧
  (s.dev.begins (Cmd.plain 0x405 true [64]) p c → c.job? n = none → exec (.jobRemap p) s = .next (s.setC (c.finish p 0x487 []))) ∧
  (s.dev.begins (Cmd.plain 0x406 true [64, 64, 64]) p c → c.job? n = none →
    exec (.treeLoad p) s = .next (s.setC (c.finish p 0x487 []))) ∧
  (s.dev.begins (Cmd.plain 0x407 true [64, 64, 64]) p c → c.job? n = none →
    exec (.dispatchLoad p) s = .next (s.setC (c.finish p 0x487 []))) ∧
  (∀ j, s.dev.begins (Cmd.plain 0x404 true []) p c → c.job? n = some j → c.runStarted n = false →
    exec (.jobUnbind p) s = .next (s.setC ((c.unbind n).finish p 0 []))) ∧
  (∀ j, s.dev.begins (Cmd.plain 0x404 true []) p c → c.job? n = some j → c.runStarted n = true →
    exec (.jobUnbind p) s = .next (s.setC ((c.modJob n (fun j => { j with unbind := true })).wait p .unbind))) ∧
  (∀ j, s.dev.begins (Cmd.plain 0x405 true [64]) p c → c.job? n = some j → c.allRecover = false →
    exec (.jobRemap p) s = .next (s.setC (c.finish p 0x482 []))) ∧
  (∀ j b, s.dev.begins (Cmd.plain 0x405 true [64]) p c → c.job? n = some j → c.allRecover = true →
    c0.readJob n (p.arg 0) = .ok b → (∀ m, c0.jobCtx (fieldAt b 0 2) = some m → m = n) →
    exec (.jobRemap p) s = .next (s.setC
      ((if c0.anyRun then ({ c0 with pendJob := kset c0.pendJob n b } : Core).redraw else c0.applyJob n b).finish p 0 []))) ∧
  (∀ j c1 es, s.dev.begins (Cmd.plain 0x406 true [64, 64, 64]) p c → c.job? n = some j →
    c.loads p tTree 16 4096 1 0x481 (fun _ _ e => c.treeSetOk n e) c1 es →
    exec (.treeLoad p) s = .next (s.setC ((c1.change n (.words tTree (p.arg 0) es)).finish p 0 []))) ∧
  (∀ j c1 es, s.dev.begins (Cmd.plain 0x407 true [64, 64, 64]) p c → c.job? n = some j →
    c.loads p tDisp 128 4096 1 0x481 (fun x _ e => .ok (x.dispatchOk e)) c1 es →
    exec (.dispatchLoad p) s = .next (s.setC ((c1.change n (.words tDisp (p.arg 0) es)).finish p 0 [])))

/-- Once begun: STEP_PARAMS sets the expected duration, the liveness timeout and the stash area, at once or at the settle
point, and refuses values outside their ranges with 0x0460 and a bad area with 0x0463; LAYER_LOAD and SHARD_LOAD write
entries that pass their checks, and refuse a range beyond the table with 0x0464; RESHARD installs a whole register that
passes and, in recovery, ends the step in progress of that context; VERDICT_RING sets a well-formed ring, and refuses any
other with 0x0460. Completing commands (each has a clause whose conclusion is that exec answers the next state of its own
effect): stepParams, layerLoad, shardLoad, reshard, verdictRing. (09_training_step.md, 03_slot_actions.md; derived) -/
def Obligations.StepCommands : Prop :=
  ∀ (s : State) (p : Packet) (c : Core) (x : Ctx),
  let n := p.ctxNum
  (s.dev.begins (Cmd.plain 0x440 true [64, 64, 64, 64]) p c → c.ctx? n = some x → 1 ≤ p.arg 0 → p.arg 0 ≤ 4294967295 →
    1 ≤ p.arg 1 → p.arg 1 ≤ 65535 → x.stashOk n (p.arg 2) (p.arg 3) = true →
    exec (.stepParams p) s = .next (s.setC
      ((c.change n (.params (p.arg 0) (p.arg 1) (p.arg 2) (p.arg 3))).finish p 0 []))) ∧
  (s.dev.begins (Cmd.plain 0x440 true [64, 64, 64, 64]) p c → c.ctx? n = some x →
    p.arg 0 < 1 ∨ 4294967295 < p.arg 0 ∨ p.arg 1 < 1 ∨ 65535 < p.arg 1 →
    exec (.stepParams p) s = .next (s.setC (c.finish p 0x460 []))) ∧
  (s.dev.begins (Cmd.plain 0x440 true [64, 64, 64, 64]) p c → c.ctx? n = some x → 1 ≤ p.arg 0 → p.arg 0 ≤ 4294967295 →
    1 ≤ p.arg 1 → p.arg 1 ≤ 65535 → x.stashOk n (p.arg 2) (p.arg 3) = false →
    exec (.stepParams p) s = .next (s.setC (c.finish p 0x463 []))) ∧
  (∀ c1 es, s.dev.begins (Cmd.plain 0x441 true [64, 64, 64]) p c →
    c.loads p tLayer 32 4096 1 0x463 (fun _ _ e => .ok (layerOk e)) c1 es →
    exec (.layerLoad p) s = .next (s.setC ((c1.change n (.words tLayer (p.arg 0) es)).finish p 0 []))) ∧
  (s.dev.begins (Cmd.plain 0x441 true [64, 64, 64]) p c → c.ctx? n = some x → 4096 < p.arg 0 + p.arg 1 →
    exec (.layerLoad p) s = .next (s.setC (c.finish p 0x464 []))) ∧
  (∀ c1 es, s.dev.begins (Cmd.plain 0x442 true [64, 64, 64]) p c →
    c.loads p tShard 64 65536 2 0x463 (fun x _ e => .ok (shardOk (x.ahead tLayer) e)) c1 es →
    exec (.shardLoad p) s = .next (s.setC ((c1.change n (.words tShard (p.arg 0) es)).finish p 0 []))) ∧
  (s.dev.begins (Cmd.plain 0x442 true [64, 64, 64]) p c → c.ctx? n = some x → 65536 < p.arg 0 + p.arg 1 →
    exec (.shardLoad p) s = .next (s.setC (c.finish p 0x464 []))) ∧
  (∀ b c1, s.dev.begins (Cmd.plain 0x443 true [64, 64]) p c → c.ctx? n = some x → p.arg 0 ≤ 65536 →
    let c0 := c.checkObj n (p.arg 1) 0 (64 * p.arg 0)
    c0.byHandle n (p.arg 1) 0 (64 * p.arg 0) 0x463 = .ok b →
    let es := (List.range (p.arg 0)).map (fun i => ofLe ((b.drop (64 * i)).take 64))
    (∀ i, i < p.arg 0 → shardOk (x.ahead tLayer) (es.getD i 0) = true) → c0.needTable n tShard 2 = some c1 →
    let c2 := c1.change n (.register es)
    exec (.reshard p) s = .next (s.setC ((if c2.cur = some n ∧ c2.inRecovery n = true then c2.redraw else c2).finish p 0 []))) ∧
  (s.dev.begins (Cmd.plain 0x443 true [64, 64]) p c → c.ctx? n = some x → 65536 < p.arg 0 →
    exec (.reshard p) s = .next (s.setC (c.finish p 0x464 []))) ∧
  (s.dev.begins (Cmd.plain 0x444 true [64, 64, 64]) p c → p.arg 0 % 64 = 0 → isPow2 (p.arg 1) = true → p.arg 1 ≤ 65536 →
    p.arg 2 < 2 →
    exec (.verdictRing p) s = .next (s.setC ((c.change n
      (.ring 1 { base := p.arg 0, entries := p.arg 1, enabled := p.arg 2 = 1 })).finish p 0 []))) ∧
  (s.dev.begins (Cmd.plain 0x444 true [64, 64, 64]) p c → p.arg 0 % 64 ≠ 0 ∨ isPow2 (p.arg 1) = false ∨ 65536 < p.arg 1 ∨
      2 ≤ p.arg 2 →
    exec (.verdictRing p) s = .next (s.setC (c.finish p 0x460 [])))

/-- Once begun: NUM_MODE sets the rounding mode and the local sum limit of a context without a loaded program (0x0540 with
one, 0x0541 out of range); CENSUS_READ writes the last snapshot, or the counts at the halt; CENSUS_RING installs a
well-formed ring at its reply; TRAP_MODE changes the mode; TRAP_RESUME lets a halted run go on and, with 1, abandons its step
with cause 6, and refuses a context that is not halted with 0x0542. Completing commands (each has a clause whose conclusion
is that exec answers the next state of its own effect): numMode, censusRead, censusRing, trapMode, trapResume.
(04_number_formats.md, 03_slot_actions.md; derived) -/
def Obligations.CensusCommands : Prop :=
  ∀ (s : State) (p : Packet) (c : Core) (x : Ctx),
  let n := p.ctxNum
  (s.dev.begins (Cmd.plain 0x501 true [64, 64]) p c → c.ctx? n = some x → x.progs = [] → p.arg 0 < 2 → 10 ≤ p.arg 1 →
    p.arg 1 ≤ 16 →
    exec (.numMode p) s = .next (s.setC
      ((c.modCtx n (fun x => { x with strict := p.arg 0 = 1, lsum := p.arg 1 })).finish p 0 []))) ∧
  (s.dev.begins (Cmd.plain 0x501 true [64, 64]) p c → c.ctx? n = some x → x.progs ≠ [] →
    exec (.numMode p) s = .next (s.setC (c.finish p 0x540 []))) ∧
  (s.dev.begins (Cmd.plain 0x501 true [64, 64]) p c → c.ctx? n = some x → x.progs = [] →
    2 ≤ p.arg 0 ∨ p.arg 1 < 10 ∨ 16 < p.arg 1 →
    exec (.numMode p) s = .next (s.setC (c.finish p 0x541 []))) ∧
  (∀ b c1, s.dev.begins (Cmd.plain 0x502 true [64]) p c → c.ctx? n = some x → x.run = none → x.snapshot = some b →
    p.arg 0 % 64 = 0 → c.hostRecord (p.arg 0) b = some c1 →
    exec (.censusRead p) s = .next (s.setC (({ c1 with freeCtr := c1.freeCtr + 1536 } : Core).finish p 0 []))) ∧
  (∀ r c1, s.dev.begins (Cmd.plain 0x502 true [64]) p c → c.ctx? n = some x → x.run = some r → r.halted = true →
    p.arg 0 % 64 = 0 →
    c.hostRecord (p.arg 0) (x.census' n (c.stepOf n) true (c.stepSt n).abandon.isSome) = some c1 →
    exec (.censusRead p) s = .next (s.setC (({ c1 with freeCtr := c1.freeCtr + 1536 } : Core).finish p 0 []))) ∧
  (s.dev.begins (Cmd.plain 0x502 true [64]) p c → c.ctx? n = some x → p.arg 0 % 64 ≠ 0 →
    exec (.censusRead p) s = .next (s.setC (c.finish p 0x541 []))) ∧
  (s.dev.begins (Cmd.plain 0x503 true [64, 64, 64]) p c → p.arg 0 % 64 = 0 → isPow2 (p.arg 1) = true → p.arg 1 ≤ 65536 →
    p.arg 2 < 2 →
    exec (.censusRing p) s = .next (s.setC ((c.applyPend n
      (.ring 2 { base := p.arg 0, entries := p.arg 1, enabled := p.arg 2 = 1 })).finish p 0 []))) ∧
  (s.dev.begins (Cmd.plain 0x503 true [64, 64, 64]) p c → p.arg 0 % 64 ≠ 0 ∨ isPow2 (p.arg 1) = false ∨ 65536 < p.arg 1 ∨
      2 ≤ p.arg 2 →
    exec (.censusRing p) s = .next (s.setC (c.finish p 0x541 []))) ∧
  (s.dev.begins (Cmd.plain 0x504 true [64]) p c → p.arg 0 < 2 →
    exec (.trapMode p) s = .next (s.setC ((c.change n (.trap (p.arg 0 = 1))).finish p 0 []))) ∧
  (s.dev.begins (Cmd.plain 0x504 true [64]) p c → 2 ≤ p.arg 0 →
    exec (.trapMode p) s = .next (s.setC (c.finish p 0x541 []))) ∧
  (∀ r, s.dev.begins (Cmd.plain 0x505 true [64]) p c → c.run? n = some r → r.halted = true → p.arg 0 = 0 →
    exec (.trapResume p) s = .next (s.setC ((c.modRun n (fun r => { r with halted := false })).wait p .resume))) ∧
  (∀ r, s.dev.begins (Cmd.plain 0x505 true [64]) p c → c.run? n = some r → r.halted = true → p.arg 0 = 1 →
    exec (.trapResume p) s = .next (s.setC
      (((c.modRun n (fun r => { r with halted := false })).wait p .resume).setAbandon n 0x06))) ∧
  (s.dev.begins (Cmd.plain 0x505 true [64]) p c → c.run? n = none →
    exec (.trapResume p) s = .next (s.setC (c.finish p 0x542 [])))

/-- Once begun: UPD_PLAN and UPD_SCHED check and install plan entries and a schedule (0x0556 beyond the plan table, 0x0550
for a schedule number above 15, 0x0553 for a bad schedule); LOSS_SCALE installs a setting within its ranges, and refuses any
other with 0x0550; UPD_READ writes the update record to an aligned address, and refuses any other with 0x0550; EXPORT_SET
installs an entry that passes its checks; EXPORT_BEDROCK marks a plan's next export, and refuses a number beyond the table
with 0x0556. Completing commands (each has a clause whose conclusion is that exec answers the next state of its own effect):
updPlan, updSched, lossScale, updRead, exportSet, exportBedrock. (10_update_unit.md; derived) -/
def Obligations.UpdateCommands : Prop :=
  ∀ (s : State) (p : Packet) (c : Core),
  let n := p.ctxNum
  (∀ b c1, s.dev.begins (Cmd.plain 0x510 true [64, 64, 64]) p c → p.arg 0 + p.arg 1 ≤ 4096 →
    let c0 := c.checkObj n (p.arg 2) 0 (128 * p.arg 1)
    c0.byHandle n (p.arg 2) 0 (128 * p.arg 1) 0x554 = .ok b →
    let es := (List.range (p.arg 1)).map (fun i => ofLe ((b.drop (128 * i)).take 128))
    let cr := es.foldl (fun c e => (c.hbmRead n (uList e) (128 * uCount e)).1) c0
    (∀ i, i < p.arg 1 → (cr.tablesAhead n).planFault n (p.arg 0 + i) (es.getD i 0) = none) →
    cr.needTable n tPlan 1 = some c1 →
    exec (.updPlan p) s = .next (s.setC ((c1.change n (.words tPlan (p.arg 0) es)).finish p 0 []))) ∧
  (s.dev.begins (Cmd.plain 0x510 true [64, 64, 64]) p c → 4096 < p.arg 0 + p.arg 1 →
    exec (.updPlan p) s = .next (s.setC (c.finish p 0x556 []))) ∧
  (∀ b c1, s.dev.begins (Cmd.plain 0x511 true [64, 64]) p c → p.arg 0 < 16 →
    (c.checkObj n (p.arg 1) 0 512).byHandle n (p.arg 1) 0 512 0x554 = .ok b →
    schedOk (ofLe b) = true → (c.checkObj n (p.arg 1) 0 512).needTable n tPlan 1 = some c1 →
    exec (.updSched p) s = .next (s.setC ((c1.change n (.words tSched (p.arg 0) [ofLe b])).finish p 0 []))) ∧
  (s.dev.begins (Cmd.plain 0x511 true [64, 64]) p c → 16 ≤ p.arg 0 →
    exec (.updSched p) s = .next (s.setC (c.finish p 0x550 []))) ∧
  (∀ b, s.dev.begins (Cmd.plain 0x511 true [64, 64]) p c → p.arg 0 < 16 →
    (c.checkObj n (p.arg 1) 0 512).byHandle n (p.arg 1) 0 512 0x554 = .ok b → schedOk (ofLe b) = false →
    exec (.updSched p) s = .next (s.setC ((c.checkObj n (p.arg 1) 0 512).finish p 0x553 []))) ∧
  (s.dev.begins (Cmd.plain 0x512 true [64, 64, 64, 64, 64, 16]) p c → -24 ≤ sext 64 (p.arg 0) → sext 64 (p.arg 0) ≤ 24 →
    p.arg 1 ≤ 65535 → p.arg 2 ≤ 65535 → p.arg 3 < 2 ^ 48 → p.arg 4 % 8 = 0 → p.arg 4 < hbmEnd → p.arg 5 % 256 < 2 →
    exec (.lossScale p) s = .next (s.setC ((c.change n (.loss {
      e := sext 64 (p.arg 0), k := p.arg 1, clean := p.arg 2, applied := p.arg 3, addr := p.arg 4,
      flagOn := p.arg 5 % 256 = 1, flag := p.arg 5 / 256 })).finish p 0 []))) ∧
  (s.dev.begins (Cmd.plain 0x512 true [64, 64, 64, 64, 64, 16]) p c → sext 64 (p.arg 0) < -24 ∨ 24 < sext 64 (p.arg 0) →
    exec (.lossScale p) s = .next (s.setC (c.finish p 0x550 []))) ∧
  (∀ x, s.dev.begins (Cmd.plain 0x513 true [64]) p c → c.ctx? n = some x → p.arg 0 % 64 = 0 →
    exec (.updRead p) s = .next (s.setC (c.recordCmd p 0 x.updRecord []))) ∧
  (∀ x, s.dev.begins (Cmd.plain 0x513 true [64]) p c → c.ctx? n = some x → p.arg 0 % 64 ≠ 0 →
    exec (.updRead p) s = .next (s.setC (c.finish p 0x550 []))) ∧
  (∀ q : Export, s.dev.begins (Cmd.plain 0x514 true [64, 64, 64, 64, 64, 64]) p c →
    q = { kind := p.arg 1, base := p.arg 2, bytes := p.arg 3, stride := p.arg 4, interval := p.arg 5, producer := 0,
          consumer := 0, waiting := [], dropping := [], sets := 0, tags := [], emitted := [] } →
    (c.exportRefusal n (p.arg 0) q = none →
      exec (.exportSet p) s = .next (s.setC ((c.change n (.exportEntry (p.arg 0) q)).finish p 0 []))) ∧
    (∀ st, c.exportRefusal n (p.arg 0) q = some st → exec (.exportSet p) s = .next (s.setC (c.finish p st [])))) ∧
  (s.dev.begins (Cmd.plain 0x515 true [64]) p c → p.arg 0 < 4096 →
    exec (.exportBedrock p) s = .next (s.setC ((c.change n (.bedrock (p.arg 0))).finish p 0 []))) ∧
  (s.dev.begins (Cmd.plain 0x515 true [64]) p c → 4096 ≤ p.arg 0 →
    exec (.exportBedrock p) s = .next (s.setC (c.finish p 0x556 [])))

/-- An evaluation, with no point held by GOV_FIX, after the waiting settings: with t above 95 degrees or p above 1.05 times
the cap the point falls by two, else with t above 93 degrees or p above the cap by one, not below OP0, with hold raised to at
most 7 where there is no lower point and calm cleared; else calm rises, a point above OP_MAX falls to it, a point below
OP_MIN rises by one, and after 16 calm evaluations in the cool range hold falls by one or, at 0, the point rises by one up to
OP_MAX. Temperatures count half degrees and powers tenths of a watt. Which step p takes between two tenths of a watt is the
free value of assumption 11. Completing commands (each has a clause whose conclusion is that exec answers the next state of
its own effect): govEvaluate. (12_governor.md; derived) -/
def Obligations.GovernorDecision : Prop :=
  ∀ (s : State), s.dev.gov.active = true →
  let g := s.dev.gov.settings
  let p := s.dev.gov.mean s.dev.c.freeCtr
  let cap := 10 * max 800 (if g.rackLimit = 0 then g.modCap else min g.modCap (g.rackLimit * g.share / 65536))
  ∃ t, exec .govEvaluate s = .next t ∧ t.dev.gov.power = p ∧ t.dev.gov.modCap = g.modCap ∧ t.dev.gov.opMin = g.opMin ∧
    t.dev.gov.opMax = g.opMax ∧ t.dev.gov.trips = s.dev.gov.trips ∧ t.dev.pw = s.dev.pw ∧ t.dev.tr = s.dev.tr ∧
    t.dev.gov.inForce = s.dev.gov.inForce ∧ t.pending = s.pending ∧
    (g.fix = none → 190 < g.temp ∨ 105 * cap < 100 * p →
      t.dev.gov.op = min (g.op - 2) g.opMax ∧ t.dev.gov.calm = 0 ∧
      t.dev.gov.hold = if g.op < 2 then min (g.hold + 1) 7 else g.hold) ∧
    (g.fix = none → g.temp ≤ 190 → 100 * p ≤ 105 * cap → 186 < g.temp ∨ cap < p →
      t.dev.gov.op = min (g.op - 1) g.opMax ∧ t.dev.gov.calm = 0 ∧
      t.dev.gov.hold = if g.op = 0 then min (g.hold + 1) 7 else g.hold) ∧
    (g.fix = none → g.temp ≤ 186 → p ≤ cap → g.opMax < g.op →
      t.dev.gov.op = g.opMax ∧ t.dev.gov.calm = g.calm + 1 ∧ t.dev.gov.hold = g.hold) ∧
    (g.fix = none → g.temp ≤ 186 → p ≤ cap → g.op < g.opMin → g.opMin ≤ g.opMax →
      t.dev.gov.op = g.op + 1 ∧ t.dev.gov.calm = g.calm + 1 ∧ t.dev.gov.hold = g.hold) ∧
    (g.fix = none → g.temp ≤ 180 → 10 * p ≤ 9 * cap → g.opMin ≤ g.op → g.op ≤ g.opMax → 15 ≤ g.calm → 0 < g.hold →
      t.dev.gov.op = g.op ∧ t.dev.gov.calm = 0 ∧ t.dev.gov.hold = g.hold - 1) ∧
    (g.fix = none → g.temp ≤ 180 → 10 * p ≤ 9 * cap → g.opMin ≤ g.op → g.op ≤ g.opMax → 15 ≤ g.calm → g.hold = 0 →
      t.dev.gov.op = min (g.op + 1) g.opMax ∧ t.dev.gov.calm = 0 ∧ t.dev.gov.hold = 0) ∧
    (g.fix = none → g.temp ≤ 186 → p ≤ cap → g.opMin ≤ g.op → g.op ≤ g.opMax →
      180 < g.temp ∨ 9 * cap < 10 * p ∨ g.calm < 15 →
      t.dev.gov.op = g.op ∧ t.dev.gov.calm = g.calm + 1 ∧ t.dev.gov.hold = g.hold) ∧
    t.dev.c.holdUntil = t.dev.c.now 0 + 12500 * t.dev.gov.hold

/-- A whole round of readings is stored while the auxiliary rail is up, and ends a start's wait for cool sensors; input power
over the limit lowers the point by one at once or raises hold at OP0, at most once per 100 us; a ramp puts the chosen point
in force; a sensor at 105 degrees or more trips: GOV_TRIP is written, the device stops, SRAM is lost and the next start waits
for cool sensors; below it nothing happens; each governor command keeps a setting within its range for the next evaluation
and refuses any other with 0x0740, and GOV_FIX refuses a bound job with 0x0741. Completing commands (each has a clause whose
conclusion is that exec answers the next state of its own effect): sensorSample, powerOverLimit, opRampDone, thermalTrip,
govBudget, govLimits, govFix. (12_governor.md; derived) -/
def Obligations.GovernorEvents : Prop :=
  ∀ (s : State),
  let d := s.dev
  (∀ r, readingsWhole r = true → d.pw.auxUp = true →
    exec (.sensorSample r) s = .next (s.setD ({ d with gov := { d.gov with
      dieT := r.dieT, stackT := r.stackT, current := r.current, sample := r.power, sampleSum := d.gov.sampleSum + r.power,
      samples := d.gov.samples + 1 } } : Dev).toBist)) ∧
  (∀ q : Dev, q.c.stage ≠ 2 → q.toBist = q) ∧
  (d.gov.active = true → (∀ t, d.gov.cutAt = some t → t + 10000 ≤ d.c.now 0) →
    let g : Gov := { d.gov with
      calm := 0, op := d.gov.op - 1, hold := if d.gov.op = 0 then min (d.gov.hold + 1) 7 else d.gov.hold,
      cutAt := some (d.c.now 0) }
    exec .powerOverLimit s = .next (s.setD { d with
      gov := g, c := { d.c.countOp d.gov g with holdUntil := d.c.holdUntil + 12500 * (g.hold - d.gov.hold) } })) ∧
  (∀ t, d.gov.cutAt = some t → d.c.now 0 < t + 10000 → exec .powerOverLimit s = .next s) ∧
  exec .opRampDone s = .next (s.setD { d with gov := { d.gov with inForce := d.gov.op } }) ∧
  (∀ (stack : Bool) unit temp, unit < (if stack then 24 else 64) → 210 ≤ temp → temp < 256 →
    let r := if stack then unit / 6 else dieRegion unit
    let w := d.c.now r % 2 ^ 48 + 2 ^ 48 * temp + 2 ^ 56 * unit + (if stack then 2 ^ 62 else 0) + 2 ^ 63
    let c1 := (d.c.chipStop d.portUp).devEvent 4
    c1.devState = .stopped ∧ exec (.thermalTrip stack unit temp) s = .next (s.setD { d with
      gov := { d.gov with trips := kset d.gov.trips r w },
      c := { c1 with tripWait := true, sram := [], sramEpoch := c1.sramEpoch + 1, lineCnt := [] } })) ∧
  (∀ (stack : Bool) unit temp, unit < (if stack then 24 else 64) → temp < 210 →
    exec (.thermalTrip stack unit temp) s = .next s) ∧
  (∀ p c, d.begins (Cmd.plain 0x701 false [64, 64, 64]) p c → 800 ≤ p.arg 0 → p.arg 0 ≤ 3000 → p.arg 1 ≤ 4294967295 →
    1 ≤ p.arg 2 → p.arg 2 ≤ 65536 →
    exec (.govBudget p) s = .next (s.setD { d with
      gov := { d.gov with pendBudget := some (p.arg 0, p.arg 1, p.arg 2) }, c := c.finish p 0 [] })) ∧
  (∀ p c, d.begins (Cmd.plain 0x701 false [64, 64, 64]) p c →
    p.arg 0 < 800 ∨ 3000 < p.arg 0 ∨ 4294967295 < p.arg 1 ∨ p.arg 2 < 1 ∨ 65536 < p.arg 2 →
    exec (.govBudget p) s = .next (s.setC (c.finish p 0x740 []))) ∧
  (∀ p c, d.begins (Cmd.plain 0x702 false [64, 64]) p c → p.arg 0 ≤ p.arg 1 → p.arg 1 ≤ 7 →
    exec (.govLimits p) s = .next (s.setD { d with
      gov := { d.gov with pendLimits := some (p.arg 0, p.arg 1) }, c := c.finish p 0 [] })) ∧
  (∀ p c, d.begins (Cmd.plain 0x702 false [64, 64]) p c → 7 < p.arg 0 ∨ 7 < p.arg 1 ∨ p.arg 1 < p.arg 0 →
    exec (.govLimits p) s = .next (s.setC (c.finish p 0x740 []))) ∧
  (∀ p c, d.begins (Cmd.plain 0x703 false [64]) p c → p.arg 0 ≤ 7 → c.anyJob = false →
    exec (.govFix p) s = .next (s.setD { d with
      gov := { d.gov with pendFix := some (some (p.arg 0)) }, c := c.finish p 0 [] })) ∧
  (∀ p c, d.begins (Cmd.plain 0x703 false [64]) p c → p.arg 0 = 0xFF → c.anyJob = false →
    exec (.govFix p) s = .next (s.setD { d with gov := { d.gov with pendFix := some none }, c := c.finish p 0 [] })) ∧
  (∀ p c, d.begins (Cmd.plain 0x703 false [64]) p c → 7 < p.arg 0 → p.arg 0 ≠ 0xFF →
    exec (.govFix p) s = .next (s.setC (c.finish p 0x740 []))) ∧
  (∀ p c, d.begins (Cmd.plain 0x703 false [64]) p c → p.arg 0 ≤ 7 ∨ p.arg 0 = 0xFF → c.anyJob = true →
    exec (.govFix p) s = .next (s.setC (c.finish p 0x741 [])))

/-- Once begun: ID_CERTS writes the certificate chain where the buffer holds it, and replies the size it needs (0x0801 for a
smaller one, 0x0802 for a misaligned one); ATTEST_DEV and ATTEST_CTX write the signed report; the SPDM responder answers
while it runs, for a slot other than 0 with the error that assumption 30 presumes; IDE_KM sets one of the two streams, and a
stream that leaves the Secure state raises DEV_EVENT[5] and, where it covered, stops the confidential contexts; PEER_KEYS
replaces or extends the table up to 32,768 entries (0x0824); KEY_IMPORT installs an unwrapped key in a confidential context
at rest (0x0820 elsewhere, 0x0821 for a bad one), KEY_ERASE drops it, SEAL_AREA sets the areas of mapped frames (0x0822 for a
bad list). Completing commands (each has a clause whose conclusion is that exec answers the next state of its own effect):
idCerts, attestDev, attestCtx, spdmGetCertificate, spdmGetMeasurements, ideKm, ideStreamInsecure, peerKeys, keyImport,
keyErase, sealArea. (14_trust_firmware.md, 13_host_commands.md; derived) -/
def Obligations.AttestationAndKeys : Prop :=
  ∀ (s : State) (p : Packet) (c c1 : Core) (x : Ctx),
  let d := s.dev
  let need := 8 + Config.certChain.length
  (d.begins (Cmd.plain 0x801 false [64, 64]) p c → p.arg 0 % 64 = 0 → need ≤ p.arg 1 →
    c.hostRecord (p.arg 0) (leBytes Config.certChain.length 8 ++ Config.certChain) = some c1 →
    exec (.idCerts p) s = .next (s.setC (c1.finish p 0 [need]))) ∧
  (d.begins (Cmd.plain 0x801 false [64, 64]) p c → p.arg 0 % 64 = 0 → p.arg 1 < need →
    exec (.idCerts p) s = .next (s.setC (c.finish p 0x801 [need]))) ∧
  (d.begins (Cmd.plain 0x801 false [64, 64]) p c → p.arg 0 % 64 ≠ 0 →
    exec (.idCerts p) s = .next (s.setC (c.finish p 0x802 []))) ∧
  (d.begins { op := 0x802, ctxv := false, widths := [64], list := some (6, 6) } p c →
    exec (.attestDev p) s = .next (s.setC ((d.setC c).attest none p))) ∧
  (d.begins { op := 0x803, ctxv := true, widths := [64], list := some (6, 6) } p c →
    exec (.attestCtx p) s = .next (s.setC ((d.setC c).attest (some p.ctxNum) p))) ∧
  (d.spdmUp = true → exec (.spdmGetCertificate 0) s = .next (s.setC { d.c with out := d.c.out ++ [.spdm Config.certChain] })) ∧
  (∀ k, d.spdmUp = true → 0 < k →
    exec (.spdmGetCertificate k) s = .next (s.setC { d.c with out := d.c.out ++ [.spdm [0x12, 0x7F, 0x01, 0x00]] })) ∧
  (d.spdmUp = true → exec .spdmGetMeasurements s = .next (s.setC { d.c with
    freeCtr := d.c.freeCtr + 49,
    out := d.c.out ++ [.spdm (d.blocks ++ padTo 96 (Config.ecdsaSign 1 (d.c.freeCtr + 48) d.blocks))] })) ∧
  (d.spdmUp = false → exec (.spdmGetCertificate 0) s = .next s ∧ exec .spdmGetMeasurements s = .next s) ∧
  (∀ k key covers secure, d.spdmUp = true → (kget d.tr.ide k).isSome = true ∨ d.tr.ide.length < 2 →
    (∀ q, kget d.tr.ide k = some q → q.secure = false) →
    exec (.ideKm k key covers secure) s = .next (s.setD { d with tr := { d.tr with
      ide := kset d.tr.ide k { key := key, secure := secure, covers := covers } } })) ∧
  (∀ k key covers secure, kget d.tr.ide k = none → 2 ≤ d.tr.ide.length → exec (.ideKm k key covers secure) s = .next s) ∧
  (∀ k q, kget d.tr.ide k = some q → q.secure = true →
    exec (.ideStreamInsecure k) s = .next (s.setD { d with
      tr := { d.tr with ide := kset d.tr.ide k { q with secure := false } },
      c := (if q.covers then d.c.stopConf else d.c).devEvent 5 })) ∧
  (∀ k q, kget d.tr.ide k = some q → q.secure = false → exec (.ideStreamInsecure k) s = .next s) ∧
  (d.begins { op := 0x804, ctxv := false, widths := [64], list := some (0, 510) } p c → (p.payload.length - 1) % 6 = 0 →
    let t := (if p.arg 0 = 1 then d.tr.peerKeys else []) ++ fingerprints (payloadBytes p 1)
    (p.arg 0 < 2 → t.length ≤ 32768 →
      exec (.peerKeys p) s = .next (s.setD { d with tr := { d.tr with peerKeys := t }, c := c.finish p 0 [] })) ∧
    (p.arg 0 < 2 → 32768 < t.length → exec (.peerKeys p) s = .next (s.setC (c.finish p 0x824 [])))) ∧
  (∀ k, d.begins { op := 0x810, ctxv := true, widths := [64], list := some (18, 18) } p c → c.ctx? p.ctxNum = some x →
    x.conf = true → x.run = none → x.spilled = false →
    unwrapKey Config.serial (p.arg 0) p.ctxNum ((payloadBytes p 1).take 96) ((payloadBytes p 1).drop 96) = some k →
    exec (.keyImport p) s = .next (s.setC ((c.modCtx p.ctxNum (fun x => { x with
      dataKey := some { keyId := p.arg 0, key := k, spillCtr := 0, sealCtr := 0 },
      exports := x.exports.map (fun (e : Nat × Export) => (e.1, { e.2 with sets := 0 })) })).finish p 0 []))) ∧
  (d.begins { op := 0x810, ctxv := true, widths := [64], list := some (18, 18) } p c → c.ctx? p.ctxNum = some x →
    x.conf = false ∨ x.run.isSome = true ∨ x.spilled = true →
    exec (.keyImport p) s = .next (s.setC (c.finish p 0x820 []))) ∧
  (d.begins { op := 0x810, ctxv := true, widths := [64], list := some (18, 18) } p c → c.ctx? p.ctxNum = some x →
    x.conf = true → x.run = none → x.spilled = false →
    unwrapKey Config.serial (p.arg 0) p.ctxNum ((payloadBytes p 1).take 96) ((payloadBytes p 1).drop 96) = none →
    exec (.keyImport p) s = .next (s.setC (c.finish p 0x821 []))) ∧
  (d.begins (Cmd.plain 0x811 true []) p c →
    exec (.keyErase p) s = .next (s.setC ((c.modCtx p.ctxNum (fun x => { x with dataKey := none })).finish p 0 []))) ∧
  (d.begins (Cmd.plain 0x812 true [64, 64, 64]) p c → 1 ≤ p.arg 1 → p.arg 1 ≤ 256 → p.arg 2 % 4096 = 0 →
    p.arg 2 + 0x4000 * p.arg 1 ≤ 2 ^ 64 →
    (∀ i, i < p.arg 1 → ∃ f, kget c.frames (p.arg 0 + i) = some f ∧ f.ctx = p.ctxNum) →
    exec (.sealArea p) s = .next (s.setC ((c.modCtx p.ctxNum (fun x => { x with
      sealArea := ((List.range (p.arg 1)).map (fun i => (p.arg 0 + i, p.arg 2 + 0x4000 * i))).foldl
        (fun m e => kset m e.1 e.2) x.sealArea })).finish p 0 []))) ∧
  (d.begins (Cmd.plain 0x812 true [64, 64, 64]) p c → p.arg 1 < 1 ∨ 256 < p.arg 1 ∨ p.arg 2 % 4096 ≠ 0 →
    exec (.sealArea p) s = .next (s.setC (c.finish p 0x822 [])))

/-- Once begun, with the hold-up charge at 80 percent or more: OWNER_CLAIM installs an owner's key on a device without one
(0x0830 with one); an OWNER_CMD whose counter is above the kept one and whose signature verifies locks, unlocks, removes the
owner or replaces its key, and a counter not above it or a signature that fails is refused with 0x0832; FW_BEGIN, FW_BLOCK,
FW_COMMIT and FW_ABORT move the update from idle through receiving to staged and back as R448 and R449 say, and a command
that the state does not admit is refused with 0x0816; a bound job, too low a charge or the owner's lock refuses FW_BEGIN,
FW_BLOCK and FW_COMMIT. Completing commands (each has a clause whose conclusion is that exec answers the next state of its
own effect): ownerClaim, ownerCmdLock, ownerCmdUnlock, ownerCmdRemove, ownerCmdReplace, fwBegin, fwBlock, fwCommit, fwAbort.
(14_trust_firmware.md; derived) -/
def Obligations.OwnershipAndFirmware : Prop :=
  ∀ (s : State) (p : Packet) (c : Core),
  let d := s.dev
  let claim : Cmd := { op := 0x820, ctxv := false, widths := [], list := some (12, 12) }
  let owner : Cmd := { op := 0x821, ctxv := false, widths := [64, 64], list := some (24, 24) }
  let begin_ : Cmd := { op := 0x830, ctxv := false, widths := [], list := some (64, 64) }
  let block : Cmd := { op := 0x831, ctxv := false, widths := [64], list := some (1, 511) }
  let signed : Prop := 80 ≤ d.pw.holdup ∧ d.tr.ownerCtr < p.arg 1 ∧ ∃ k, d.tr.owner = some k ∧
    Config.ecdsaVerify k (ownerMessage Config.serial p) ((payloadBytes p 2).drop 96) = true
  (d.begins claim p c → d.pw.holdup < 80 → exec (.ownerClaim p) s = .next (s.setC (c.finish p 0x811 []))) ∧
  (d.begins claim p c → 80 ≤ d.pw.holdup → d.tr.owner = none →
    exec (.ownerClaim p) s = .next (s.setD { d with
      tr := { d.tr with owner := some (payloadBytes p 0), ownerCtr := 0, lock := false }, c := c.finish p 0 [] })) ∧
  (d.begins claim p c → 80 ≤ d.pw.holdup → d.tr.owner.isSome = true →
    exec (.ownerClaim p) s = .next (s.setC (c.finish p 0x830 []))) ∧
  (d.begins owner p c → signed → p.arg 0 = 0 → (∀ b, b ∈ (payloadBytes p 2).take 96 → b = 0) →
    exec (.ownerCmdLock p) s = .next (s.setD { d with
      tr := { d.tr with ownerCtr := p.arg 1, lock := true, upd := .idle }, c := c.finish p 0 [] })) ∧
  (d.begins owner p c → signed → p.arg 0 = 1 → (∀ b, b ∈ (payloadBytes p 2).take 96 → b = 0) →
    exec (.ownerCmdUnlock p) s = .next (s.setD { d with
      tr := { d.tr with ownerCtr := p.arg 1, lock := false }, c := c.finish p 0 [] })) ∧
  (d.begins owner p c → signed → p.arg 0 = 2 → (∀ b, b ∈ (payloadBytes p 2).take 96 → b = 0) →
    exec (.ownerCmdRemove p) s = .next (s.setD { d with
      tr := { d.tr with ownerCtr := p.arg 1, owner := none, lock := false }, c := c.finish p 0 [] })) ∧
  (d.begins owner p c → signed → p.arg 0 = 3 →
    exec (.ownerCmdReplace p) s = .next (s.setD { d with
      tr := { d.tr with ownerCtr := p.arg 1, owner := some ((payloadBytes p 2).take 96) }, c := c.finish p 0 [] })) ∧
  (∀ k, d.begins owner p c → p.arg 0 = 3 → 80 ≤ d.pw.holdup → d.tr.owner = some k →
    p.arg 1 ≤ d.tr.ownerCtr ∨ Config.ecdsaVerify k (ownerMessage Config.serial p) ((payloadBytes p 2).drop 96) = false →
    exec (.ownerCmdReplace p) s = .next (s.setC (c.finish p 0x832 []))) ∧
  (d.begins begin_ p c → (d.setC c).fwRefusal = none → d.tr.headerOk (payloadBytes p 0) = true →
    d.tr.signatureOk (payloadBytes p 0) = true → d.tr.svnOk (payloadBytes p 0) = true →
    exec (.fwBegin p) s = .next (s.setD { d with
      tr := { d.tr with upd := .receiving, stage := { hdr := payloadBytes p 0, body := [] }, received := 0 },
      c := c.finish p 0 [] })) ∧
  (d.begins begin_ p c → (d.setC c).fwRefusal = none → d.tr.headerOk (payloadBytes p 0) = false →
    exec (.fwBegin p) s = .next (s.setC (c.finish p 0x813 []))) ∧
  (d.begins block p c → (d.setC c).fwRefusal = none → d.tr.upd = .receiving → p.arg 0 % 8 = 0 →
    p.arg 0 + (payloadBytes p 1).length ≤ d.tr.stage.ilen →
    (∀ e, e ∈ d.tr.stage.body → e.1 < p.arg 0 ∨ p.arg 0 + (payloadBytes p 1).length ≤ e.1) →
    exec (.fwBlock p) s = .next (s.setD { d with
      tr := { d.tr with
        stage := { d.tr.stage with body := mputs d.tr.stage.body (p.arg 0) (payloadBytes p 1) },
        received := d.tr.received + (payloadBytes p 1).length }, c := c.finish p 0 [] })) ∧
  (d.begins block p c → (d.setC c).fwRefusal = none → d.tr.upd = .receiving →
    p.arg 0 % 8 ≠ 0 ∨ d.tr.stage.ilen < p.arg 0 + (payloadBytes p 1).length →
    exec (.fwBlock p) s = .next (s.setC (c.finish p 0x817 []))) ∧
  (d.begins (Cmd.plain 0x832 false []) p c → (d.setC c).fwRefusal = none → d.tr.upd = .receiving → d.tr.stage.hashOk = true →
    exec (.fwCommit p) s = .next (s.setD { d with tr := { d.tr with upd := .staged }, c := c.finish p 0 [] })) ∧
  (d.begins (Cmd.plain 0x832 false []) p c → (d.setC c).fwRefusal = none → d.tr.upd = .receiving →
    d.tr.stage.hashOk = false → exec (.fwCommit p) s = .next (s.setC (c.finish p 0x818 []))) ∧
  (d.begins (Cmd.plain 0x832 false []) p c → (d.setC c).fwRefusal = none → d.tr.upd ≠ .receiving →
    exec (.fwCommit p) s = .next (s.setC (c.finish p 0x816 []))) ∧
  (d.begins (Cmd.plain 0x833 false []) p c → d.tr.upd ≠ .idle →
    exec (.fwAbort p) s = .next (s.setD { d with tr := { d.tr with upd := .idle }, c := c.finish p 0 [] })) ∧
  (d.begins (Cmd.plain 0x833 false []) p c → d.tr.upd = .idle → exec (.fwAbort p) s = .next (s.setC (c.finish p 0x816 []))) ∧
  (∀ e, (d.setC c).fwRefusal = some e →
    (d.begins begin_ p c → exec (.fwBegin p) s = .next (s.setC (c.finish p e []))) ∧
    (d.begins block p c → exec (.fwBlock p) s = .next (s.setC (c.finish p e []))) ∧
    (d.begins (Cmd.plain 0x832 false []) p c → exec (.fwCommit p) s = .next (s.setC (c.finish p e []))))

/-- Once begun: SELFTEST_RUN owes its unit a test and waits; SELFTEST_DONE runs an owed test when it may run and otherwise
does nothing; UNIT_DISABLE of a unit in service takes effect at once without a started run and at the settle point with one,
an immediate one dropping the unit's work now, and refuses a unit that cannot be disabled (0x0622) or is out of service
(0x0623); UNIT_ENABLE of a disabled unit owes it a test; BIST_RUN on a quiet device starts the test (0x0620 for a bad scope,
0x0621 on a busy device), and BIST_DONE fences the units that failed and makes the device ready; the 1,024th correction in
time is an error; FAIL_READ writes the record of the counts, FAIL_FORGET clears them where the hold-up charge is 80 percent,
and the counts reach flash when they have changed and the charge allows. Completing commands (each has a clause whose
conclusion is that exec answers the next state of its own effect): selftestRun, selftestDone, unitDisable, unitEnable,
bistRun, bistDone, correctionLimit, failRead, failForget, failcountFlashWrite. (15_faults_selftest.md; derived) -/
def Obligations.TestsAndService : Prop :=
  ∀ (s : State) (p : Packet) (c : Core) (u : SUnit),
  let d := s.dev
  (d.begins (Cmd.plain 0x602 false [64]) p c → unitReserved (p.arg 0) = false → unitParam (p.arg 0) = some u →
    exec (.selftestRun p) s = .next (s.setC ((c.oweTest u).wait p (.selftest u)))) ∧
  (d.begins (Cmd.plain 0x602 false [64]) p c → unitReserved (p.arg 0) = false → unitParam (p.arg 0) = none →
    exec (.selftestRun p) s = .next (s.setC (c.finish p 0x620 []))) ∧
  (∀ pass, u.valid = true → d.c.owes u = true → d.c.testable = true →
    exec (.selftestDone u pass) s = .next (s.setC (d.c.selftest u pass))) ∧
  (∀ pass, u.valid = true → d.c.owes u = false ∨ d.c.testable = false → exec (.selftestDone u pass) s = .next s) ∧
  (d.begins (Cmd.plain 0x603 false [64, 64]) p c → unitReserved (p.arg 0) = false → unitParam (p.arg 0) = some u →
    p.arg 1 < 2 → canDisable u = true → c.usable u = true → c.anyRun = false →
    exec (.unitDisable p) s = .next (s.setC ((c.applyService [] [u] []).finishUnlessStopped p))) ∧
  (d.begins (Cmd.plain 0x603 false [64, 64]) p c → unitReserved (p.arg 0) = false → unitParam (p.arg 0) = some u →
    p.arg 1 = 0 → canDisable u = true → c.usable u = true → c.anyRun = true →
    exec (.unitDisable p) s = .next (s.setC
      (({ c with pendSvc := c.pendSvc ++ [PendSvc.mk u false] } : Core).wait p (.disable u)))) ∧
  (d.begins (Cmd.plain 0x603 false [64, 64]) p c → unitReserved (p.arg 0) = false → unitParam (p.arg 0) = some u →
    p.arg 1 = 1 → canDisable u = true → c.usable u = true → c.anyRun = true →
    exec (.unitDisable p) s = .next (s.setC
      (({ c.dropWork u with pendSvc := (c.dropWork u).pendSvc ++ [PendSvc.mk u false] } : Core).wait p (.disable u)))) ∧
  (d.begins (Cmd.plain 0x603 false [64, 64]) p c → unitReserved (p.arg 0) = false → unitParam (p.arg 0) = some u →
    p.arg 1 < 2 → canDisable u = false → exec (.unitDisable p) s = .next (s.setC (c.finish p 0x622 []))) ∧
  (d.begins (Cmd.plain 0x603 false [64, 64]) p c → unitReserved (p.arg 0) = false → unitParam (p.arg 0) = some u →
    p.arg 1 < 2 → canDisable u = true → c.usable u = false →
    exec (.unitDisable p) s = .next (s.setC (c.finish p 0x623 []))) ∧
  (d.begins (Cmd.plain 0x604 false [64]) p c → unitReserved (p.arg 0) = false → unitParam (p.arg 0) = some u →
    u ∈ c.disabled → exec (.unitEnable p) s = .next (s.setC ((c.oweTest u).wait p (.enable u)))) ∧
  (d.begins (Cmd.plain 0x604 false [64]) p c → unitReserved (p.arg 0) = false → unitParam (p.arg 0) = some u →
    u ∉ c.disabled → exec (.unitEnable p) s = .next (s.setC (c.finish p 0x623 []))) ∧
  (d.begins (Cmd.plain 0x601 false [64, 64, 64]) p c → p.arg 0 = 3 → p.arg 1 = 0 → p.arg 2 = 0 → c.quiet = true →
    let us := c.bistTested 3 0 false
    let c1 := us.foldl (fun c u => (c.rset (u.base + 0x200) (c.rget (u.base + 0x200) / 16 * 16 + 2)).rset (u.base + 0x230) 0) c
    exec (.bistRun p) s = .next (s.setC (({ c1 with
      devState := .testing, sram := [], sramEpoch := c1.sramEpoch + 1,
      hbm := c1.hbm.filter (fun e => !(us.contains (.stack (e.1 / 2 ^ 36)))),
      words := c1.words.filter (fun e => !(us.contains (.stack (e.1 / 2 ^ 30)))) } : Core).wait p (.bist 3 0 false)))) ∧
  (d.begins (Cmd.plain 0x601 false [64, 64, 64]) p c → 4 ≤ p.arg 0 ∨ 2 ≤ p.arg 2 →
    exec (.bistRun p) s = .next (s.setC (c.finish p 0x620 []))) ∧
  (d.begins (Cmd.plain 0x601 false [64, 64, 64]) p c → p.arg 0 = 3 → p.arg 1 = 0 → p.arg 2 < 2 → c.quiet = false →
    exec (.bistRun p) s = .next (s.setC (c.finish p 0x621 []))) ∧
  (∀ failed sc i m, failed.all SUnit.valid = true → d.c.devState = .testing → d.c.bistNow = some (sc, i, m) →
    let us := d.c.bistTested sc i m
    let bad := us.filter (fun u => failed.contains u)
    let c1 := ({ d.c.bistOutcome us bad m with devState := .ready } : Core).applyService bad [] []
    exec (.bistDone failed) s = .next (s.setC (c1.replyWaiting
      (fun w => match w.kind with | .bist _ _ _ => true | _ => false) 0 [us.length, bad.length, c1.fenceGen]))) ∧
  (∀ failed, failed.all SUnit.valid = true → d.c.devState ≠ .testing → exec (.bistDone failed) s = .next s) ∧
  (∀ det, u.valid = true → detExists u det = true → (kgetD d.c.corrs (u, det) []).length = 1024 → d.c.anyRun = true →
    exec (.correctionLimit u det) s = .next (s.setC
      (({ d.c with corrs := kdel d.c.corrs (u, det) } : Core).error u det 0 (Config.syndrome d.c.freeCtr % 2 ^ 32) true false
        true).drawn)) ∧
  (∀ det, u.valid = true → detExists u det = true → (kgetD d.c.corrs (u, det) []).length < 1024 →
    exec (.correctionLimit u det) s = .next s) ∧
  (∀ c1, d.begins (Cmd.plain 0x605 false [64]) p c → p.arg 0 % 64 = 0 → c.hostRecord (p.arg 0) c.failRecord = some c1 →
    exec (.failRead p) s = .next (s.setC (c1.finish p 0 []))) ∧
  (d.begins (Cmd.plain 0x605 false [64]) p c → p.arg 0 % 64 ≠ 0 →
    exec (.failRead p) s = .next (s.setC (c.finish p 0x620 []))) ∧
  (d.begins (Cmd.plain 0x606 false [64]) p c → 80 ≤ d.pw.holdup → p.arg 0 = 2 ^ 64 - 1 →
    exec (.failForget p) s = .next (s.setC (({ c with
      failCnt := [], failFlash := [], retiredFlash := [], forgotten := c.retired } : Core).finish p 0 []))) ∧
  (d.begins (Cmd.plain 0x606 false [64]) p c → 80 ≤ d.pw.holdup → p.arg 0 ≠ 2 ^ 64 - 1 → unitReserved (p.arg 0) = false →
    unitParam (p.arg 0) = some u →
    exec (.failForget p) s = .next (s.setC (({ c with
      failCnt := kdel c.failCnt u, failFlash := kdel c.failFlash u } : Core).finish p 0 []))) ∧
  (d.begins (Cmd.plain 0x606 false [64]) p c → d.pw.holdup < 80 →
    exec (.failForget p) s = .next (s.setC (c.finish p 0x624 []))) ∧
  (d.c.failDirty = true → 80 ≤ d.pw.holdup →
    exec .failcountFlashWrite s = .next (s.setC { d.c with
      failFlash := d.c.failCnt, retiredFlash := d.c.retired.filter (fun r => !(d.c.forgotten.contains r)),
      failDirty := false })) ∧
  (d.c.failDirty = false → exec .failcountFlashWrite s = .next s)

/-- At a working port with no injection armed there: a write that a register accepts acts by its access code: an injection
control is armed or cleared, ERR_FIRST and ERR_ACTION take the value, BAR0_FAULT loses the bits written as ones but for those
set meanwhile; a write to a read-only register does nothing, and one that the device drops is recorded in BAR0_FAULT bit 2; a
read of the low half of a 64-bit register latches the high half, which the next read of the high half returns and empties;
without a latch it returns the live bits. At a port that is down no access does anything. Completing commands (each has a
clause whose conclusion is that exec answers the next state of its own effect): injArm, errFirstClear, errActionClear,
bar0FaultClear, registerWrite, lowHalfRead, highHalfRead. (01_package_regions.md, 15_faults_selftest.md; derived) -/
def Obligations.RegisterAccess : Prop :=
  ∀ (s : State) (u : SUnit) (o off : Nat) (r : RegDef), unitAt off = some (u, o) → regAt u o = some r → inMsix off = false →
  let d := s.dev
  let c := d.c
  (d.portUp = false → ∀ v during size write,
    exec (.injArm off size v) s = .next s ∧ exec (.errFlagsClear off v during) s = .next s ∧
    exec (.errFirstClear off size v) s = .next s ∧ exec (.errActionClear off size v) s = .next s ∧
    exec (.bar0FaultClear v during) s = .next s ∧ exec (.bar0ReservedAccess off size write) s = .next s ∧
    exec (.registerWrite off size v) s = .next s ∧ exec (.rcRegisterRead off size during) s = .next s ∧
    exec (.lowHalfRead off) s = .next s ∧ exec (.highHalfRead off) s = .next s) ∧
  (d.portUp = true → c.unarmed (.sub 0 6 0) →
    (∀ v, r.acc = .inj → off % 8 = 0 → c.drops u o = false →
      exec (.injArm off 8 v) s = .next (s.setC (c.injWrite u o 8 v))) ∧
    (∀ v, r.off = 0x120 → o = 0x120 → off % 8 = 0 → c.drops u o = false →
      exec (.errFirstClear off 8 v) s = .next (s.setC (c.recWrite u 0x120 8 v))) ∧
    (∀ v, r.off = 0x140 → o = 0x140 → off % 8 = 0 → c.drops u o = false →
      exec (.errActionClear off 8 v) s = .next (s.setC (c.recWrite u 0x140 8 v))) ∧
    (∀ v during, c.drops .chip 0x490 = false → exec (.bar0FaultClear v during) s = .next (s.setC
      (c.rset 0x490 (((c.rget 0x490 &&& (0xFFFFFFFF ^^^ v % 2 ^ 32)) ||| during) &&& 7)))) ∧
    (∀ v, r.acc = .ro → off % 4 = 0 → exec (.registerWrite off 4 v) s = .next s) ∧
    (∀ v, r.acc ≠ .ro → off % 4 = 0 → c.drops u o = true →
      exec (.registerWrite off 4 v) s = .next (s.setC (c.barFault 2 off))) ∧
    (r.width = 64 → r.acc ≠ .rc → o = r.off → off % 4 = 0 →
      exec (.lowHalfRead off) s = .next (s.setC { c with
        latch := kset c.latch (off + 4) (d.readVal u r / 2 ^ 32),
        out := c.out ++ [.completion (leBytes (d.readVal u r % 2 ^ 32) 4) false] })) ∧
    (∀ h, r.width = 64 → o ≠ r.off → off % 4 = 0 → kget c.latch off = some h →
      exec (.highHalfRead off) s = .next (s.setC { c with
        latch := kdel c.latch off, out := c.out ++ [.completion (leBytes h 4) false] })) ∧
    (r.width = 64 → o ≠ r.off → off % 4 = 0 → kget c.latch off = none →
      exec (.highHalfRead off) s = .next (s.setC { c with
        out := c.out ++ [.completion (leBytes (d.readVal u r / 2 ^ 32) 4) false] })))

/-- For every write-one-to-clear register of every block in service and every value written, with the port working and no
injection armed there: after the access a bit of the register (ERR_FLAGS has one for each detector of its block, BAR0_FAULT
three) is set exactly when the device set it in the same access, or it was set before and not written as one; reserved bits
are zero, and nothing else of the device changes. Completing commands (each has a clause whose conclusion is that exec
answers the next state of its own effect): errFlagsClear. (R8) -/
def Obligations.W1cBitSetMeanwhileStays : Prop :=
  ∀ (s : State) (u : SUnit) (o off v during : Nat) (r : RegDef), unitAt off = some (u, o) → inMsix off = false →
  regAt u o = some r → r.acc = .w1c → off % 4 = 0 → s.dev.portUp = true → s.dev.c.unarmed (.sub 0 6 0) →
  s.dev.c.drops u o = false →
  ∃ w, exec (.errFlagsClear off v during) s = .next (s.setC (s.dev.c.rset (u.base + r.off) w)) ∧
    ∀ i, i < 32 → bit w i = (bit (w1cBits u r.off) i &&
      (bit during i || (bit (s.dev.c.rget (u.base + r.off)) i && !(bit v i))))

/-- For every read-to-clear counter of every block that answers (DEV_EVENT and BAR2_FAULT, which are no counters, apart),
read whole or by its low half at a working port with no injection armed there: the read returns the value before the access,
and the register then holds what it counted during the access, which the next read returns. Completing commands (each has a
clause whose conclusion is that exec answers the next state of its own effect): rcRegisterRead. (R9) -/
def Obligations.CountDuringReadIsNotLost : Prop :=
  ∀ (s : State) (u : SUnit) (o off size during : Nat) (r : RegDef), unitAt off = some (u, o) → inMsix off = false →
  regAt u o = some r → r.acc = .rc → o = r.off → ¬ (u = .chip ∧ (o = 0x558 ∨ o = 0x568)) → accessOk off size = true → 8 * size ≤ r.width →
  s.dev.portUp = true → s.dev.c.unarmed (.sub 0 6 0) → s.dev.c.silent u = false → s.dev.c.shut u o = false →
  ∃ t, exec (.rcRegisterRead off size during) s = .next t ∧
    t.dev.c.out = s.dev.c.out ++ [.completion (leBytes (s.dev.readVal u r % 2 ^ (8 * size)) size) false] ∧
    t.dev.readVal u r = during % 2 ^ r.width ∧
    ∀ later, ∃ t1, exec (.rcRegisterRead off size later) t = .next t1 ∧
      t1.dev.c.out = t.dev.c.out ++ [.completion (leBytes (during % 2 ^ r.width % 2 ^ (8 * size)) size) false]

/-- At a working port with no injection armed there, an access of a size or an alignment that BAR0 does not support, and an
access to reserved space, completes normally: a read answers zeros, a write changes nothing, and either is recorded in
BAR0_FAULT (bit 1 for size and alignment, bit 0 for reserved space) with the offset of the first; the only message that
leaves is the read's completion, so no AER error is raised. An 8-byte access whose two halves are both reserved is recorded
as its two halves (R33). Completing commands (each has a clause whose conclusion is that exec answers the next state of its
own effect): bar0ReservedAccess, rcRegisterRead, registerWrite. (R31) -/
def Obligations.OddAccessesCompleteNormally : Prop :=
  ∀ (s : State) (off size v during : Nat), s.dev.portUp = true → s.dev.c.unarmed (.sub 0 6 0) →
  let c := s.dev.c
  let odd (c1 : Core) : Prop :=
    exec (.bar0ReservedAccess off size false) s = .next (s.setC { c1 with
      out := c.out ++ [.completion (zeros size) false] }) ∧
    exec (.rcRegisterRead off size during) s = .next (s.setC { c1 with out := c.out ++ [.completion (zeros size) false] }) ∧
    exec (.bar0ReservedAccess off size true) s = .next (s.setC c1) ∧
    exec (.registerWrite off size v) s = .next (s.setC c1)
  (∀ b, (c.barFault b off).out = c.out ∧ bit ((c.barFault b off).rget 0x490) b = true ∧
    (c.rget 0x490 = 0 → (c.barFault b off).rget 0x498 = off)) ∧
  (accessOk off size = false → odd (c.barFault 1 off)) ∧
  (accessOk off size = true → inMsix off = false → unitAt off = none → odd (c.barFault 0 off)) ∧
  (∀ u o, accessOk off size = true → inMsix off = false → size = 4 → unitAt off = some (u, o) → regAt u o = none →
    odd (c.barFault 0 off)) ∧
  (∀ u o, accessOk off size = true → inMsix off = false → size = 8 → unitAt off = some (u, o) → regAt u o = none →
    regAt u (o + 4) = none → odd ((c.barFault 0 off).barFault 0 (off + 4)))

/-- At a working port with no injection armed there: a BAR2 read of a range within the BAR's size that lies in the pool
answers its bytes, its words checked, and one that reaches nothing answers zeros and is recorded; a write of such a range
stores its bytes, and one that reaches nothing is dropped and recorded; an access beyond the BAR's size does not reach the
function. With the auxiliary rail up each sideband code answers its contents as R429 gives them, words that need the main
rail reading 0xFFFF without it, and every other code and every write is NACKed. Completing commands (each has a clause whose
conclusion is that exec answers the next state of its own effect): bar2Read, bar2Write, sbState, sbTdie, sbThbm, sbPower,
sbCap, sbOp, sbInventory, sbFirmware, sbWriteNack. (13_host_commands.md, 08_memory_pool.md; derived) -/
def Obligations.Bar2AndSideband : Prop :=
  ∀ (s : State),
  let d := s.dev
  let c := d.c
  let answers (b : List Byte) : State := s.setC { c with out := c.out ++ [.smbus b] }
  let word (v : Nat) : List Byte := leBytes (if d.pw.mainOk then min v 65535 else 0xFFFF) 2
  (∀ off len n b ps0 ps, d.portUp = true → c.unarmed (.sub 0 6 0) → off + len ≤ 2 ^ c.cfg.bar2 → c.window = some (n, b) →
    c.bar2Parts off len = some ps0 →
    let c1 := (c.hbmRead n (b + off) len).1
    c1.bar2Parts off len = some ps → (∀ q, q ∈ ps → q.2.2 = false) →
    exec (.bar2Read off len) s = .next (s.setC { c1 with
      out := c1.out ++ [.completion (ps.flatMap (fun q => mreadZ c1.hbm q.1 q.2.1)) false] })) ∧
  (∀ off len data, 2 ^ c.cfg.bar2 < off + len → 2 ^ c.cfg.bar2 < off + data.length →
    exec (.bar2Read off len) s = .next s ∧ exec (.bar2Write off data) s = .next s) ∧
  (∀ off len, d.portUp = true → c.unarmed (.sub 0 6 0) → off + len ≤ 2 ^ c.cfg.bar2 → c.bar2Parts off len = none →
    exec (.bar2Read off len) s = .next (s.setC { c.bar2Fault 0 off with
      out := (c.bar2Fault 0 off).out ++ [.completion (zeros len) false] })) ∧
  (∀ off data a, d.portUp = true → c.unarmed (.sub 0 6 0) → off + data.length ≤ 2 ^ c.cfg.bar2 →
    c.bar2Parts off data.length = some [(a, data.length, false)] → 64 ≤ data.length →
    exec (.bar2Write off data) s = .next (s.setC (c.putHbm a data))) ∧
  (∀ off data n b a q, d.portUp = true → c.unarmed (.sub 0 6 0) → off + data.length ≤ 2 ^ c.cfg.bar2 → c.window = some (n, b) →
    c.bar2Parts off data.length = some [(a, data.length, q)] → data.length < 64 →
    let c1 := (c.hbmRead n (b + off) data.length).1
    c1.bar2Parts off data.length = some [(a, data.length, false)] →
    exec (.bar2Write off data) s = .next (s.setC (c1.putHbm a data))) ∧
  (∀ off data, d.portUp = true → c.unarmed (.sub 0 6 0) → off + data.length ≤ 2 ^ c.cfg.bar2 → c.bar2Parts off data.length = none →
    exec (.bar2Write off data) s = .next (s.setC (c.bar2Fault 1 off))) ∧
  (d.pw.auxUp = true →
    exec .sbState s = .next (answers (leBytes (c.devStateReg % 16 + 2 ^ 4 * b2n d.pw.mainOk + 2 ^ 5 * b2n d.alert +
      2 ^ 6 * b2n (d.gov.trips.any (fun t => bit t.2 63))) 2)) ∧
    exec .sbTdie s = .next (answers (word (hottest d.gov.dieT.flatten).toNat)) ∧
    exec .sbThbm s = .next (answers (word (hottest d.gov.stackT).toNat)) ∧
    exec .sbPower s = .next (answers (word (d.gov.power / 10))) ∧
    exec .sbCap s = .next (answers (word d.gov.cap)) ∧
    exec .sbOp s = .next (answers (leBytes (if d.pw.mainOk then d.gov.inForce + 16 * d.gov.cls else 0xFF) 1)) ∧
    exec .sbInventory s = .next (answers (partNumber ++ leBytes 0xA1 1 ++ zeros 7 ++ leBytes Config.serial 8)) ∧
    exec .sbFirmware s = .next (answers (leBytes d.tr.fwVersion 4 ++ leBytes Config.romVersion 4))) ∧
  (∀ code write, d.pw.auxUp = true → write = true ∨ code ∉ [0x00, 0x01, 0x02, 0x03, 0x04, 0x05, 0x10, 0x11] →
    exec (.sbWriteNack code write) s = .next (s.setC { c with out := c.out ++ [.smbusNack] })) ∧
  (d.pw.auxUp = false → exec .sbState s = .next s ∧ exec .sbOp s = .next s ∧ exec .sbInventory s = .next s)

end
end

