-- ==== Sys2Proof/Laws/State.lean ====
section
/-!
SUPPORT. What the plain updates of the core leave as it was: one lemma per field and update, true by unfolding.
-/
namespace Sys2Proof.Machine
open Sys2Proof

/-! ### What the updates write -/

@[simp] theorem Core.rset_reg (c : Core) (a v : Nat) : (c.rset a v).reg = kset c.reg a v := rfl
@[simp] theorem Core.drawn_freeCtr (c : Core) : c.drawn.freeCtr = c.freeCtr + 1 := rfl
@[simp] theorem Core.dma_hostMem (c : Core) (a : Nat) (b : List Byte) : (c.dma a b).hostMem = mputs c.hostMem a b := rfl
@[simp] theorem Core.dma_out (c : Core) (a : Nat) (b : List Byte) : (c.dma a b).out = c.out ++ [.dma a b] := rfl
@[simp] theorem Core.modCtx_ctxs (c : Core) (n : Nat) (f : Ctx → Ctx) : (c.modCtx n f).ctxs = kmod c.ctxs n f := rfl
@[simp] theorem Core.wait_waiting (c : Core) (p : Packet) (k : WaitKind) :
    (c.wait p k).waiting = c.waiting ++ [{ pkt := p, kind := k }] := rfl

/-! ### The core or the device put back -/

@[simp] theorem Dev.setC_c (d : Dev) (c : Core) : (d.setC c).c = c := rfl
@[simp] theorem Dev.setC_pw (d : Dev) (c : Core) : (d.setC c).pw = d.pw := rfl
@[simp] theorem Dev.setC_gov (d : Dev) (c : Core) : (d.setC c).gov = d.gov := rfl
@[simp] theorem Dev.setC_tr (d : Dev) (c : Core) : (d.setC c).tr = d.tr := rfl
@[simp] theorem State.setC_pending (s : State) (c : Core) : (s.setC c).pending = s.pending := rfl
@[simp] theorem State.setC_dev (s : State) (c : Core) : (s.setC c).dev = s.dev.setC c := rfl
@[simp] theorem State.setD_pending (s : State) (d : Dev) : (s.setD d).pending = s.pending := rfl
@[simp] theorem State.setD_dev (s : State) (d : Dev) : (s.setD d).dev = d := rfl

/-! ### `Core.rset` -/

@[simp] theorem Core.rset_devState (c : Core) (a v : Nat) : (c.rset a v).devState = c.devState := rfl
@[simp] theorem Core.rset_stage (c : Core) (a v : Nat) : (c.rset a v).stage = c.stage := rfl
@[simp] theorem Core.rset_resetReq (c : Core) (a v : Nat) : (c.rset a v).resetReq = c.resetReq := rfl
@[simp] theorem Core.rset_noImage (c : Core) (a v : Nat) : (c.rset a v).noImage = c.noImage := rfl
@[simp] theorem Core.rset_tripWait (c : Core) (a v : Nat) : (c.rset a v).tripWait = c.tripWait := rfl
@[simp] theorem Core.rset_event (c : Core) (a v : Nat) : (c.rset a v).event = c.event := rfl
@[simp] theorem Core.rset_dnValid (c : Core) (a v : Nat) : (c.rset a v).dnValid = c.dnValid := rfl
@[simp] theorem Core.rset_devNum (c : Core) (a v : Nat) : (c.rset a v).devNum = c.devNum := rfl
@[simp] theorem Core.rset_pendMap (c : Core) (a v : Nat) : (c.rset a v).pendMap = c.pendMap := rfl
@[simp] theorem Core.rset_pendJob (c : Core) (a v : Nat) : (c.rset a v).pendJob = c.pendJob := rfl
@[simp] theorem Core.rset_routes (c : Core) (a v : Nat) : (c.rset a v).routes = c.routes := rfl
@[simp] theorem Core.rset_fenced (c : Core) (a v : Nat) : (c.rset a v).fenced = c.fenced := rfl
@[simp] theorem Core.rset_disabled (c : Core) (a v : Nat) : (c.rset a v).disabled = c.disabled := rfl
@[simp] theorem Core.rset_pendSvc (c : Core) (a v : Nat) : (c.rset a v).pendSvc = c.pendSvc := rfl
@[simp] theorem Core.rset_owed (c : Core) (a v : Nat) : (c.rset a v).owed = c.owed := rfl
@[simp] theorem Core.rset_stageFail (c : Core) (a v : Nat) : (c.rset a v).stageFail = c.stageFail := rfl
@[simp] theorem Core.rset_fenceGen (c : Core) (a v : Nat) : (c.rset a v).fenceGen = c.fenceGen := rfl
@[simp] theorem Core.rset_corrs (c : Core) (a v : Nat) : (c.rset a v).corrs = c.corrs := rfl
@[simp] theorem Core.rset_failCnt (c : Core) (a v : Nat) : (c.rset a v).failCnt = c.failCnt := rfl
@[simp] theorem Core.rset_failFlash (c : Core) (a v : Nat) : (c.rset a v).failFlash = c.failFlash := rfl
@[simp] theorem Core.rset_failDirty (c : Core) (a v : Nat) : (c.rset a v).failDirty = c.failDirty := rfl
@[simp] theorem Core.rset_retired (c : Core) (a v : Nat) : (c.rset a v).retired = c.retired := rfl
@[simp] theorem Core.rset_retiredFlash (c : Core) (a v : Nat) : (c.rset a v).retiredFlash = c.retiredFlash := rfl
@[simp] theorem Core.rset_forgotten (c : Core) (a v : Nat) : (c.rset a v).forgotten = c.forgotten := rfl
@[simp] theorem Core.rset_retireWait (c : Core) (a v : Nat) : (c.rset a v).retireWait = c.retireWait := rfl
@[simp] theorem Core.rset_retireMove (c : Core) (a v : Nat) : (c.rset a v).retireMove = c.retireMove := rfl
@[simp] theorem Core.rset_retireCopy (c : Core) (a v : Nat) : (c.rset a v).retireCopy = c.retireCopy := rfl
@[simp] theorem Core.rset_cfg (c : Core) (a v : Nat) : (c.rset a v).cfg = c.cfg := rfl
@[simp] theorem Core.rset_latch (c : Core) (a v : Nat) : (c.rset a v).latch = c.latch := rfl
@[simp] theorem Core.rset_msixPend (c : Core) (a v : Nat) : (c.rset a v).msixPend = c.msixPend := rfl
@[simp] theorem Core.rset_timers (c : Core) (a v : Nat) : (c.rset a v).timers = c.timers := rfl
@[simp] theorem Core.rset_freeCtr (c : Core) (a v : Nat) : (c.rset a v).freeCtr = c.freeCtr := rfl
@[simp] theorem Core.rset_out (c : Core) (a v : Nat) : (c.rset a v).out = c.out := rfl
@[simp] theorem Core.rset_slotMem (c : Core) (a v : Nat) : (c.rset a v).slotMem = c.slotMem := rfl
@[simp] theorem Core.rset_busy (c : Core) (a v : Nat) : (c.rset a v).busy = c.busy := rfl
@[simp] theorem Core.rset_taken (c : Core) (a v : Nat) : (c.rset a v).taken = c.taken := rfl
@[simp] theorem Core.rset_waiting (c : Core) (a v : Nat) : (c.rset a v).waiting = c.waiting := rfl
@[simp] theorem Core.rset_chains (c : Core) (a v : Nat) : (c.rset a v).chains = c.chains := rfl
@[simp] theorem Core.rset_window (c : Core) (a v : Nat) : (c.rset a v).window = c.window := rfl
@[simp] theorem Core.rset_hostMem (c : Core) (a v : Nat) : (c.rset a v).hostMem = c.hostMem := rfl
@[simp] theorem Core.rset_unreach (c : Core) (a v : Nat) : (c.rset a v).unreach = c.unreach := rfl
@[simp] theorem Core.rset_ctxs (c : Core) (a v : Nat) : (c.rset a v).ctxs = c.ctxs := rfl
@[simp] theorem Core.rset_gens (c : Core) (a v : Nat) : (c.rset a v).gens = c.gens := rfl
@[simp] theorem Core.rset_deadIdx (c : Core) (a v : Nat) : (c.rset a v).deadIdx = c.deadIdx := rfl
@[simp] theorem Core.rset_frames (c : Core) (a v : Nat) : (c.rset a v).frames = c.frames := rfl
@[simp] theorem Core.rset_cur (c : Core) (a v : Nat) : (c.rset a v).cur = c.cur := rfl
@[simp] theorem Core.rset_seqPc (c : Core) (a v : Nat) : (c.rset a v).seqPc = c.seqPc := rfl
@[simp] theorem Core.rset_seqErr (c : Core) (a v : Nat) : (c.rset a v).seqErr = c.seqErr := rfl
@[simp] theorem Core.rset_hubSeen (c : Core) (a v : Nat) : (c.rset a v).hubSeen = c.hubSeen := rfl
@[simp] theorem Core.rset_holdUntil (c : Core) (a v : Nat) : (c.rset a v).holdUntil = c.holdUntil := rfl
@[simp] theorem Core.rset_cols (c : Core) (a v : Nat) : (c.rset a v).cols = c.cols := rfl
@[simp] theorem Core.rset_evs (c : Core) (a v : Nat) : (c.rset a v).evs = c.evs := rfl
@[simp] theorem Core.rset_toks (c : Core) (a v : Nat) : (c.rset a v).toks = c.toks := rfl
@[simp] theorem Core.rset_used (c : Core) (a v : Nat) : (c.rset a v).used = c.used := rfl
@[simp] theorem Core.rset_wins (c : Core) (a v : Nat) : (c.rset a v).wins = c.wins := rfl
@[simp] theorem Core.rset_aps (c : Core) (a v : Nat) : (c.rset a v).aps = c.aps := rfl
@[simp] theorem Core.rset_sram (c : Core) (a v : Nat) : (c.rset a v).sram = c.sram := rfl
@[simp] theorem Core.rset_sramEpoch (c : Core) (a v : Nat) : (c.rset a v).sramEpoch = c.sramEpoch := rfl
@[simp] theorem Core.rset_lineCnt (c : Core) (a v : Nat) : (c.rset a v).lineCnt = c.lineCnt := rfl
@[simp] theorem Core.rset_landing (c : Core) (a v : Nat) : (c.rset a v).landing = c.landing := rfl
@[simp] theorem Core.rset_intake (c : Core) (a v : Nat) : (c.rset a v).intake = c.intake := rfl
@[simp] theorem Core.rset_engines (c : Core) (a v : Nat) : (c.rset a v).engines = c.engines := rfl
@[simp] theorem Core.rset_silt (c : Core) (a v : Nat) : (c.rset a v).silt = c.silt := rfl
@[simp] theorem Core.rset_siltSeq (c : Core) (a v : Nat) : (c.rset a v).siltSeq = c.siltSeq := rfl
@[simp] theorem Core.rset_copies (c : Core) (a v : Nat) : (c.rset a v).copies = c.copies := rfl
@[simp] theorem Core.rset_hbm (c : Core) (a v : Nat) : (c.rset a v).hbm = c.hbm := rfl
@[simp] theorem Core.rset_words (c : Core) (a v : Nat) : (c.rset a v).words = c.words := rfl
@[simp] theorem Core.rset_marks (c : Core) (a v : Nat) : (c.rset a v).marks = c.marks := rfl
@[simp] theorem Core.rset_settles (c : Core) (a v : Nat) : (c.rset a v).settles = c.settles := rfl
@[simp] theorem Core.rset_scrub (c : Core) (a v : Nat) : (c.rset a v).scrub = c.scrub := rfl
@[simp] theorem Core.rset_links (c : Core) (a v : Nat) : (c.rset a v).links = c.links := rfl
@[simp] theorem Core.rset_transit (c : Core) (a v : Nat) : (c.rset a v).transit = c.transit := rfl
@[simp] theorem Core.rset_nextTag (c : Core) (a v : Nat) : (c.rset a v).nextTag = c.nextTag := rfl
@[simp] theorem Core.rset_requests (c : Core) (a v : Nat) : (c.rset a v).requests = c.requests := rfl
@[simp] theorem Core.rset_reads (c : Core) (a v : Nat) : (c.rset a v).reads = c.reads := rfl
@[simp] theorem Core.rset_escUs (c : Core) (a v : Nat) : (c.rset a v).escUs = c.escUs := rfl
@[simp] theorem Core.rset_reqUs (c : Core) (a v : Nat) : (c.rset a v).reqUs = c.reqUs := rfl
@[simp] theorem Core.rset_pendLink (c : Core) (a v : Nat) : (c.rset a v).pendLink = c.pendLink := rfl
@[simp] theorem Core.rset_sweeps (c : Core) (a v : Nat) : (c.rset a v).sweeps = c.sweeps := rfl
@[simp] theorem Core.rset_pushTags (c : Core) (a v : Nat) : (c.rset a v).pushTags = c.pushTags := rfl
@[simp] theorem Core.rset_gated (c : Core) (a v : Nat) : (c.rset a v).gated = c.gated := rfl

/-! ### `Core.drawn` -/

@[simp] theorem Core.drawn_devState (c : Core) : (c.drawn).devState = c.devState := rfl
@[simp] theorem Core.drawn_stage (c : Core) : (c.drawn).stage = c.stage := rfl
@[simp] theorem Core.drawn_resetReq (c : Core) : (c.drawn).resetReq = c.resetReq := rfl
@[simp] theorem Core.drawn_noImage (c : Core) : (c.drawn).noImage = c.noImage := rfl
@[simp] theorem Core.drawn_tripWait (c : Core) : (c.drawn).tripWait = c.tripWait := rfl
@[simp] theorem Core.drawn_event (c : Core) : (c.drawn).event = c.event := rfl
@[simp] theorem Core.drawn_dnValid (c : Core) : (c.drawn).dnValid = c.dnValid := rfl
@[simp] theorem Core.drawn_devNum (c : Core) : (c.drawn).devNum = c.devNum := rfl
@[simp] theorem Core.drawn_pendMap (c : Core) : (c.drawn).pendMap = c.pendMap := rfl
@[simp] theorem Core.drawn_pendJob (c : Core) : (c.drawn).pendJob = c.pendJob := rfl
@[simp] theorem Core.drawn_routes (c : Core) : (c.drawn).routes = c.routes := rfl
@[simp] theorem Core.drawn_fenced (c : Core) : (c.drawn).fenced = c.fenced := rfl
@[simp] theorem Core.drawn_disabled (c : Core) : (c.drawn).disabled = c.disabled := rfl
@[simp] theorem Core.drawn_pendSvc (c : Core) : (c.drawn).pendSvc = c.pendSvc := rfl
@[simp] theorem Core.drawn_owed (c : Core) : (c.drawn).owed = c.owed := rfl
@[simp] theorem Core.drawn_stageFail (c : Core) : (c.drawn).stageFail = c.stageFail := rfl
@[simp] theorem Core.drawn_fenceGen (c : Core) : (c.drawn).fenceGen = c.fenceGen := rfl
@[simp] theorem Core.drawn_corrs (c : Core) : (c.drawn).corrs = c.corrs := rfl
@[simp] theorem Core.drawn_failCnt (c : Core) : (c.drawn).failCnt = c.failCnt := rfl
@[simp] theorem Core.drawn_failFlash (c : Core) : (c.drawn).failFlash = c.failFlash := rfl
@[simp] theorem Core.drawn_failDirty (c : Core) : (c.drawn).failDirty = c.failDirty := rfl
@[simp] theorem Core.drawn_retired (c : Core) : (c.drawn).retired = c.retired := rfl
@[simp] theorem Core.drawn_retiredFlash (c : Core) : (c.drawn).retiredFlash = c.retiredFlash := rfl
@[simp] theorem Core.drawn_forgotten (c : Core) : (c.drawn).forgotten = c.forgotten := rfl
@[simp] theorem Core.drawn_retireWait (c : Core) : (c.drawn).retireWait = c.retireWait := rfl
@[simp] theorem Core.drawn_retireMove (c : Core) : (c.drawn).retireMove = c.retireMove := rfl
@[simp] theorem Core.drawn_retireCopy (c : Core) : (c.drawn).retireCopy = c.retireCopy := rfl
@[simp] theorem Core.drawn_cfg (c : Core) : (c.drawn).cfg = c.cfg := rfl
@[simp] theorem Core.drawn_reg (c : Core) : (c.drawn).reg = c.reg := rfl
@[simp] theorem Core.drawn_latch (c : Core) : (c.drawn).latch = c.latch := rfl
@[simp] theorem Core.drawn_msixPend (c : Core) : (c.drawn).msixPend = c.msixPend := rfl
@[simp] theorem Core.drawn_timers (c : Core) : (c.drawn).timers = c.timers := rfl
@[simp] theorem Core.drawn_out (c : Core) : (c.drawn).out = c.out := rfl
@[simp] theorem Core.drawn_slotMem (c : Core) : (c.drawn).slotMem = c.slotMem := rfl
@[simp] theorem Core.drawn_busy (c : Core) : (c.drawn).busy = c.busy := rfl
@[simp] theorem Core.drawn_taken (c : Core) : (c.drawn).taken = c.taken := rfl
@[simp] theorem Core.drawn_waiting (c : Core) : (c.drawn).waiting = c.waiting := rfl
@[simp] theorem Core.drawn_chains (c : Core) : (c.drawn).chains = c.chains := rfl
@[simp] theorem Core.drawn_window (c : Core) : (c.drawn).window = c.window := rfl
@[simp] theorem Core.drawn_hostMem (c : Core) : (c.drawn).hostMem = c.hostMem := rfl
@[simp] theorem Core.drawn_unreach (c : Core) : (c.drawn).unreach = c.unreach := rfl
@[simp] theorem Core.drawn_ctxs (c : Core) : (c.drawn).ctxs = c.ctxs := rfl
@[simp] theorem Core.drawn_gens (c : Core) : (c.drawn).gens = c.gens := rfl
@[simp] theorem Core.drawn_deadIdx (c : Core) : (c.drawn).deadIdx = c.deadIdx := rfl
@[simp] theorem Core.drawn_frames (c : Core) : (c.drawn).frames = c.frames := rfl
@[simp] theorem Core.drawn_cur (c : Core) : (c.drawn).cur = c.cur := rfl
@[simp] theorem Core.drawn_seqPc (c : Core) : (c.drawn).seqPc = c.seqPc := rfl
@[simp] theorem Core.drawn_seqErr (c : Core) : (c.drawn).seqErr = c.seqErr := rfl
@[simp] theorem Core.drawn_hubSeen (c : Core) : (c.drawn).hubSeen = c.hubSeen := rfl
@[simp] theorem Core.drawn_holdUntil (c : Core) : (c.drawn).holdUntil = c.holdUntil := rfl
@[simp] theorem Core.drawn_cols (c : Core) : (c.drawn).cols = c.cols := rfl
@[simp] theorem Core.drawn_evs (c : Core) : (c.drawn).evs = c.evs := rfl
@[simp] theorem Core.drawn_toks (c : Core) : (c.drawn).toks = c.toks := rfl
@[simp] theorem Core.drawn_used (c : Core) : (c.drawn).used = c.used := rfl
@[simp] theorem Core.drawn_wins (c : Core) : (c.drawn).wins = c.wins := rfl
@[simp] theorem Core.drawn_aps (c : Core) : (c.drawn).aps = c.aps := rfl
@[simp] theorem Core.drawn_sram (c : Core) : (c.drawn).sram = c.sram := rfl
@[simp] theorem Core.drawn_sramEpoch (c : Core) : (c.drawn).sramEpoch = c.sramEpoch := rfl
@[simp] theorem Core.drawn_lineCnt (c : Core) : (c.drawn).lineCnt = c.lineCnt := rfl
@[simp] theorem Core.drawn_landing (c : Core) : (c.drawn).landing = c.landing := rfl
@[simp] theorem Core.drawn_intake (c : Core) : (c.drawn).intake = c.intake := rfl
@[simp] theorem Core.drawn_engines (c : Core) : (c.drawn).engines = c.engines := rfl
@[simp] theorem Core.drawn_silt (c : Core) : (c.drawn).silt = c.silt := rfl
@[simp] theorem Core.drawn_siltSeq (c : Core) : (c.drawn).siltSeq = c.siltSeq := rfl
@[simp] theorem Core.drawn_copies (c : Core) : (c.drawn).copies = c.copies := rfl
@[simp] theorem Core.drawn_hbm (c : Core) : (c.drawn).hbm = c.hbm := rfl
@[simp] theorem Core.drawn_words (c : Core) : (c.drawn).words = c.words := rfl
@[simp] theorem Core.drawn_marks (c : Core) : (c.drawn).marks = c.marks := rfl
@[simp] theorem Core.drawn_settles (c : Core) : (c.drawn).settles = c.settles := rfl
@[simp] theorem Core.drawn_scrub (c : Core) : (c.drawn).scrub = c.scrub := rfl
@[simp] theorem Core.drawn_links (c : Core) : (c.drawn).links = c.links := rfl
@[simp] theorem Core.drawn_transit (c : Core) : (c.drawn).transit = c.transit := rfl
@[simp] theorem Core.drawn_nextTag (c : Core) : (c.drawn).nextTag = c.nextTag := rfl
@[simp] theorem Core.drawn_requests (c : Core) : (c.drawn).requests = c.requests := rfl
@[simp] theorem Core.drawn_reads (c : Core) : (c.drawn).reads = c.reads := rfl
@[simp] theorem Core.drawn_escUs (c : Core) : (c.drawn).escUs = c.escUs := rfl
@[simp] theorem Core.drawn_reqUs (c : Core) : (c.drawn).reqUs = c.reqUs := rfl
@[simp] theorem Core.drawn_pendLink (c : Core) : (c.drawn).pendLink = c.pendLink := rfl
@[simp] theorem Core.drawn_sweeps (c : Core) : (c.drawn).sweeps = c.sweeps := rfl
@[simp] theorem Core.drawn_pushTags (c : Core) : (c.drawn).pushTags = c.pushTags := rfl
@[simp] theorem Core.drawn_gated (c : Core) : (c.drawn).gated = c.gated := rfl

/-! ### `Core.dma` -/

@[simp] theorem Core.dma_devState (c : Core) (a : Nat) (b : List Byte) : (c.dma a b).devState = c.devState := rfl
@[simp] theorem Core.dma_stage (c : Core) (a : Nat) (b : List Byte) : (c.dma a b).stage = c.stage := rfl
@[simp] theorem Core.dma_resetReq (c : Core) (a : Nat) (b : List Byte) : (c.dma a b).resetReq = c.resetReq := rfl
@[simp] theorem Core.dma_noImage (c : Core) (a : Nat) (b : List Byte) : (c.dma a b).noImage = c.noImage := rfl
@[simp] theorem Core.dma_tripWait (c : Core) (a : Nat) (b : List Byte) : (c.dma a b).tripWait = c.tripWait := rfl
@[simp] theorem Core.dma_event (c : Core) (a : Nat) (b : List Byte) : (c.dma a b).event = c.event := rfl
@[simp] theorem Core.dma_dnValid (c : Core) (a : Nat) (b : List Byte) : (c.dma a b).dnValid = c.dnValid := rfl
@[simp] theorem Core.dma_devNum (c : Core) (a : Nat) (b : List Byte) : (c.dma a b).devNum = c.devNum := rfl
@[simp] theorem Core.dma_pendMap (c : Core) (a : Nat) (b : List Byte) : (c.dma a b).pendMap = c.pendMap := rfl
@[simp] theorem Core.dma_pendJob (c : Core) (a : Nat) (b : List Byte) : (c.dma a b).pendJob = c.pendJob := rfl
@[simp] theorem Core.dma_routes (c : Core) (a : Nat) (b : List Byte) : (c.dma a b).routes = c.routes := rfl
@[simp] theorem Core.dma_fenced (c : Core) (a : Nat) (b : List Byte) : (c.dma a b).fenced = c.fenced := rfl
@[simp] theorem Core.dma_disabled (c : Core) (a : Nat) (b : List Byte) : (c.dma a b).disabled = c.disabled := rfl
@[simp] theorem Core.dma_pendSvc (c : Core) (a : Nat) (b : List Byte) : (c.dma a b).pendSvc = c.pendSvc := rfl
@[simp] theorem Core.dma_owed (c : Core) (a : Nat) (b : List Byte) : (c.dma a b).owed = c.owed := rfl
@[simp] theorem Core.dma_stageFail (c : Core) (a : Nat) (b : List Byte) : (c.dma a b).stageFail = c.stageFail := rfl
@[simp] theorem Core.dma_fenceGen (c : Core) (a : Nat) (b : List Byte) : (c.dma a b).fenceGen = c.fenceGen := rfl
@[simp] theorem Core.dma_corrs (c : Core) (a : Nat) (b : List Byte) : (c.dma a b).corrs = c.corrs := rfl
@[simp] theorem Core.dma_failCnt (c : Core) (a : Nat) (b : List Byte) : (c.dma a b).failCnt = c.failCnt := rfl
@[simp] theorem Core.dma_failFlash (c : Core) (a : Nat) (b : List Byte) : (c.dma a b).failFlash = c.failFlash := rfl
@[simp] theorem Core.dma_failDirty (c : Core) (a : Nat) (b : List Byte) : (c.dma a b).failDirty = c.failDirty := rfl
@[simp] theorem Core.dma_retired (c : Core) (a : Nat) (b : List Byte) : (c.dma a b).retired = c.retired := rfl
@[simp] theorem Core.dma_retiredFlash (c : Core) (a : Nat) (b : List Byte) : (c.dma a b).retiredFlash = c.retiredFlash := rfl
@[simp] theorem Core.dma_forgotten (c : Core) (a : Nat) (b : List Byte) : (c.dma a b).forgotten = c.forgotten := rfl
@[simp] theorem Core.dma_retireWait (c : Core) (a : Nat) (b : List Byte) : (c.dma a b).retireWait = c.retireWait := rfl
@[simp] theorem Core.dma_retireMove (c : Core) (a : Nat) (b : List Byte) : (c.dma a b).retireMove = c.retireMove := rfl
@[simp] theorem Core.dma_retireCopy (c : Core) (a : Nat) (b : List Byte) : (c.dma a b).retireCopy = c.retireCopy := rfl
@[simp] theorem Core.dma_cfg (c : Core) (a : Nat) (b : List Byte) : (c.dma a b).cfg = c.cfg := rfl
@[simp] theorem Core.dma_reg (c : Core) (a : Nat) (b : List Byte) : (c.dma a b).reg = c.reg := rfl
@[simp] theorem Core.dma_latch (c : Core) (a : Nat) (b : List Byte) : (c.dma a b).latch = c.latch := rfl
@[simp] theorem Core.dma_msixPend (c : Core) (a : Nat) (b : List Byte) : (c.dma a b).msixPend = c.msixPend := rfl
@[simp] theorem Core.dma_timers (c : Core) (a : Nat) (b : List Byte) : (c.dma a b).timers = c.timers := rfl
@[simp] theorem Core.dma_freeCtr (c : Core) (a : Nat) (b : List Byte) : (c.dma a b).freeCtr = c.freeCtr := rfl
@[simp] theorem Core.dma_slotMem (c : Core) (a : Nat) (b : List Byte) : (c.dma a b).slotMem = c.slotMem := rfl
@[simp] theorem Core.dma_busy (c : Core) (a : Nat) (b : List Byte) : (c.dma a b).busy = c.busy := rfl
@[simp] theorem Core.dma_taken (c : Core) (a : Nat) (b : List Byte) : (c.dma a b).taken = c.taken := rfl
@[simp] theorem Core.dma_waiting (c : Core) (a : Nat) (b : List Byte) : (c.dma a b).waiting = c.waiting := rfl
@[simp] theorem Core.dma_chains (c : Core) (a : Nat) (b : List Byte) : (c.dma a b).chains = c.chains := rfl
@[simp] theorem Core.dma_window (c : Core) (a : Nat) (b : List Byte) : (c.dma a b).window = c.window := rfl
@[simp] theorem Core.dma_unreach (c : Core) (a : Nat) (b : List Byte) : (c.dma a b).unreach = c.unreach := rfl
@[simp] theorem Core.dma_ctxs (c : Core) (a : Nat) (b : List Byte) : (c.dma a b).ctxs = c.ctxs := rfl
@[simp] theorem Core.dma_gens (c : Core) (a : Nat) (b : List Byte) : (c.dma a b).gens = c.gens := rfl
@[simp] theorem Core.dma_deadIdx (c : Core) (a : Nat) (b : List Byte) : (c.dma a b).deadIdx = c.deadIdx := rfl
@[simp] theorem Core.dma_frames (c : Core) (a : Nat) (b : List Byte) : (c.dma a b).frames = c.frames := rfl
@[simp] theorem Core.dma_cur (c : Core) (a : Nat) (b : List Byte) : (c.dma a b).cur = c.cur := rfl
@[simp] theorem Core.dma_seqPc (c : Core) (a : Nat) (b : List Byte) : (c.dma a b).seqPc = c.seqPc := rfl
@[simp] theorem Core.dma_seqErr (c : Core) (a : Nat) (b : List Byte) : (c.dma a b).seqErr = c.seqErr := rfl
@[simp] theorem Core.dma_hubSeen (c : Core) (a : Nat) (b : List Byte) : (c.dma a b).hubSeen = c.hubSeen := rfl
@[simp] theorem Core.dma_holdUntil (c : Core) (a : Nat) (b : List Byte) : (c.dma a b).holdUntil = c.holdUntil := rfl
@[simp] theorem Core.dma_cols (c : Core) (a : Nat) (b : List Byte) : (c.dma a b).cols = c.cols := rfl
@[simp] theorem Core.dma_evs (c : Core) (a : Nat) (b : List Byte) : (c.dma a b).evs = c.evs := rfl
@[simp] theorem Core.dma_toks (c : Core) (a : Nat) (b : List Byte) : (c.dma a b).toks = c.toks := rfl
@[simp] theorem Core.dma_used (c : Core) (a : Nat) (b : List Byte) : (c.dma a b).used = c.used := rfl
@[simp] theorem Core.dma_wins (c : Core) (a : Nat) (b : List Byte) : (c.dma a b).wins = c.wins := rfl
@[simp] theorem Core.dma_aps (c : Core) (a : Nat) (b : List Byte) : (c.dma a b).aps = c.aps := rfl
@[simp] theorem Core.dma_sram (c : Core) (a : Nat) (b : List Byte) : (c.dma a b).sram = c.sram := rfl
@[simp] theorem Core.dma_sramEpoch (c : Core) (a : Nat) (b : List Byte) : (c.dma a b).sramEpoch = c.sramEpoch := rfl
@[simp] theorem Core.dma_lineCnt (c : Core) (a : Nat) (b : List Byte) : (c.dma a b).lineCnt = c.lineCnt := rfl
@[simp] theorem Core.dma_landing (c : Core) (a : Nat) (b : List Byte) : (c.dma a b).landing = c.landing := rfl
@[simp] theorem Core.dma_intake (c : Core) (a : Nat) (b : List Byte) : (c.dma a b).intake = c.intake := rfl
@[simp] theorem Core.dma_engines (c : Core) (a : Nat) (b : List Byte) : (c.dma a b).engines = c.engines := rfl
@[simp] theorem Core.dma_silt (c : Core) (a : Nat) (b : List Byte) : (c.dma a b).silt = c.silt := rfl
@[simp] theorem Core.dma_siltSeq (c : Core) (a : Nat) (b : List Byte) : (c.dma a b).siltSeq = c.siltSeq := rfl
@[simp] theorem Core.dma_copies (c : Core) (a : Nat) (b : List Byte) : (c.dma a b).copies = c.copies := rfl
@[simp] theorem Core.dma_hbm (c : Core) (a : Nat) (b : List Byte) : (c.dma a b).hbm = c.hbm := rfl
@[simp] theorem Core.dma_words (c : Core) (a : Nat) (b : List Byte) : (c.dma a b).words = c.words := rfl
@[simp] theorem Core.dma_marks (c : Core) (a : Nat) (b : List Byte) : (c.dma a b).marks = c.marks := rfl
@[simp] theorem Core.dma_settles (c : Core) (a : Nat) (b : List Byte) : (c.dma a b).settles = c.settles := rfl
@[simp] theorem Core.dma_scrub (c : Core) (a : Nat) (b : List Byte) : (c.dma a b).scrub = c.scrub := rfl
@[simp] theorem Core.dma_links (c : Core) (a : Nat) (b : List Byte) : (c.dma a b).links = c.links := rfl
@[simp] theorem Core.dma_transit (c : Core) (a : Nat) (b : List Byte) : (c.dma a b).transit = c.transit := rfl
@[simp] theorem Core.dma_nextTag (c : Core) (a : Nat) (b : List Byte) : (c.dma a b).nextTag = c.nextTag := rfl
@[simp] theorem Core.dma_requests (c : Core) (a : Nat) (b : List Byte) : (c.dma a b).requests = c.requests := rfl
@[simp] theorem Core.dma_reads (c : Core) (a : Nat) (b : List Byte) : (c.dma a b).reads = c.reads := rfl
@[simp] theorem Core.dma_escUs (c : Core) (a : Nat) (b : List Byte) : (c.dma a b).escUs = c.escUs := rfl
@[simp] theorem Core.dma_reqUs (c : Core) (a : Nat) (b : List Byte) : (c.dma a b).reqUs = c.reqUs := rfl
@[simp] theorem Core.dma_pendLink (c : Core) (a : Nat) (b : List Byte) : (c.dma a b).pendLink = c.pendLink := rfl
@[simp] theorem Core.dma_sweeps (c : Core) (a : Nat) (b : List Byte) : (c.dma a b).sweeps = c.sweeps := rfl
@[simp] theorem Core.dma_pushTags (c : Core) (a : Nat) (b : List Byte) : (c.dma a b).pushTags = c.pushTags := rfl
@[simp] theorem Core.dma_gated (c : Core) (a : Nat) (b : List Byte) : (c.dma a b).gated = c.gated := rfl

/-! ### `Core.modCtx` -/

@[simp] theorem Core.modCtx_devState (c : Core) (n : Nat) (f : Ctx → Ctx) : (c.modCtx n f).devState = c.devState := rfl
@[simp] theorem Core.modCtx_stage (c : Core) (n : Nat) (f : Ctx → Ctx) : (c.modCtx n f).stage = c.stage := rfl
@[simp] theorem Core.modCtx_resetReq (c : Core) (n : Nat) (f : Ctx → Ctx) : (c.modCtx n f).resetReq = c.resetReq := rfl
@[simp] theorem Core.modCtx_noImage (c : Core) (n : Nat) (f : Ctx → Ctx) : (c.modCtx n f).noImage = c.noImage := rfl
@[simp] theorem Core.modCtx_tripWait (c : Core) (n : Nat) (f : Ctx → Ctx) : (c.modCtx n f).tripWait = c.tripWait := rfl
@[simp] theorem Core.modCtx_event (c : Core) (n : Nat) (f : Ctx → Ctx) : (c.modCtx n f).event = c.event := rfl
@[simp] theorem Core.modCtx_dnValid (c : Core) (n : Nat) (f : Ctx → Ctx) : (c.modCtx n f).dnValid = c.dnValid := rfl
@[simp] theorem Core.modCtx_devNum (c : Core) (n : Nat) (f : Ctx → Ctx) : (c.modCtx n f).devNum = c.devNum := rfl
@[simp] theorem Core.modCtx_pendMap (c : Core) (n : Nat) (f : Ctx → Ctx) : (c.modCtx n f).pendMap = c.pendMap := rfl
@[simp] theorem Core.modCtx_pendJob (c : Core) (n : Nat) (f : Ctx → Ctx) : (c.modCtx n f).pendJob = c.pendJob := rfl
@[simp] theorem Core.modCtx_routes (c : Core) (n : Nat) (f : Ctx → Ctx) : (c.modCtx n f).routes = c.routes := rfl
@[simp] theorem Core.modCtx_fenced (c : Core) (n : Nat) (f : Ctx → Ctx) : (c.modCtx n f).fenced = c.fenced := rfl
@[simp] theorem Core.modCtx_disabled (c : Core) (n : Nat) (f : Ctx → Ctx) : (c.modCtx n f).disabled = c.disabled := rfl
@[simp] theorem Core.modCtx_pendSvc (c : Core) (n : Nat) (f : Ctx → Ctx) : (c.modCtx n f).pendSvc = c.pendSvc := rfl
@[simp] theorem Core.modCtx_owed (c : Core) (n : Nat) (f : Ctx → Ctx) : (c.modCtx n f).owed = c.owed := rfl
@[simp] theorem Core.modCtx_stageFail (c : Core) (n : Nat) (f : Ctx → Ctx) : (c.modCtx n f).stageFail = c.stageFail := rfl
@[simp] theorem Core.modCtx_fenceGen (c : Core) (n : Nat) (f : Ctx → Ctx) : (c.modCtx n f).fenceGen = c.fenceGen := rfl
@[simp] theorem Core.modCtx_corrs (c : Core) (n : Nat) (f : Ctx → Ctx) : (c.modCtx n f).corrs = c.corrs := rfl
@[simp] theorem Core.modCtx_failCnt (c : Core) (n : Nat) (f : Ctx → Ctx) : (c.modCtx n f).failCnt = c.failCnt := rfl
@[simp] theorem Core.modCtx_failFlash (c : Core) (n : Nat) (f : Ctx → Ctx) : (c.modCtx n f).failFlash = c.failFlash := rfl
@[simp] theorem Core.modCtx_failDirty (c : Core) (n : Nat) (f : Ctx → Ctx) : (c.modCtx n f).failDirty = c.failDirty := rfl
@[simp] theorem Core.modCtx_retired (c : Core) (n : Nat) (f : Ctx → Ctx) : (c.modCtx n f).retired = c.retired := rfl
@[simp] theorem Core.modCtx_retiredFlash (c : Core) (n : Nat) (f : Ctx → Ctx) : (c.modCtx n f).retiredFlash = c.retiredFlash := rfl
@[simp] theorem Core.modCtx_forgotten (c : Core) (n : Nat) (f : Ctx → Ctx) : (c.modCtx n f).forgotten = c.forgotten := rfl
@[simp] theorem Core.modCtx_retireWait (c : Core) (n : Nat) (f : Ctx → Ctx) : (c.modCtx n f).retireWait = c.retireWait := rfl
@[simp] theorem Core.modCtx_retireMove (c : Core) (n : Nat) (f : Ctx → Ctx) : (c.modCtx n f).retireMove = c.retireMove := rfl
@[simp] theorem Core.modCtx_retireCopy (c : Core) (n : Nat) (f : Ctx → Ctx) : (c.modCtx n f).retireCopy = c.retireCopy := rfl
@[simp] theorem Core.modCtx_cfg (c : Core) (n : Nat) (f : Ctx → Ctx) : (c.modCtx n f).cfg = c.cfg := rfl
@[simp] theorem Core.modCtx_reg (c : Core) (n : Nat) (f : Ctx → Ctx) : (c.modCtx n f).reg = c.reg := rfl
@[simp] theorem Core.modCtx_latch (c : Core) (n : Nat) (f : Ctx → Ctx) : (c.modCtx n f).latch = c.latch := rfl
@[simp] theorem Core.modCtx_msixPend (c : Core) (n : Nat) (f : Ctx → Ctx) : (c.modCtx n f).msixPend = c.msixPend := rfl
@[simp] theorem Core.modCtx_timers (c : Core) (n : Nat) (f : Ctx → Ctx) : (c.modCtx n f).timers = c.timers := rfl
@[simp] theorem Core.modCtx_freeCtr (c : Core) (n : Nat) (f : Ctx → Ctx) : (c.modCtx n f).freeCtr = c.freeCtr := rfl
@[simp] theorem Core.modCtx_out (c : Core) (n : Nat) (f : Ctx → Ctx) : (c.modCtx n f).out = c.out := rfl
@[simp] theorem Core.modCtx_slotMem (c : Core) (n : Nat) (f : Ctx → Ctx) : (c.modCtx n f).slotMem = c.slotMem := rfl
@[simp] theorem Core.modCtx_busy (c : Core) (n : Nat) (f : Ctx → Ctx) : (c.modCtx n f).busy = c.busy := rfl
@[simp] theorem Core.modCtx_taken (c : Core) (n : Nat) (f : Ctx → Ctx) : (c.modCtx n f).taken = c.taken := rfl
@[simp] theorem Core.modCtx_waiting (c : Core) (n : Nat) (f : Ctx → Ctx) : (c.modCtx n f).waiting = c.waiting := rfl
@[simp] theorem Core.modCtx_chains (c : Core) (n : Nat) (f : Ctx → Ctx) : (c.modCtx n f).chains = c.chains := rfl
@[simp] theorem Core.modCtx_window (c : Core) (n : Nat) (f : Ctx → Ctx) : (c.modCtx n f).window = c.window := rfl
@[simp] theorem Core.modCtx_hostMem (c : Core) (n : Nat) (f : Ctx → Ctx) : (c.modCtx n f).hostMem = c.hostMem := rfl
@[simp] theorem Core.modCtx_unreach (c : Core) (n : Nat) (f : Ctx → Ctx) : (c.modCtx n f).unreach = c.unreach := rfl
@[simp] theorem Core.modCtx_gens (c : Core) (n : Nat) (f : Ctx → Ctx) : (c.modCtx n f).gens = c.gens := rfl
@[simp] theorem Core.modCtx_deadIdx (c : Core) (n : Nat) (f : Ctx → Ctx) : (c.modCtx n f).deadIdx = c.deadIdx := rfl
@[simp] theorem Core.modCtx_frames (c : Core) (n : Nat) (f : Ctx → Ctx) : (c.modCtx n f).frames = c.frames := rfl
@[simp] theorem Core.modCtx_cur (c : Core) (n : Nat) (f : Ctx → Ctx) : (c.modCtx n f).cur = c.cur := rfl
@[simp] theorem Core.modCtx_seqPc (c : Core) (n : Nat) (f : Ctx → Ctx) : (c.modCtx n f).seqPc = c.seqPc := rfl
@[simp] theorem Core.modCtx_seqErr (c : Core) (n : Nat) (f : Ctx → Ctx) : (c.modCtx n f).seqErr = c.seqErr := rfl
@[simp] theorem Core.modCtx_hubSeen (c : Core) (n : Nat) (f : Ctx → Ctx) : (c.modCtx n f).hubSeen = c.hubSeen := rfl
@[simp] theorem Core.modCtx_holdUntil (c : Core) (n : Nat) (f : Ctx → Ctx) : (c.modCtx n f).holdUntil = c.holdUntil := rfl
@[simp] theorem Core.modCtx_cols (c : Core) (n : Nat) (f : Ctx → Ctx) : (c.modCtx n f).cols = c.cols := rfl
@[simp] theorem Core.modCtx_evs (c : Core) (n : Nat) (f : Ctx → Ctx) : (c.modCtx n f).evs = c.evs := rfl
@[simp] theorem Core.modCtx_toks (c : Core) (n : Nat) (f : Ctx → Ctx) : (c.modCtx n f).toks = c.toks := rfl
@[simp] theorem Core.modCtx_used (c : Core) (n : Nat) (f : Ctx → Ctx) : (c.modCtx n f).used = c.used := rfl
@[simp] theorem Core.modCtx_wins (c : Core) (n : Nat) (f : Ctx → Ctx) : (c.modCtx n f).wins = c.wins := rfl
@[simp] theorem Core.modCtx_aps (c : Core) (n : Nat) (f : Ctx → Ctx) : (c.modCtx n f).aps = c.aps := rfl
@[simp] theorem Core.modCtx_sram (c : Core) (n : Nat) (f : Ctx → Ctx) : (c.modCtx n f).sram = c.sram := rfl
@[simp] theorem Core.modCtx_sramEpoch (c : Core) (n : Nat) (f : Ctx → Ctx) : (c.modCtx n f).sramEpoch = c.sramEpoch := rfl
@[simp] theorem Core.modCtx_lineCnt (c : Core) (n : Nat) (f : Ctx → Ctx) : (c.modCtx n f).lineCnt = c.lineCnt := rfl
@[simp] theorem Core.modCtx_landing (c : Core) (n : Nat) (f : Ctx → Ctx) : (c.modCtx n f).landing = c.landing := rfl
@[simp] theorem Core.modCtx_intake (c : Core) (n : Nat) (f : Ctx → Ctx) : (c.modCtx n f).intake = c.intake := rfl
@[simp] theorem Core.modCtx_engines (c : Core) (n : Nat) (f : Ctx → Ctx) : (c.modCtx n f).engines = c.engines := rfl
@[simp] theorem Core.modCtx_silt (c : Core) (n : Nat) (f : Ctx → Ctx) : (c.modCtx n f).silt = c.silt := rfl
@[simp] theorem Core.modCtx_siltSeq (c : Core) (n : Nat) (f : Ctx → Ctx) : (c.modCtx n f).siltSeq = c.siltSeq := rfl
@[simp] theorem Core.modCtx_copies (c : Core) (n : Nat) (f : Ctx → Ctx) : (c.modCtx n f).copies = c.copies := rfl
@[simp] theorem Core.modCtx_hbm (c : Core) (n : Nat) (f : Ctx → Ctx) : (c.modCtx n f).hbm = c.hbm := rfl
@[simp] theorem Core.modCtx_words (c : Core) (n : Nat) (f : Ctx → Ctx) : (c.modCtx n f).words = c.words := rfl
@[simp] theorem Core.modCtx_marks (c : Core) (n : Nat) (f : Ctx → Ctx) : (c.modCtx n f).marks = c.marks := rfl
@[simp] theorem Core.modCtx_settles (c : Core) (n : Nat) (f : Ctx → Ctx) : (c.modCtx n f).settles = c.settles := rfl
@[simp] theorem Core.modCtx_scrub (c : Core) (n : Nat) (f : Ctx → Ctx) : (c.modCtx n f).scrub = c.scrub := rfl
@[simp] theorem Core.modCtx_links (c : Core) (n : Nat) (f : Ctx → Ctx) : (c.modCtx n f).links = c.links := rfl
@[simp] theorem Core.modCtx_transit (c : Core) (n : Nat) (f : Ctx → Ctx) : (c.modCtx n f).transit = c.transit := rfl
@[simp] theorem Core.modCtx_nextTag (c : Core) (n : Nat) (f : Ctx → Ctx) : (c.modCtx n f).nextTag = c.nextTag := rfl
@[simp] theorem Core.modCtx_requests (c : Core) (n : Nat) (f : Ctx → Ctx) : (c.modCtx n f).requests = c.requests := rfl
@[simp] theorem Core.modCtx_reads (c : Core) (n : Nat) (f : Ctx → Ctx) : (c.modCtx n f).reads = c.reads := rfl
@[simp] theorem Core.modCtx_escUs (c : Core) (n : Nat) (f : Ctx → Ctx) : (c.modCtx n f).escUs = c.escUs := rfl
@[simp] theorem Core.modCtx_reqUs (c : Core) (n : Nat) (f : Ctx → Ctx) : (c.modCtx n f).reqUs = c.reqUs := rfl
@[simp] theorem Core.modCtx_pendLink (c : Core) (n : Nat) (f : Ctx → Ctx) : (c.modCtx n f).pendLink = c.pendLink := rfl
@[simp] theorem Core.modCtx_sweeps (c : Core) (n : Nat) (f : Ctx → Ctx) : (c.modCtx n f).sweeps = c.sweeps := rfl
@[simp] theorem Core.modCtx_pushTags (c : Core) (n : Nat) (f : Ctx → Ctx) : (c.modCtx n f).pushTags = c.pushTags := rfl
@[simp] theorem Core.modCtx_gated (c : Core) (n : Nat) (f : Ctx → Ctx) : (c.modCtx n f).gated = c.gated := rfl

/-! ### `Core.wait` -/

@[simp] theorem Core.wait_devState (c : Core) (p : Packet) (k : WaitKind) : (c.wait p k).devState = c.devState := rfl
@[simp] theorem Core.wait_stage (c : Core) (p : Packet) (k : WaitKind) : (c.wait p k).stage = c.stage := rfl
@[simp] theorem Core.wait_resetReq (c : Core) (p : Packet) (k : WaitKind) : (c.wait p k).resetReq = c.resetReq := rfl
@[simp] theorem Core.wait_noImage (c : Core) (p : Packet) (k : WaitKind) : (c.wait p k).noImage = c.noImage := rfl
@[simp] theorem Core.wait_tripWait (c : Core) (p : Packet) (k : WaitKind) : (c.wait p k).tripWait = c.tripWait := rfl
@[simp] theorem Core.wait_event (c : Core) (p : Packet) (k : WaitKind) : (c.wait p k).event = c.event := rfl
@[simp] theorem Core.wait_dnValid (c : Core) (p : Packet) (k : WaitKind) : (c.wait p k).dnValid = c.dnValid := rfl
@[simp] theorem Core.wait_devNum (c : Core) (p : Packet) (k : WaitKind) : (c.wait p k).devNum = c.devNum := rfl
@[simp] theorem Core.wait_pendMap (c : Core) (p : Packet) (k : WaitKind) : (c.wait p k).pendMap = c.pendMap := rfl
@[simp] theorem Core.wait_pendJob (c : Core) (p : Packet) (k : WaitKind) : (c.wait p k).pendJob = c.pendJob := rfl
@[simp] theorem Core.wait_routes (c : Core) (p : Packet) (k : WaitKind) : (c.wait p k).routes = c.routes := rfl
@[simp] theorem Core.wait_fenced (c : Core) (p : Packet) (k : WaitKind) : (c.wait p k).fenced = c.fenced := rfl
@[simp] theorem Core.wait_disabled (c : Core) (p : Packet) (k : WaitKind) : (c.wait p k).disabled = c.disabled := rfl
@[simp] theorem Core.wait_pendSvc (c : Core) (p : Packet) (k : WaitKind) : (c.wait p k).pendSvc = c.pendSvc := rfl
@[simp] theorem Core.wait_owed (c : Core) (p : Packet) (k : WaitKind) : (c.wait p k).owed = c.owed := rfl
@[simp] theorem Core.wait_stageFail (c : Core) (p : Packet) (k : WaitKind) : (c.wait p k).stageFail = c.stageFail := rfl
@[simp] theorem Core.wait_fenceGen (c : Core) (p : Packet) (k : WaitKind) : (c.wait p k).fenceGen = c.fenceGen := rfl
@[simp] theorem Core.wait_corrs (c : Core) (p : Packet) (k : WaitKind) : (c.wait p k).corrs = c.corrs := rfl
@[simp] theorem Core.wait_failCnt (c : Core) (p : Packet) (k : WaitKind) : (c.wait p k).failCnt = c.failCnt := rfl
@[simp] theorem Core.wait_failFlash (c : Core) (p : Packet) (k : WaitKind) : (c.wait p k).failFlash = c.failFlash := rfl
@[simp] theorem Core.wait_failDirty (c : Core) (p : Packet) (k : WaitKind) : (c.wait p k).failDirty = c.failDirty := rfl
@[simp] theorem Core.wait_retired (c : Core) (p : Packet) (k : WaitKind) : (c.wait p k).retired = c.retired := rfl
@[simp] theorem Core.wait_retiredFlash (c : Core) (p : Packet) (k : WaitKind) : (c.wait p k).retiredFlash = c.retiredFlash := rfl
@[simp] theorem Core.wait_forgotten (c : Core) (p : Packet) (k : WaitKind) : (c.wait p k).forgotten = c.forgotten := rfl
@[simp] theorem Core.wait_retireWait (c : Core) (p : Packet) (k : WaitKind) : (c.wait p k).retireWait = c.retireWait := rfl
@[simp] theorem Core.wait_retireMove (c : Core) (p : Packet) (k : WaitKind) : (c.wait p k).retireMove = c.retireMove := rfl
@[simp] theorem Core.wait_retireCopy (c : Core) (p : Packet) (k : WaitKind) : (c.wait p k).retireCopy = c.retireCopy := rfl
@[simp] theorem Core.wait_cfg (c : Core) (p : Packet) (k : WaitKind) : (c.wait p k).cfg = c.cfg := rfl
@[simp] theorem Core.wait_reg (c : Core) (p : Packet) (k : WaitKind) : (c.wait p k).reg = c.reg := rfl
@[simp] theorem Core.wait_latch (c : Core) (p : Packet) (k : WaitKind) : (c.wait p k).latch = c.latch := rfl
@[simp] theorem Core.wait_msixPend (c : Core) (p : Packet) (k : WaitKind) : (c.wait p k).msixPend = c.msixPend := rfl
@[simp] theorem Core.wait_timers (c : Core) (p : Packet) (k : WaitKind) : (c.wait p k).timers = c.timers := rfl
@[simp] theorem Core.wait_freeCtr (c : Core) (p : Packet) (k : WaitKind) : (c.wait p k).freeCtr = c.freeCtr := rfl
@[simp] theorem Core.wait_out (c : Core) (p : Packet) (k : WaitKind) : (c.wait p k).out = c.out := rfl
@[simp] theorem Core.wait_slotMem (c : Core) (p : Packet) (k : WaitKind) : (c.wait p k).slotMem = c.slotMem := rfl
@[simp] theorem Core.wait_busy (c : Core) (p : Packet) (k : WaitKind) : (c.wait p k).busy = c.busy := rfl
@[simp] theorem Core.wait_taken (c : Core) (p : Packet) (k : WaitKind) : (c.wait p k).taken = c.taken := rfl
@[simp] theorem Core.wait_chains (c : Core) (p : Packet) (k : WaitKind) : (c.wait p k).chains = c.chains := rfl
@[simp] theorem Core.wait_window (c : Core) (p : Packet) (k : WaitKind) : (c.wait p k).window = c.window := rfl
@[simp] theorem Core.wait_hostMem (c : Core) (p : Packet) (k : WaitKind) : (c.wait p k).hostMem = c.hostMem := rfl
@[simp] theorem Core.wait_unreach (c : Core) (p : Packet) (k : WaitKind) : (c.wait p k).unreach = c.unreach := rfl
@[simp] theorem Core.wait_ctxs (c : Core) (p : Packet) (k : WaitKind) : (c.wait p k).ctxs = c.ctxs := rfl
@[simp] theorem Core.wait_gens (c : Core) (p : Packet) (k : WaitKind) : (c.wait p k).gens = c.gens := rfl
@[simp] theorem Core.wait_deadIdx (c : Core) (p : Packet) (k : WaitKind) : (c.wait p k).deadIdx = c.deadIdx := rfl
@[simp] theorem Core.wait_frames (c : Core) (p : Packet) (k : WaitKind) : (c.wait p k).frames = c.frames := rfl
@[simp] theorem Core.wait_cur (c : Core) (p : Packet) (k : WaitKind) : (c.wait p k).cur = c.cur := rfl
@[simp] theorem Core.wait_seqPc (c : Core) (p : Packet) (k : WaitKind) : (c.wait p k).seqPc = c.seqPc := rfl
@[simp] theorem Core.wait_seqErr (c : Core) (p : Packet) (k : WaitKind) : (c.wait p k).seqErr = c.seqErr := rfl
@[simp] theorem Core.wait_hubSeen (c : Core) (p : Packet) (k : WaitKind) : (c.wait p k).hubSeen = c.hubSeen := rfl
@[simp] theorem Core.wait_holdUntil (c : Core) (p : Packet) (k : WaitKind) : (c.wait p k).holdUntil = c.holdUntil := rfl
@[simp] theorem Core.wait_cols (c : Core) (p : Packet) (k : WaitKind) : (c.wait p k).cols = c.cols := rfl
@[simp] theorem Core.wait_evs (c : Core) (p : Packet) (k : WaitKind) : (c.wait p k).evs = c.evs := rfl
@[simp] theorem Core.wait_toks (c : Core) (p : Packet) (k : WaitKind) : (c.wait p k).toks = c.toks := rfl
@[simp] theorem Core.wait_used (c : Core) (p : Packet) (k : WaitKind) : (c.wait p k).used = c.used := rfl
@[simp] theorem Core.wait_wins (c : Core) (p : Packet) (k : WaitKind) : (c.wait p k).wins = c.wins := rfl
@[simp] theorem Core.wait_aps (c : Core) (p : Packet) (k : WaitKind) : (c.wait p k).aps = c.aps := rfl
@[simp] theorem Core.wait_sram (c : Core) (p : Packet) (k : WaitKind) : (c.wait p k).sram = c.sram := rfl
@[simp] theorem Core.wait_sramEpoch (c : Core) (p : Packet) (k : WaitKind) : (c.wait p k).sramEpoch = c.sramEpoch := rfl
@[simp] theorem Core.wait_lineCnt (c : Core) (p : Packet) (k : WaitKind) : (c.wait p k).lineCnt = c.lineCnt := rfl
@[simp] theorem Core.wait_landing (c : Core) (p : Packet) (k : WaitKind) : (c.wait p k).landing = c.landing := rfl
@[simp] theorem Core.wait_intake (c : Core) (p : Packet) (k : WaitKind) : (c.wait p k).intake = c.intake := rfl
@[simp] theorem Core.wait_engines (c : Core) (p : Packet) (k : WaitKind) : (c.wait p k).engines = c.engines := rfl
@[simp] theorem Core.wait_silt (c : Core) (p : Packet) (k : WaitKind) : (c.wait p k).silt = c.silt := rfl
@[simp] theorem Core.wait_siltSeq (c : Core) (p : Packet) (k : WaitKind) : (c.wait p k).siltSeq = c.siltSeq := rfl
@[simp] theorem Core.wait_copies (c : Core) (p : Packet) (k : WaitKind) : (c.wait p k).copies = c.copies := rfl
@[simp] theorem Core.wait_hbm (c : Core) (p : Packet) (k : WaitKind) : (c.wait p k).hbm = c.hbm := rfl
@[simp] theorem Core.wait_words (c : Core) (p : Packet) (k : WaitKind) : (c.wait p k).words = c.words := rfl
@[simp] theorem Core.wait_marks (c : Core) (p : Packet) (k : WaitKind) : (c.wait p k).marks = c.marks := rfl
@[simp] theorem Core.wait_settles (c : Core) (p : Packet) (k : WaitKind) : (c.wait p k).settles = c.settles := rfl
@[simp] theorem Core.wait_scrub (c : Core) (p : Packet) (k : WaitKind) : (c.wait p k).scrub = c.scrub := rfl
@[simp] theorem Core.wait_links (c : Core) (p : Packet) (k : WaitKind) : (c.wait p k).links = c.links := rfl
@[simp] theorem Core.wait_transit (c : Core) (p : Packet) (k : WaitKind) : (c.wait p k).transit = c.transit := rfl
@[simp] theorem Core.wait_nextTag (c : Core) (p : Packet) (k : WaitKind) : (c.wait p k).nextTag = c.nextTag := rfl
@[simp] theorem Core.wait_requests (c : Core) (p : Packet) (k : WaitKind) : (c.wait p k).requests = c.requests := rfl
@[simp] theorem Core.wait_reads (c : Core) (p : Packet) (k : WaitKind) : (c.wait p k).reads = c.reads := rfl
@[simp] theorem Core.wait_escUs (c : Core) (p : Packet) (k : WaitKind) : (c.wait p k).escUs = c.escUs := rfl
@[simp] theorem Core.wait_reqUs (c : Core) (p : Packet) (k : WaitKind) : (c.wait p k).reqUs = c.reqUs := rfl
@[simp] theorem Core.wait_pendLink (c : Core) (p : Packet) (k : WaitKind) : (c.wait p k).pendLink = c.pendLink := rfl
@[simp] theorem Core.wait_sweeps (c : Core) (p : Packet) (k : WaitKind) : (c.wait p k).sweeps = c.sweeps := rfl
@[simp] theorem Core.wait_pushTags (c : Core) (p : Packet) (k : WaitKind) : (c.wait p k).pushTags = c.pushTags := rfl
@[simp] theorem Core.wait_gated (c : Core) (p : Packet) (k : WaitKind) : (c.wait p k).gated = c.gated := rfl

end Sys2Proof.Machine
end

