-- ==== Sys2Proof/Laws/Tables.lean ====
section
/-!
SUPPORT. The laws of tables and memories: what a read gives after a write, and that every memory operation keeps the canonical form.
-/
namespace Sys2Proof.Machine
open Sys2Proof

section
variable {κ α : Type} [DecidableEq κ]

theorem kget_kset_self (m : KMap κ α) (k : κ) (v : α) : kget (kset m k v) k = some v := by
  induction m with
  | nil => simp [kset, kget]
  | cons e r ih =>
    obtain ⟨k', v'⟩ := e
    by_cases h : k' = k <;> simp [kset, kget, h, ih]

theorem kget_kset_ne (m : KMap κ α) {k k' : κ} (v : α) (h : k' ≠ k) : kget (kset m k v) k' = kget m k' := by
  induction m with
  | nil => simp [kset, kget, Ne.symm h]
  | cons e r ih =>
    obtain ⟨j, w⟩ := e
    by_cases hj : j = k
    · subst hj; simp [kset, kget, Ne.symm h]
    · by_cases hk : j = k'
      · subst hk; simp [kset, kget, hj]
      · simp [kset, kget, hj, hk, ih]

@[simp] theorem kgetD_kset_self (m : KMap κ α) (k : κ) (v d : α) : kgetD (kset m k v) k d = v := by
  simp [kgetD, kget_kset_self]

theorem kgetD_kset_ne (m : KMap κ α) {k k' : κ} (v d : α) (h : k' ≠ k) : kgetD (kset m k v) k' d = kgetD m k' d := by
  simp [kgetD, kget_kset_ne m v h]

theorem kget_kdel_self (m : KMap κ α) (k : κ) : kget (kdel m k) k = none := by
  induction m with
  | nil => rfl
  | cons e r ih =>
    obtain ⟨j, w⟩ := e
    have e1 : kdel ((j, w) :: r) k = if j = k then kdel r k else (j, w) :: kdel r k := by
      by_cases h : j = k <;> simp [kdel, h]
    rw [e1]
    by_cases h : j = k
    · simpa [h] using ih
    · simp [h, kget, ih]

theorem kget_kdel_ne (m : KMap κ α) {k k' : κ} (h : k' ≠ k) : kget (kdel m k) k' = kget m k' := by
  induction m with
  | nil => rfl
  | cons e r ih =>
    obtain ⟨j, w⟩ := e
    have e1 : kdel ((j, w) :: r) k = if j = k then kdel r k else (j, w) :: kdel r k := by
      by_cases h : j = k <;> simp [kdel, h]
    rw [e1]
    by_cases hj : j = k
    · subst hj; simp [kget, Ne.symm h, ih]
    · by_cases hk : j = k'
      · subst hk; simp [kget, hj]
      · simp [kget, hj, hk, ih]

theorem kget_kmod_self (m : KMap κ α) (k : κ) (f : α → α) : kget (kmod m k f) k = (kget m k).map f := by
  unfold kmod
  cases h : kget m k with
  | none => simp [h]
  | some v => simp [kget_kset_self]

theorem kget_kmod_ne (m : KMap κ α) {k k' : κ} (f : α → α) (h : k' ≠ k) : kget (kmod m k f) k' = kget m k' := by
  unfold kmod
  cases kget m k with
  | none => rfl
  | some v => exact kget_kset_ne m _ h

end

/-! ### Reads after writes -/

theorem mget_mput_self (m : Mem) (a : Nat) (b : Byte) : mget (mput m a b) a = some b := by
  induction m with
  | nil => simp [mput, mget, kget]
  | cons e r ih =>
    obtain ⟨j, w⟩ := e
    by_cases h1 : a < j
    · simp [mput, h1, mget, kget]
    · by_cases h2 : a = j
      · simp [mput, h2, mget, kget]
      · simp only [mget] at ih
        simp [mput, h1, h2, mget, kget, Ne.symm h2, ih]

theorem mget_mput_ne (m : Mem) {a a' : Nat} (b : Byte) (h : a' ≠ a) : mget (mput m a b) a' = mget m a' := by
  induction m with
  | nil => simp [mput, mget, kget, Ne.symm h]
  | cons e r ih =>
    obtain ⟨j, w⟩ := e
    simp only [mget] at ih
    by_cases h1 : a < j
    · simp [mput, h1, mget, kget, Ne.symm h]
    · by_cases h2 : a = j
      · subst h2; simp [mput, mget, kget, Ne.symm h]
      · by_cases h3 : j = a'
        · subst h3; simp [mput, h1, h2, mget, kget]
        · simp [mput, h1, h2, mget, kget, h3, ih]

theorem mget_mdel_self (m : Mem) (a : Nat) : mget (mdel m a) a = none := kget_kdel_self m a

theorem mget_mdel_ne (m : Mem) {a a' : Nat} (h : a' ≠ a) : mget (mdel m a) a' = mget m a' := kget_kdel_ne m h

/-- A byte of a zero-reading memory. -/
theorem mgetZ_mputZ (m : Mem) (a a' : Nat) (b : Byte) :
    (mget (mputZ m a b) a').getD 0 = if a' = a then b else (mget m a').getD 0 := by
  by_cases hb : b = 0
  · have e : mputZ m a b = mdel m a := if_pos hb
    rw [e]
    by_cases h : a' = a
    · subst h; simp [hb, mget_mdel_self]
    · simp [h, mget_mdel_ne m h]
  · have e : mputZ m a b = mput m a b := if_neg hb
    rw [e]
    by_cases h : a' = a
    · subst h; simp [mget_mput_self]
    · simp [h, mget_mput_ne m b h]

/-- Bytes of a zero-reading memory after a stretch is written. -/
theorem mgetZ_mputsZ (l : List Byte) : ∀ (m : Mem) (a a' : Nat),
    (mget (mputsZ m a l) a').getD 0 = if a ≤ a' ∧ a' < a + l.length then l.getD (a' - a) 0 else (mget m a').getD 0 := by
  induction l with
  | nil => intro m a a'; have : ¬ (a ≤ a' ∧ a' < a) := by omega
           simp [mputsZ, this]
  | cons b r ih =>
    intro m a a'
    rw [mputsZ, ih, mgetZ_mputZ]
    by_cases h1 : a + 1 ≤ a' ∧ a' < a + 1 + r.length
    · have h2 : a ≤ a' ∧ a' < a + (b :: r).length := by simp; omega
      have h3 : a' - a = (a' - (a + 1)) + 1 := by omega
      rw [if_pos h1, if_pos h2, h3]; simp
    · by_cases h4 : a' = a
      · subst h4
        have h5 : ¬ (a' + 1 ≤ a') := by omega
        simp [h5]
      · have h2 : ¬ (a ≤ a' ∧ a' < a + (b :: r).length) := by simp; omega
        rw [if_neg h1, if_neg h2, if_neg h4]

/-! ### The canonical form -/

theorem Mem.wf_tail {e : Nat × Byte} {r : Mem} (h : Mem.wf (e :: r) = true) : Mem.wf r = true := by
  cases r with
  | nil => rfl
  | cons f t => simp [Mem.wf] at h; exact h.2

theorem Mem.wf_cons {e : Nat × Byte} {r : Mem} : Mem.wf (e :: r) = true ↔ (∀ f ∈ r, e.1 < f.1) ∧ Mem.wf r = true := by
  induction r generalizing e with
  | nil => simp [Mem.wf]
  | cons f t ih =>
    constructor
    · intro h
      have ht := Mem.wf_tail h
      simp [Mem.wf] at h
      refine ⟨?_, ht⟩
      intro g hg
      cases hg with
      | head => exact h.1
      | tail _ hg => exact Nat.lt_trans h.1 ((ih.mp ht).1 g hg)
    · intro h
      simp [Mem.wf, h.2, h.1 f (by simp)]

theorem mem_mput {m : Mem} {a : Nat} {b : Byte} {f : Nat × Byte} (h : f ∈ mput m a b) : f = (a, b) ∨ f ∈ m := by
  induction m with
  | nil => simpa [mput] using h
  | cons e r ih =>
    obtain ⟨j, w⟩ := e
    unfold mput at h
    split at h
    · simpa using h
    · split at h
      · rename_i h2; simp at h; rcases h with h | h
        · exact .inl h
        · exact .inr (by simp [h])
      · simp at h; rcases h with h | h
        · exact .inr (by simp [h])
        · rcases ih h with h | h
          · exact .inl h
          · exact .inr (by simp [h])

theorem mput_wf (m : Mem) (a : Nat) (b : Byte) (h : Mem.wf m = true) : Mem.wf (mput m a b) = true := by
  induction m with
  | nil => rfl
  | cons e r ih =>
    obtain ⟨j, w⟩ := e
    have hc := Mem.wf_cons.mp h
    unfold mput
    split
    · rename_i hlt
      refine Mem.wf_cons.mpr ⟨?_, h⟩
      intro f hf
      simp at hf
      rcases hf with rfl | hf
      · exact hlt
      · exact Nat.lt_trans hlt (hc.1 f hf)
    · rename_i hle
      split
      · rename_i heq; subst heq; exact Mem.wf_cons.mpr hc
      · rename_i hne
        refine Mem.wf_cons.mpr ⟨?_, ih hc.2⟩
        intro f hf
        rcases mem_mput hf with rfl | hf
        · simp; omega
        · exact hc.1 f hf

theorem filter_wf (m : Mem) (p : Nat × Byte → Bool) (h : Mem.wf m = true) : Mem.wf (m.filter p) = true := by
  induction m with
  | nil => rfl
  | cons e r ih =>
    have hc := Mem.wf_cons.mp h
    by_cases hp : p e = true
    · rw [List.filter_cons_of_pos hp]
      exact Mem.wf_cons.mpr ⟨fun f hf => hc.1 f (List.mem_filter.mp hf).1, ih hc.2⟩
    · rw [List.filter_cons_of_neg hp]; exact ih hc.2

theorem mputs_wf (l : List Byte) : ∀ (m : Mem) (a : Nat), Mem.wf m = true → Mem.wf (mputs m a l) = true := by
  induction l with
  | nil => intro m a h; exact h
  | cons b r ih => intro m a h; exact ih _ _ (mput_wf m a b h)

theorem mputZ_wfZ (m : Mem) (a : Nat) (b : Byte) (h : Mem.wfZ m = true) : Mem.wfZ (mputZ m a b) = true := by
  simp only [Mem.wfZ, Bool.and_eq_true, List.all_eq_true, decide_eq_true_eq] at h ⊢
  unfold mputZ
  split
  · exact ⟨filter_wf m _ h.1, fun f hf => h.2 f (List.mem_filter.mp hf).1⟩
  · rename_i hb
    refine ⟨mput_wf m a b h.1, fun f hf => ?_⟩
    rcases mem_mput hf with rfl | hf
    · exact hb
    · exact h.2 f hf

theorem mputsZ_wfZ (l : List Byte) : ∀ (m : Mem) (a : Nat), Mem.wfZ m = true → Mem.wfZ (mputsZ m a l) = true := by
  induction l with
  | nil => intro m a h; exact h
  | cons b r ih => intro m a h; exact ih _ _ (mputZ_wfZ m a b h)

theorem mclear_wfZ (m : Mem) (lo len : Nat) (h : Mem.wfZ m = true) : Mem.wfZ (mclear m lo len) = true := by
  simp only [Mem.wfZ, Bool.and_eq_true, List.all_eq_true, decide_eq_true_eq] at h ⊢
  exact ⟨filter_wf m _ h.1, fun f hf => h.2 f (List.mem_filter.mp hf).1⟩

/-! ### Byte order -/

@[simp] theorem leBytes_length (n len : Nat) : (leBytes n len).length = len := by
  induction len generalizing n with
  | zero => rfl
  | succ k ih => simp [leBytes, ih]

theorem ofLe_leBytes (len : Nat) : ∀ n, ofLe (leBytes n len) = n % 256 ^ len := by
  induction len with
  | zero => intro n; simp [leBytes, ofLe]; omega
  | succ k ih =>
    intro n
    have e : 256 ^ (k + 1) = 256 * 256 ^ k := by rw [Nat.pow_succ]; exact Nat.mul_comm _ _
    have h1 := Nat.mod_mul (x := n) (a := 256) (b := 256 ^ k)
    rw [leBytes, ofLe, ih, e, h1]
    simp [BitVec.toNat_ofNat]

end Sys2Proof.Machine
end

