-- ==== Sys2Proof/Laws/Ops.lean ====
section
/-!
SUPPORT. For each shared operation one lemma that says everything it can do: how a meaning is run, how a command begins, what a
reply, an interrupt, a count and an error may change, and that the register map is inverted by the block bases.
-/
namespace Sys2Proof.Machine
open Sys2Proof

/-! ### Running a meaning -/

theorem State.onCore_eq (s : State) (f : Dev → Core) : s.onCore f = .next { s with dev := { s.dev with c := f s.dev } } := rfl

theorem State.onDev_eq (s : State) (f : Dev → Dev) : s.onDev f = .next { s with dev := f s.dev } := rfl

theorem State.guard_true (s : State) {ok : Bool} (f : Dev → Core) (h : ok = true) : s.guard ok f = s.onCore f := by
  simp [State.guard, h]

theorem State.guard_false (s : State) {ok : Bool} (f : Dev → Core) (h : ok = false) : s.guard ok f = .fault .noSuchUnit := by
  simp [State.guard, h]

theorem State.guardDev_true (s : State) {ok : Bool} (f : Dev → Dev) (h : ok = true) : s.guardDev ok f = s.onDev f := by
  simp [State.guardDev, h]

/-- Whatever a guarded meaning of the core answers next, only the core may differ. -/
theorem State.guard_next {s t : State} {ok : Bool} {f : Dev → Core} (h : s.guard ok f = .next t) :
    t = { s with dev := { s.dev with c := f s.dev } } := by
  unfold State.guard at h
  split at h
  · exact (Host.Outcome.next.inj h).symm
  · cases h

theorem State.guardDev_next {s t : State} {ok : Bool} {f : Dev → Dev} (h : s.guardDev ok f = .next t) :
    t = { s with dev := f s.dev } := by
  unfold State.guardDev at h
  split at h
  · exact (Host.Outcome.next.inj h).symm
  · cases h

/-! ### Beginning a command (R410, R414) -/

/-- A command that is due acts on the core without its packet. -/
theorem Dev.begin_due {d : Dev} {k : Cmd} {p : Packet} (h : d.c.due k p) : d.begin k p = .go (d.c.begun p) := by
  obtain ⟨-, hm, hb, hc⟩ := h
  simp [Dev.begin, hm, hb, hc, Core.begun]

theorem hostCmd_due {k : Cmd} {p : Packet} {s : State} (body : Dev → Core) (h : s.dev.c.due k p) :
    hostCmd k p s body = .next { s with dev := { s.dev with c := body { s.dev with c := s.dev.c.begun p } } } := by
  have hb := Dev.begin_due h
  simp [hostCmd, h.1, State.onCore, hb]

theorem hostCmdDev_due {k : Cmd} {p : Packet} {s : State} (body : Dev → Dev) (h : s.dev.c.due k p) :
    hostCmdDev k p s body = .next { s with dev := body { s.dev with c := s.dev.c.begun p } } := by
  have hb := Dev.begin_due h
  simp [hostCmdDev, h.1, State.onDev, hb]

/-- A command that begins, whether its packet was taken before or arrives now, acts on the core it begins with. -/
theorem Dev.begin_begins {d : Dev} {k : Cmd} {p : Packet} {c : Core} (h : d.begins k p c) :
    p.opcode.toNat = k.op ∧ d.begin k p = .go c := by
  rcases h with ⟨hd, rfl⟩ | ⟨ho, ht, hp, hs, hi, hb, hc, rfl⟩
  · exact ⟨hd.1, Dev.begin_due hd⟩
  · refine ⟨ho, ?_⟩
    simpa [Dev.begin, ht, hp, Nat.not_le.mpr hi, hb, hc] using hs

theorem hostCmd_begins {k : Cmd} {p : Packet} {s : State} {c : Core} (body : Dev → Core) (h : s.dev.begins k p c) :
    hostCmd k p s body = .next (s.setC (body (s.dev.setC c))) := by
  obtain ⟨ho, hb⟩ := Dev.begin_begins h
  simp [hostCmd, ho, State.onCore, hb, State.setC, Dev.setC]

theorem hostCmdDev_begins {k : Cmd} {p : Packet} {s : State} {c : Core} (body : Dev → Dev) (h : s.dev.begins k p c) :
    hostCmdDev k p s body = .next (s.setD (body (s.dev.setC c))) := by
  obtain ⟨ho, hb⟩ := Dev.begin_begins h
  simp [hostCmdDev, ho, State.onDev, hb, State.setD, Dev.setC]

/-- A host-command row under its own opcode answers a next state in which only the core may differ. -/
theorem hostCmd_next {k : Cmd} {p : Packet} {s : State} (body : Dev → Core) (h : p.opcode.toNat = k.op) :
    ∃ c, hostCmd k p s body = .next { s with dev := { s.dev with c := c } } := by
  unfold hostCmd
  rw [if_pos h]
  exact ⟨_, rfl⟩

theorem hostCmdDev_next {k : Cmd} {p : Packet} {s : State} (body : Dev → Dev) (h : p.opcode.toNat = k.op) :
    ∃ d, hostCmdDev k p s body = .next { s with dev := d } := by
  unfold hostCmdDev
  rw [if_pos h]
  exact ⟨_, rfl⟩

/-! ### Interrupts and replies -/

/-- An MSI-X message is sent or left pending. -/
theorem Core.msix_eq (c : Core) (v : Nat) : ∃ pe ou, c.msix v = { c with msixPend := pe, out := ou } := by
  unfold Core.msix
  split
  · exact ⟨_, c.out, rfl⟩
  · exact ⟨c.msixPend, _, rfl⟩

/-- A DEV_EVENT bit is set, and vector 0 sent if it was clear. -/
theorem Core.devEvent_eq (c : Core) (i : Nat) : ∃ ev pe ou, c.devEvent i = { c with event := ev, msixPend := pe, out := ou } := by
  unfold Core.devEvent
  split
  · exact ⟨c.event, c.msixPend, c.out, rfl⟩
  · obtain ⟨pe, ou, h⟩ := Core.msix_eq { c with event := c.event ||| (1#32 <<< i) } 0
    exact ⟨_, pe, ou, h⟩

/-- What a reply may change: events and interrupts, host memory, and the slot it frees. -/
theorem Core.writeReply_eq (c : Core) (p : Packet) (r : List Byte) :
    ∃ ev pe ou hm bu, c.writeReply p r = { c with event := ev, msixPend := pe, out := ou, hostMem := hm, busy := bu } := by
  have key : ∀ c1 : Core, (∃ ev pe ou hm bu, c1 = { c with event := ev, msixPend := pe, out := ou, hostMem := hm, busy := bu }) →
      ∃ ev pe ou hm bu, (if p.wantsVec = true ∧ 1 ≤ p.vec.toNat ∧ p.vec.toNat ≤ 15 then c1.msix p.vec.toNat else c1) =
        { c with event := ev, msixPend := pe, out := ou, hostMem := hm, busy := bu } := by
    rintro c1 ⟨ev, pe, ou, hm, bu, rfl⟩
    split
    · obtain ⟨pe', ou', h⟩ := Core.msix_eq { c with event := ev, msixPend := pe, out := ou, hostMem := hm, busy := bu } p.vec.toNat
      exact ⟨ev, pe', ou', hm, bu, h⟩
    · exact ⟨ev, pe, ou, hm, bu, rfl⟩
  unfold Core.writeReply
  apply key
  split
  · exact ⟨c.event, c.msixPend, c.out, c.hostMem, c.busy, rfl⟩
  · split
    · obtain ⟨ev, pe, ou, h⟩ := Core.devEvent_eq c 8
      exact ⟨ev, pe, ou, c.hostMem, c.busy, h⟩
    · split
      · unfold Core.freeSlot
        split
        · exact ⟨c.event, c.msixPend, _, _, _, rfl⟩
        · exact ⟨c.event, c.msixPend, _, _, c.busy, rfl⟩
      · obtain ⟨ev, pe, ou, h⟩ := Core.devEvent_eq c 8
        exact ⟨ev, pe, ou, c.hostMem, c.busy, h⟩

/-- What the completion of a command may change: the above, and the fetches whose replies are held. -/
theorem Core.finishI_eq (c : Core) (p : Packet) (st info : Nat) (vals : List Nat) :
    ∃ ev pe ou hm bu ch, c.finishI p st info vals =
      { c with event := ev, msixPend := pe, out := ou, hostMem := hm, busy := bu, chains := ch } := by
  unfold Core.finishI
  split
  · split
    · rename_i i _ _
      obtain ⟨ev, pe, ou, hm, bu, h⟩ := Core.writeReply_eq { c with chains := dropAt c.chains i } p
        (replyRecord p st info vals true (c.now 0))
      exact ⟨ev, pe, ou, hm, bu, _, h⟩
    · exact ⟨c.event, c.msixPend, c.out, c.hostMem, c.busy, _, rfl⟩
  · split
    · obtain ⟨ev, pe, ou, h1⟩ := Core.devEvent_eq c 2
      rw [h1]
      obtain ⟨ev', pe', ou', hm, bu, h⟩ := Core.writeReply_eq { c with event := ev, msixPend := pe, out := ou } p
        (replyRecord p st info vals p.badNext (c.now 0))
      exact ⟨ev', pe', ou', hm, bu, c.chains, h⟩
    · obtain ⟨ev, pe, ou, hm, bu, h⟩ := Core.writeReply_eq c p (replyRecord p st info vals p.badNext (c.now 0))
      exact ⟨ev, pe, ou, hm, bu, c.chains, h⟩

theorem Core.finish_eq (c : Core) (p : Packet) (st : Nat) (vals : List Nat) :
    ∃ ev pe ou hm bu ch, c.finish p st vals =
      { c with event := ev, msixPend := pe, out := ou, hostMem := hm, busy := bu, chains := ch } := Core.finishI_eq c p st 0 vals

/-! ### Counts and errors -/

@[simp] theorem Core.rget_rset_self (c : Core) (a v : Nat) : (c.rset a v).rget a = v := by simp [Core.rget]

theorem Core.rget_rset_ne (c : Core) {a b : Nat} (v : Nat) (h : b ≠ a) : (c.rset a v).rget b = c.rget b := by
  simp [Core.rget, kgetD_kset_ne _ _ _ h]

/-- A count changes its register only. -/
theorem Core.bump_eq (c : Core) (a w n : Nat) : ∃ v, c.bump a w n = c.rset a v := ⟨_, rfl⟩

theorem Core.bump_counts {c : Core} {a w n : Nat} (h : c.rget a + n < 2 ^ w) : (c.bump a w n).rget a = c.rget a + n := by
  unfold Core.bump
  rw [Core.rget_rset_self, if_pos h]

/-- Two cores that differ in registers kept by address only. -/
def Core.regOnly (c c1 : Core) : Prop := ∃ rg, c1 = { c with reg := rg }

theorem Core.regOnly_refl (c : Core) : c.regOnly c := ⟨c.reg, rfl⟩

theorem Core.regOnly_rset {c c1 : Core} (h : c.regOnly c1) (a v : Nat) : c.regOnly (c1.rset a v) := by
  obtain ⟨rg, rfl⟩ := h
  exact ⟨kset rg a v, rfl⟩

theorem Core.regOnly_bump {c c1 : Core} (h : c.regOnly c1) (a w n : Nat) : c.regOnly (c1.bump a w n) := by
  obtain ⟨v, hv⟩ := Core.bump_eq c1 a w n
  rw [hv]
  exact Core.regOnly_rset h a v

theorem Core.regOnly_firstError {c c1 : Core} (h : c.regOnly c1) (u : SUnit) (det wher synd : Nat) (limit injected : Bool) :
    c.regOnly (c1.firstError u det wher synd limit injected) := by
  unfold Core.firstError
  split
  · exact Core.regOnly_rset h _ _
  · exact Core.regOnly_rset (Core.regOnly_rset (Core.regOnly_rset (Core.regOnly_rset h _ _) _ _) _ _) _ _

/-- An error changes registers, and the tests owed (R456). -/
theorem Core.error_eq (c : Core) (u : SUnit) (det wher synd : Nat) (limit injected owes : Bool) :
    ∃ rg ow, c.error u det wher synd limit injected owes = { c with reg := rg, owed := ow } := by
  unfold Core.error
  obtain ⟨rg, h⟩ := Core.regOnly_firstError (Core.regOnly_bump (Core.regOnly_rset (Core.regOnly_refl c) (u.base + 0x100)
    (c.rget (u.base + 0x100) ||| 2 ^ det)) (u.base + 0x110) 32 1) u det wher synd limit injected
  simp only [h]
  split
  · unfold Core.owe
    obtain ⟨rg2, h2⟩ := Core.regOnly_rset (Core.regOnly_rset (Core.regOnly_refl
      ({ c with reg := rg, owed := c.owed ++ [Owed.mk u det none] } : Core)) (u.base + 0x104) _) (u.base + 0x200) _
    exact ⟨rg2, _, h2⟩
  · exact ⟨rg, c.owed, rfl⟩

/-- A correction changes its count and the times kept of it (R456, R458). -/
theorem Core.correction_eq (c : Core) (u : SUnit) (det n : Nat) :
    ∃ rg co, c.correction u det n = { c with reg := rg, corrs := co } := ⟨_, _, rfl⟩

/-! ### Parts of a context -/

theorem Core.modRun_eq (c : Core) (n : Nat) (f : Run → Run) : ∃ xs, c.modRun n f = { c with ctxs := xs } := ⟨_, rfl⟩
theorem Core.modStep_eq (c : Core) (n : Nat) (f : StepSt → StepSt) : ∃ xs, c.modStep n f = { c with ctxs := xs } := ⟨_, rfl⟩
theorem Core.modObj_eq (c : Core) (n i : Nat) (f : Obj → Obj) : ∃ xs, c.modObj n i f = { c with ctxs := xs } := ⟨_, rfl⟩
theorem Core.modPlot_eq (c : Core) (n i k : Nat) (f : PlotEnt → PlotEnt) : ∃ xs, c.modPlot n i k f = { c with ctxs := xs } := ⟨_, rfl⟩
theorem Core.modPage_eq (c : Core) (n p : Nat) (f : Page → Page) : ∃ xs, c.modPage n p f = { c with ctxs := xs } := ⟨_, rfl⟩
theorem Core.modJob_eq (c : Core) (n : Nat) (f : Job → Job) : ∃ xs, c.modJob n f = { c with ctxs := xs } := ⟨_, rfl⟩
theorem Core.modVnode_eq (c : Core) (n : Nat) (f : VNode → VNode) : ∃ xs, c.modVnode n f = { c with ctxs := xs } := ⟨_, rfl⟩
theorem Core.modExport_eq (c : Core) (n e : Nat) (f : Export → Export) : ∃ xs, c.modExport n e f = { c with ctxs := xs } := ⟨_, rfl⟩
theorem Core.touch_eq (c : Core) (n i : Nat) : ∃ xs, c.touch n i = { c with ctxs := xs } := ⟨_, rfl⟩

/-- A count of the census changes its context only (R130). -/
theorem Core.censusAdd_eq (c : Core) (n off k : Nat) : ∃ xs, c.censusAdd n off k = { c with ctxs := xs } := by
  unfold Core.censusAdd
  split
  · exact ⟨_, rfl⟩
  · exact ⟨_, rfl⟩

/-! ### Links -/

theorem Core.modLink_eq (c : Core) (l : Nat) (f : Link → Link) : ∃ ls, c.modLink l f = { c with links := ls } := ⟨_, rfl⟩
theorem Core.emitKept_eq (c : Core) (l : Nat) : ∃ o, c.emitKept l = { c with out := o } := ⟨_, rfl⟩
theorem Core.announce_eq (c : Core) (l rtt : Nat) : ∃ o, c.announce l rtt = { c with out := o } := ⟨_, rfl⟩

/-- A flit that leaves changes its link, the outputs and a count (R344). -/
theorem Core.emitFlit_eq (c : Core) (l kind tag hdr : Nat) (b : List Byte) :
    ∃ ls o rg, c.emitFlit l kind tag hdr b = { c with links := ls, out := o, reg := rg } := ⟨_, _, _, rfl⟩

/-- A link-local flit changes no more than a flit that leaves (R335, R344). -/
theorem Core.sendLocal_eq (c : Core) (l kind : Nat) (b : List Byte) :
    ∃ ls o rg, c.sendLocal l kind b = { c with links := ls, out := o, reg := rg } := by
  unfold Core.sendLocal
  dsimp only
  split
  · exact ⟨_, _, _, rfl⟩
  · split
    · exact Core.emitFlit_eq ..
    · exact ⟨_, _, _, rfl⟩

/-! ### Host copies of plots (R245) -/

theorem Core.dmaMove_eq (c : Core) (a : Nat) (b : List Byte) : ∃ m o, c.dmaMove a b = { c with hostMem := m, out := o } := ⟨_, _, rfl⟩
theorem Core.dmaAsk_eq (c : Core) (a len : Nat) : ∃ o, c.dmaAsk a len = { c with out := o } := ⟨_, rfl⟩
theorem Core.holdFrame_eq (c : Core) (f : Nat) (b : Bool) : ∃ fs, c.holdFrame f b = { c with frames := fs } := ⟨_, rfl⟩

/-! ### Running actions -/

/-- An action that is marked done leaves everything but its column. -/
theorem Core.actDone_eq (c : Core) (u : UnitId) : ∃ co, c.actDone u = { c with cols := co } := ⟨_, rfl⟩

theorem Core.modRunning_eq (c : Core) (u : UnitId) (f : RunAct → RunAct) : ∃ co, c.modRunning u f = { c with cols := co } := ⟨_, rfl⟩

/-- With nothing detected and no injection armed, an action's checks pass and change nothing (R464). -/
theorem Core.injections_quiet {c : Core} {b : SUnit} (h : c.unarmed b) (det n : Nat) : c.injections b det n = (c, false) := by
  cases n with
  | zero => rfl
  | succ n => simp [Core.injections, Core.inject, h det]

theorem Core.checks_quiet {c : Core} {u : UnitId} (h : c.unarmed u.sunit) (dets : List (Nat × Nat)) :
    c.checks u [] dets = (c, false) := by
  unfold Core.checks
  simp only [List.filter_nil, List.foldl_nil, List.find?_nil]
  induction dets with
  | nil => rfl
  | cons d l ih => simp only [List.foldl_cons, Core.injections_quiet h]; simpa using ih

theorem Core.transfer_unarmed {c : Core} {b : SUnit} (h : c.unarmed b) : c.transfer b 4 = (c, false) := by
  simp [Core.transfer, Core.inject, h 0]

/-- With no injection armed on its way, a transfer changes nothing. -/
theorem Core.pathChecks_unarmed {c : Core} {u : UnitId} (h : c.pathUnarmed u) : c.pathChecks u = (c, false) := by
  obtain ⟨-, hd, hr⟩ := h
  simp [Core.pathChecks, Core.transfer_unarmed hd, Core.transfer_unarmed hr, Core.injections_quiet hd, Core.injections_quiet hr]

/-! ### The register map (R22, R23) -/

theorem unitAt_link (l : Nat) (h : l < 36) (o : Nat) (ho : o < 0x10000) : unitAt (linkBase l + o) = some (.link l, o) := by
  have h1 : ¬ (linkBase l + o < 0x01000000) := by unfold linkBase; omega
  have h2 : ¬ (linkBase l + o < 0x05000000) := by unfold linkBase; omega
  have h3 : 0x08000000 ≤ linkBase l + o ∧ linkBase l + o < 0x08240000 := by unfold linkBase; omega
  have h4 : (linkBase l + o - 0x08000000) / 0x10000 = l := by unfold linkBase; omega
  have h5 : (linkBase l + o) % 0x10000 = o := by unfold linkBase; omega
  simp only [unitAt, h1, h2, h3, h4, h5, if_false, if_true, and_self]

theorem unitAt_stack (m : Nat) (h : m < 24) (o : Nat) (ho : o < 0x10000) : unitAt (stackBase m + o) = some (.stack m, o) := by
  have h1 : ¬ (stackBase m + o < 0x01000000) := by unfold stackBase; omega
  have h2 : ¬ (stackBase m + o < 0x05000000) := by unfold stackBase; omega
  have h3 : ¬ (0x08000000 ≤ stackBase m + o ∧ stackBase m + o < 0x08240000) := by unfold stackBase; omega
  have h4 : 0x09000000 ≤ stackBase m + o ∧ stackBase m + o < 0x09180000 := by unfold stackBase; omega
  have h5 : (stackBase m + o - 0x09000000) / 0x10000 = m := by unfold stackBase; omega
  have h6 : (stackBase m + o) % 0x10000 = o := by unfold stackBase; omega
  simp only [unitAt, h1, h2, h3, h4, h5, h6, if_false, if_true, and_self]

end Sys2Proof.Machine
end

