-- ==== Sys2Proof/Laws/PerInstr.lean ====
section
/-!
SUPPORT. Per-command facts: a well-formed host command carries a packet of an opcode that R416 lists.
-/
namespace Sys2Proof.Laws.KnownOpcode
open Sys2Proof

/-- A well-formed command's packet has an opcode of R416's ranges. -/
def Statement (i : Instr) : Prop := i.wf = true → ∀ p, i.packet? = some p → Machine.opcodeKnown p.opcode.toNat = true

theorem of_none {i : Instr} (h : i.packet? = none) : Statement i := by
  intro _ p hp
  rw [h] at hp
  cases hp

theorem of_wf {i : Instr} {p : Packet} (op : Nat) (hp : i.packet? = some p) (h : i.wf = true → p.wf op = true)
    (hk : Machine.opcodeKnown op = true) : Statement i := by
  intro hw q hq
  rw [hp] at hq
  cases hq
  have h1 := h hw
  simp only [Packet.wf, Bool.and_eq_true, decide_eq_true_eq] at h1
  rw [h1.1.1]
  exact hk

theorem auxRailUp : Statement (.auxRailUp) := of_none rfl
theorem auxRailLoss : Statement (.auxRailLoss) := of_none rfl
theorem mainInputAccept : Statement (.mainInputAccept) := of_none rfl
theorem corePowerGood : Statement (.corePowerGood) := of_none rfl
theorem mainInputUvlo : Statement (.mainInputUvlo) := of_none rfl
theorem mainInputRecover : Statement (.mainInputRecover) := of_none rfl
theorem perstDeassert : Statement (.perstDeassert) := of_none rfl
theorem pcieConventionalReset : Statement (.pcieConventionalReset) := of_none rfl
theorem hotReset : Statement (.hotReset) := of_none rfl
theorem functionLevelReset : Statement (.functionLevelReset) := of_none rfl
theorem stageBootRomDone : Statement (.stageBootRomDone) := of_none rfl
theorem stageFwVerifyDone : Statement (.stageFwVerifyDone) := of_none rfl
theorem fwStagedCopyDone : Statement (.fwStagedCopyDone) := of_none rfl
theorem stageBistDone (failed : List SUnit) : Statement (.stageBistDone failed) := of_none rfl
theorem stageHbmTrainingDone (failed : List Nat) : Statement (.stageHbmTrainingDone failed) := of_none rfl
theorem stageLinkTrainingDone (failed : List Nat) : Statement (.stageLinkTrainingDone failed) := of_none rfl
theorem stageLocalMappingDone : Statement (.stageLocalMappingDone) := of_none rfl
theorem apertureWrite (off : Nat) (data : List Byte) : Statement (.apertureWrite off data) := of_none rfl
theorem slotCopyDone (slot : Nat) : Statement (.slotCopyDone slot) := of_none rfl
theorem chainFetchDone (n : Nat) (data : Option (List Byte)) : Statement (.chainFetchDone n data) := of_none rfl
theorem devInfo (p : Packet) : Statement (.devInfo p) := of_wf 0x101 rfl (fun h => h) rfl
theorem devStatus (p : Packet) : Statement (.devStatus p) := of_wf 0x102 rfl (fun h => h) rfl
theorem devReset (p : Packet) : Statement (.devReset p) := of_wf 0x103 rfl (fun h => h) rfl
theorem devResetExec : Statement (.devResetExec) := of_none rfl
theorem devEvents (p : Packet) : Statement (.devEvents p) := of_wf 0x104 rfl (fun h => h) rfl
theorem ctxCreate (p : Packet) : Statement (.ctxCreate p) := of_wf 0x201 rfl (fun h => h) rfl
theorem ctxDestroy (p : Packet) : Statement (.ctxDestroy p) := of_wf 0x202 rfl (fun h => h) rfl
theorem ctxList (p : Packet) : Statement (.ctxList p) := of_wf 0x203 rfl (fun h => h) rfl
theorem windowSet (p : Packet) : Statement (.windowSet p) := of_wf 0x204 rfl (fun h => h) rfl
theorem floorSet (p : Packet) : Statement (.floorSet p) := of_wf 0x210 rfl (fun h => h) rfl
theorem objAlloc (p : Packet) : Statement (.objAlloc p) := of_wf 0x211 rfl (fun h => h) rfl
theorem objFree (p : Packet) : Statement (.objFree p) := of_wf 0x212 rfl (fun h => h) rfl
theorem objHint (p : Packet) : Statement (.objHint p) := of_wf 0x213 rfl (fun h => h) rfl
theorem objPromote (p : Packet) : Statement (.objPromote p) := of_wf 0x214 rfl (fun h => h) rfl
theorem objEvict (p : Packet) : Statement (.objEvict p) := of_wf 0x215 rfl (fun h => h) rfl
theorem objQuery (p : Packet) : Statement (.objQuery p) := of_wf 0x216 rfl (fun h => h) rfl
theorem hostMap (p : Packet) : Statement (.hostMap p) := of_wf 0x217 rfl (fun h => h) rfl
theorem hostUnmap (p : Packet) : Statement (.hostUnmap p) := of_wf 0x218 rfl (fun h => h) rfl
theorem poolStatus (p : Packet) : Statement (.poolStatus p) := of_wf 0x219 rfl (fun h => h) rfl
theorem poolMarks (p : Packet) : Statement (.poolMarks p) := of_wf 0x21A rfl (fun h => h) rfl
theorem plotEvictDone (ctx plot : Nat) : Statement (.plotEvictDone ctx plot) := of_none rfl
theorem plotPromoteDone (ctx plot : Nat) (authOk : Bool) : Statement (.plotPromoteDone ctx plot authOk) := of_none rfl
theorem stashDemoteDone (ctx plot : Nat) : Statement (.stashDemoteDone ctx plot) := of_none rfl
theorem scrubTick (stack : Nat) (corrected : List (Nat × Option (List Byte))) (bad : List Nat) : Statement (.scrubTick stack corrected bad) := of_none rfl
theorem plotRetireCopyDone (stack plot : Nat) : Statement (.plotRetireCopyDone stack plot) := of_none rfl
theorem kvTable (p : Packet) : Statement (.kvTable p) := of_wf 0x230 rfl (fun h => h) rfl
theorem pageAdd (p : Packet) : Statement (.pageAdd p) := of_wf 0x231 rfl (fun h => h) rfl
theorem pageMap (p : Packet) : Statement (.pageMap p) := of_wf 0x232 rfl (fun h => h) rfl
theorem pageRef (p : Packet) : Statement (.pageRef p) := of_wf 0x233 rfl (fun h => h) rfl
theorem pageUnref (p : Packet) : Statement (.pageUnref p) := of_wf 0x234 rfl (fun h => h) rfl
theorem pageDrop (p : Packet) : Statement (.pageDrop p) := of_wf 0x235 rfl (fun h => h) rfl
theorem pageRevive (p : Packet) : Statement (.pageRevive p) := of_wf 0x236 rfl (fun h => h) rfl
theorem pageRead (p : Packet) : Statement (.pageRead p) := of_wf 0x237 rfl (fun h => h) rfl
theorem pageCopyDone (ctx page : Nat) : Statement (.pageCopyDone ctx page) := of_none rfl
theorem progLoad (p : Packet) : Statement (.progLoad p) := of_wf 0x301 rfl (fun h => h) rfl
theorem progRun (p : Packet) : Statement (.progRun p) := of_wf 0x302 rfl (fun h => h) rfl
theorem progStop (p : Packet) : Statement (.progStop p) := of_wf 0x303 rfl (fun h => h) rfl
theorem progUnload (p : Packet) : Statement (.progUnload p) := of_wf 0x304 rfl (fun h => h) rfl
theorem progFlag (p : Packet) : Statement (.progFlag p) := of_wf 0x305 rfl (fun h => h) rfl
theorem recordIssue : Statement (.recordIssue) := of_none rfl
theorem forkIssue : Statement (.forkIssue) := of_none rfl
theorem variantEnd : Statement (.variantEnd) := of_none rfl
theorem settleRecord : Statement (.settleRecord) := of_none rfl
theorem settlePoint : Statement (.settlePoint) := of_none rfl
theorem endRecord : Statement (.endRecord) := of_none rfl
theorem actionBegin (u : UnitId) : Statement (.actionBegin u) := of_none rfl
theorem actionComplete (u : UnitId) : Statement (.actionComplete u) := of_none rfl
theorem nop (u : UnitId) : Statement (.nop u) := of_none rfl
theorem setap (u : UnitId) : Statement (.setap u) := of_none rfl
theorem fProduct (cell : Nat) (ups : List Upset) : Statement (.fProduct cell ups) := of_none rfl
theorem bProduct (cell : Nat) (ups : List Upset) : Statement (.bProduct cell ups) := of_none rfl
theorem convert (cell : Nat) (ups : List Upset) : Statement (.convert cell ups) := of_none rfl
theorem survey (cell : Nat) (ups : List Upset) : Statement (.survey cell ups) := of_none rfl
theorem unary (cell : Nat) (ups : List Upset) : Statement (.unary cell ups) := of_none rfl
theorem binary (cell : Nat) (ups : List Upset) : Statement (.binary cell ups) := of_none rfl
theorem rowreduce (cell : Nat) (ups : List Upset) : Statement (.rowreduce cell ups) := of_none rfl
theorem softmaxOnline (cell : Nat) (ups : List Upset) : Statement (.softmaxOnline cell ups) := of_none rfl
theorem softmaxFinish (cell : Nat) (ups : List Upset) : Statement (.softmaxFinish cell ups) := of_none rfl
theorem softmaxBackward (cell : Nat) (ups : List Upset) : Statement (.softmaxBackward cell ups) := of_none rfl
theorem flagw (cell : Nat) : Statement (.flagw cell) := of_none rfl
theorem receive (cell : Nat) : Statement (.receive cell) := of_none rfl
theorem send (cell : Nat) : Statement (.send cell) := of_none rfl
theorem silt (cell : Nat) : Statement (.silt cell) := of_none rfl
theorem granuleLand (cell : Nat) : Statement (.granuleLand cell) := of_none rfl
theorem siltPacketLand (n : Nat) : Statement (.siltPacketLand n) := of_none rfl
theorem arm (die eng : Nat) : Statement (.arm die eng) := of_none rfl
theorem rearm (die eng : Nat) : Statement (.rearm die eng) := of_none rfl
theorem disarm (die eng : Nat) : Statement (.disarm die eng) := of_none rfl
theorem tileDeliver (die eng : Nat) (ups : List Upset) : Statement (.tileDeliver die eng ups) := of_none rfl
theorem streamRetry (die eng : Nat) : Statement (.streamRetry die eng) := of_none rfl
theorem parkLimitExpire (die eng : Nat) : Statement (.parkLimitExpire die eng) := of_none rfl
theorem stallLimitExpire (u : UnitId) : Statement (.stallLimitExpire u) := of_none rfl
theorem descLoad (p : Packet) : Statement (.descLoad p) := of_wf 0x306 rfl (fun h => h) rfl
theorem siltRoutes (p : Packet) : Statement (.siltRoutes p) := of_wf 0x307 rfl (fun h => h) rfl
theorem faultRing (p : Packet) : Statement (.faultRing p) := of_wf 0x308 rfl (fun h => h) rfl
theorem faultAbort (p : Packet) : Statement (.faultAbort p) := of_wf 0x309 rfl (fun h => h) rfl
theorem streamLimits (p : Packet) : Statement (.streamLimits p) := of_wf 0x30A rfl (fun h => h) rfl
theorem sweep (die : Nat) : Statement (.sweep die) := of_none rfl
theorem shardSweepDone (die : Nat) : Statement (.shardSweepDone die) := of_none rfl
theorem exportRingRoom (ctx entry consumer : Nat) : Statement (.exportRingRoom ctx entry consumer) := of_none rfl
theorem exportRecordDrop (ctx entry : Nat) : Statement (.exportRecordDrop ctx entry) := of_none rfl
theorem push (die : Nat) : Statement (.push die) := of_none rfl
theorem reduce (die : Nat) : Statement (.reduce die) := of_none rfl
theorem verdict (die : Nat) : Statement (.verdict die) := of_none rfl
theorem dispatch (die : Nat) : Statement (.dispatch die) := of_none rfl
theorem combine (die : Nat) : Statement (.combine die) := of_none rfl
theorem contribArrive (src job step sid tile count pslot : Nat) (sum : List (BitVec 16)) : Statement (.contribArrive src job step sid tile count pslot sum) := of_none rfl
theorem nullContribArrive (src job step sid pslot : Nat) : Statement (.nullContribArrive src job step sid pslot) := of_none rfl
theorem reduceDeadline (ctx tset idx : Nat) : Statement (.reduceDeadline ctx tset idx) := of_none rfl
theorem verdContribArrive (src job : Nat) (v : VContrib) : Statement (.verdContribArrive src job v) := of_none rfl
theorem verdRecordArrive (src job : Nat) (v : VRecord) : Statement (.verdRecordArrive src job v) := of_none rfl
theorem beatSend (ctx : Nat) : Statement (.beatSend ctx) := of_none rfl
theorem beatArrive (src job : Nat) : Statement (.beatArrive src job) := of_none rfl
theorem livenessTimeout (ctx dev : Nat) : Statement (.livenessTimeout ctx dev) := of_none rfl
theorem lossArrive (src job dev : Nat) : Statement (.lossArrive src job dev) := of_none rfl
theorem pushArrive (src job tag sid version off : Nat) (data : List Byte) (last : Bool) : Statement (.pushArrive src job tag sid version off data last) := of_none rfl
theorem pushReqTimer (ctx entry : Nat) : Statement (.pushReqTimer ctx entry) := of_none rfl
theorem pushReqArrive (src job sid : Nat) : Statement (.pushReqArrive src job sid) := of_none rfl
theorem dispCountArrive (src job dplan : Nat) (second : Bool) (counts : List Nat) : Statement (.dispCountArrive src job dplan second counts) := of_none rfl
theorem dispGrantArrive (src job dplan : Nat) (second : Bool) (grants : List (Nat × Nat)) : Statement (.dispGrantArrive src job dplan second grants) := of_none rfl
theorem dispRowArrive (src job dplan lslot row tag off assign : Nat) (data : List Byte) : Statement (.dispRowArrive src job dplan lslot row tag off assign data) := of_none rfl
theorem combRowArrive (src job dplan assign tag off : Nat) (data : List Byte) : Statement (.combRowArrive src job dplan assign tag off data) := of_none rfl
theorem readArrive (src job tag addr len : Nat) : Statement (.readArrive src job tag addr len) := of_none rfl
theorem readServe (n : Nat) : Statement (.readServe n) := of_none rfl
theorem readDataArrive (tag status : Nat) (versions : List (Nat × Nat)) (data : List Byte) : Statement (.readDataArrive tag status versions data) := of_none rfl
theorem writeArrive (src job tag addr : Nat) (data : List Byte) : Statement (.writeArrive src job tag addr data) := of_none rfl
theorem writeDoneArrive (tag status : Nat) : Statement (.writeDoneArrive tag status) := of_none rfl
theorem requestTimeout (tag : Nat) : Statement (.requestTimeout tag) := of_none rfl
theorem messageAssemblyTimeout (link src tag : Nat) : Statement (.messageAssemblyTimeout link src tag) := of_none rfl
theorem ackArrive (link lseq : Nat) : Statement (.ackArrive link lseq) := of_none rfl
theorem nakArrive (link : Nat) : Statement (.nakArrive link) := of_none rfl
theorem replayTimeout (link : Nat) : Statement (.replayTimeout link) := of_none rfl
theorem creditArrive (link cls n : Nat) : Statement (.creditArrive link cls n) := of_none rfl
theorem keyArrive (link : Nat) (payload : List Byte) : Statement (.keyArrive link payload) := of_none rfl
theorem linkKeyExhaust (link : Nat) : Statement (.linkKeyExhaust link) := of_none rfl
theorem linkTrainDone (link : Nat) (far : FarEnd) : Statement (.linkTrainDone link far) := of_none rfl
theorem linkTrainRetry (link : Nat) : Statement (.linkTrainRetry link) := of_none rfl
theorem linkRetrainDone (r : Retrained) : Statement (.linkRetrainDone r) := of_none rfl
theorem linkRetrainTimeout (link : Nat) : Statement (.linkRetrainTimeout link) := of_none rfl
theorem escapeTimeout (n : Nat) : Statement (.escapeTimeout n) := of_none rfl
theorem escapeWaitTimeout (n : Nat) : Statement (.escapeWaitTimeout n) := of_none rfl
theorem linkParams (p : Packet) : Statement (.linkParams p) := of_wf 0x401 rfl (fun h => h) rfl
theorem fabricMap (p : Packet) : Statement (.fabricMap p) := of_wf 0x402 rfl (fun h => h) rfl
theorem jobBind (p : Packet) : Statement (.jobBind p) := of_wf 0x403 rfl (fun h => h) rfl
theorem jobUnbind (p : Packet) : Statement (.jobUnbind p) := of_wf 0x404 rfl (fun h => h) rfl
theorem jobRemap (p : Packet) : Statement (.jobRemap p) := of_wf 0x405 rfl (fun h => h) rfl
theorem treeLoad (p : Packet) : Statement (.treeLoad p) := of_wf 0x406 rfl (fun h => h) rfl
theorem dispatchLoad (p : Packet) : Statement (.dispatchLoad p) := of_wf 0x407 rfl (fun h => h) rfl
theorem linkCtlEnable (p : Packet) : Statement (.linkCtlEnable p) := of_wf 0x408 rfl (fun h => (Bool.and_eq_true _ _ ▸ h : _ ∧ _).1) rfl
theorem linkCtlDisable (p : Packet) : Statement (.linkCtlDisable p) := of_wf 0x408 rfl (fun h => (Bool.and_eq_true _ _ ▸ h : _ ∧ _).1) rfl
theorem linkCtlRetrain (p : Packet) : Statement (.linkCtlRetrain p) := of_wf 0x408 rfl (fun h => (Bool.and_eq_true _ _ ▸ h : _ ∧ _).1) rfl
theorem stepParams (p : Packet) : Statement (.stepParams p) := of_wf 0x440 rfl (fun h => h) rfl
theorem layerLoad (p : Packet) : Statement (.layerLoad p) := of_wf 0x441 rfl (fun h => h) rfl
theorem shardLoad (p : Packet) : Statement (.shardLoad p) := of_wf 0x442 rfl (fun h => h) rfl
theorem reshard (p : Packet) : Statement (.reshard p) := of_wf 0x443 rfl (fun h => h) rfl
theorem verdictRing (p : Packet) : Statement (.verdictRing p) := of_wf 0x444 rfl (fun h => h) rfl
theorem numMode (p : Packet) : Statement (.numMode p) := of_wf 0x501 rfl (fun h => h) rfl
theorem censusRead (p : Packet) : Statement (.censusRead p) := of_wf 0x502 rfl (fun h => h) rfl
theorem censusRing (p : Packet) : Statement (.censusRing p) := of_wf 0x503 rfl (fun h => h) rfl
theorem trapMode (p : Packet) : Statement (.trapMode p) := of_wf 0x504 rfl (fun h => h) rfl
theorem trapResume (p : Packet) : Statement (.trapResume p) := of_wf 0x505 rfl (fun h => h) rfl
theorem updPlan (p : Packet) : Statement (.updPlan p) := of_wf 0x510 rfl (fun h => h) rfl
theorem updSched (p : Packet) : Statement (.updSched p) := of_wf 0x511 rfl (fun h => h) rfl
theorem lossScale (p : Packet) : Statement (.lossScale p) := of_wf 0x512 rfl (fun h => h) rfl
theorem updRead (p : Packet) : Statement (.updRead p) := of_wf 0x513 rfl (fun h => h) rfl
theorem exportSet (p : Packet) : Statement (.exportSet p) := of_wf 0x514 rfl (fun h => h) rfl
theorem exportBedrock (p : Packet) : Statement (.exportBedrock p) := of_wf 0x515 rfl (fun h => h) rfl
theorem govEvaluate : Statement (.govEvaluate) := of_none rfl
theorem sensorSample (r : Readings) : Statement (.sensorSample r) := of_none rfl
theorem powerOverLimit : Statement (.powerOverLimit) := of_none rfl
theorem opRampDone : Statement (.opRampDone) := of_none rfl
theorem thermalTrip (stack : Bool) (unit temp : Nat) : Statement (.thermalTrip stack unit temp) := of_none rfl
theorem govBudget (p : Packet) : Statement (.govBudget p) := of_wf 0x701 rfl (fun h => h) rfl
theorem govLimits (p : Packet) : Statement (.govLimits p) := of_wf 0x702 rfl (fun h => h) rfl
theorem govFix (p : Packet) : Statement (.govFix p) := of_wf 0x703 rfl (fun h => h) rfl
theorem idCerts (p : Packet) : Statement (.idCerts p) := of_wf 0x801 rfl (fun h => h) rfl
theorem attestDev (p : Packet) : Statement (.attestDev p) := of_wf 0x802 rfl (fun h => h) rfl
theorem attestCtx (p : Packet) : Statement (.attestCtx p) := of_wf 0x803 rfl (fun h => h) rfl
theorem peerKeys (p : Packet) : Statement (.peerKeys p) := of_wf 0x804 rfl (fun h => h) rfl
theorem keyImport (p : Packet) : Statement (.keyImport p) := of_wf 0x810 rfl (fun h => h) rfl
theorem keyErase (p : Packet) : Statement (.keyErase p) := of_wf 0x811 rfl (fun h => h) rfl
theorem sealArea (p : Packet) : Statement (.sealArea p) := of_wf 0x812 rfl (fun h => h) rfl
theorem ownerClaim (p : Packet) : Statement (.ownerClaim p) := of_wf 0x820 rfl (fun h => h) rfl
theorem ownerCmdLock (p : Packet) : Statement (.ownerCmdLock p) := of_wf 0x821 rfl (fun h => (Bool.and_eq_true _ _ ▸ h : _ ∧ _).1) rfl
theorem ownerCmdUnlock (p : Packet) : Statement (.ownerCmdUnlock p) := of_wf 0x821 rfl (fun h => (Bool.and_eq_true _ _ ▸ h : _ ∧ _).1) rfl
theorem ownerCmdRemove (p : Packet) : Statement (.ownerCmdRemove p) := of_wf 0x821 rfl (fun h => (Bool.and_eq_true _ _ ▸ h : _ ∧ _).1) rfl
theorem ownerCmdReplace (p : Packet) : Statement (.ownerCmdReplace p) := of_wf 0x821 rfl (fun h => (Bool.and_eq_true _ _ ▸ h : _ ∧ _).1) rfl
theorem fwBegin (p : Packet) : Statement (.fwBegin p) := of_wf 0x830 rfl (fun h => h) rfl
theorem fwBlock (p : Packet) : Statement (.fwBlock p) := of_wf 0x831 rfl (fun h => h) rfl
theorem fwCommit (p : Packet) : Statement (.fwCommit p) := of_wf 0x832 rfl (fun h => h) rfl
theorem fwAbort (p : Packet) : Statement (.fwAbort p) := of_wf 0x833 rfl (fun h => h) rfl
theorem spdmGetCertificate (slot : Nat) : Statement (.spdmGetCertificate slot) := of_none rfl
theorem spdmGetMeasurements : Statement (.spdmGetMeasurements) := of_none rfl
theorem ideKm (stream : Nat) (key : List Byte) (covers secure : Bool) : Statement (.ideKm stream key covers secure) := of_none rfl
theorem ideStreamInsecure (stream : Nat) : Statement (.ideStreamInsecure stream) := of_none rfl
theorem bistRun (p : Packet) : Statement (.bistRun p) := of_wf 0x601 rfl (fun h => h) rfl
theorem bistDone (failed : List SUnit) : Statement (.bistDone failed) := of_none rfl
theorem selftestRun (p : Packet) : Statement (.selftestRun p) := of_wf 0x602 rfl (fun h => h) rfl
theorem selftestDone (u : SUnit) (pass : Bool) : Statement (.selftestDone u pass) := of_none rfl
theorem correctionLimit (u : SUnit) (det : Nat) : Statement (.correctionLimit u det) := of_none rfl
theorem unitDisable (p : Packet) : Statement (.unitDisable p) := of_wf 0x603 rfl (fun h => h) rfl
theorem unitEnable (p : Packet) : Statement (.unitEnable p) := of_wf 0x604 rfl (fun h => h) rfl
theorem failRead (p : Packet) : Statement (.failRead p) := of_wf 0x605 rfl (fun h => h) rfl
theorem failForget (p : Packet) : Statement (.failForget p) := of_wf 0x606 rfl (fun h => h) rfl
theorem failcountFlashWrite : Statement (.failcountFlashWrite) := of_none rfl
theorem injArm (off size value : Nat) : Statement (.injArm off size value) := of_none rfl
theorem errFlagsClear (off value during : Nat) : Statement (.errFlagsClear off value during) := of_none rfl
theorem errFirstClear (off size value : Nat) : Statement (.errFirstClear off size value) := of_none rfl
theorem errActionClear (off size value : Nat) : Statement (.errActionClear off size value) := of_none rfl
theorem bar0FaultClear (value during : Nat) : Statement (.bar0FaultClear value during) := of_none rfl
theorem bar0ReservedAccess (off size : Nat) (write : Bool) : Statement (.bar0ReservedAccess off size write) := of_none rfl
theorem rcRegisterRead (off size during : Nat) : Statement (.rcRegisterRead off size during) := of_none rfl
theorem lowHalfRead (off : Nat) : Statement (.lowHalfRead off) := of_none rfl
theorem highHalfRead (off : Nat) : Statement (.highHalfRead off) := of_none rfl
theorem registerWrite (off size value : Nat) : Statement (.registerWrite off size value) := of_none rfl
theorem bar2Read (off len : Nat) : Statement (.bar2Read off len) := of_none rfl
theorem bar2Write (off : Nat) (data : List Byte) : Statement (.bar2Write off data) := of_none rfl
theorem sbState : Statement (.sbState) := of_none rfl
theorem sbTdie : Statement (.sbTdie) := of_none rfl
theorem sbThbm : Statement (.sbThbm) := of_none rfl
theorem sbPower : Statement (.sbPower) := of_none rfl
theorem sbCap : Statement (.sbCap) := of_none rfl
theorem sbOp : Statement (.sbOp) := of_none rfl
theorem sbInventory : Statement (.sbInventory) := of_none rfl
theorem sbFirmware : Statement (.sbFirmware) := of_none rfl
theorem sbWriteNack (code : Nat) (write : Bool) : Statement (.sbWriteNack code write) := of_none rfl
theorem flitReceive (link : Nat) (f : Flit) (ups : List Upset) : Statement (.flitReceive link f ups) := of_none rfl
theorem initialTrainingTimeout (link : Nat) : Statement (.initialTrainingTimeout link) := of_none rfl

end Sys2Proof.Laws.KnownOpcode
end

