-- ==== Sys2Proof/Tests/Slice0.lean ====
section
/-!
SUPPORT. Tests of the model: ill-formed commands refused, results worked out from the spec's rules, and for every statement a state
and operands that meet the premises of each of its clauses.
-/
namespace Sys2Proof.Tests
set_option Elab.async false
open Sys2Proof Sys2Proof.Machine

/-! ## Small states -/

/-- A context as CTX_CREATE makes it. -/
def wCtx : Ctx := Ctx.fresh false

/-- A device that is ready, with context 0 and nothing else. -/
def wCore : Core := { Core.reset with devState := .ready, stage := 7, ctxs := [(0, wCtx)], gated := [] }

/-- All rails good, the port up, the governor running. -/
def wDev : Dev :=
  { Dev.reset with
    tr := { Trust.reset with slotA := none },
    pw := { auxUp := true, mainOk := true, coreOn := true, coreGood := true, perstHigh := true, linkRef := true, holdup := 100 },
    gov := { Gov.reset with active := true }, c := wCore }

/-- That device with its core, its context or all of it changed. -/
def ws (f : Core → Core) : State := { pending := [], dev := { wDev with c := f wCore } }
def wx (f : Ctx → Ctx) : State := ws (fun c => { c with ctxs := [(0, f wCtx)] })
def wd (f : Dev → Dev) : State := { pending := [], dev := f wDev }

/-- A packet of an opcode with its parameters, no reply asked, taken from slot 0. -/
def wp (op : Nat) (ctxv : Bool) (args : List Nat) : Packet :=
  { opcode := BitVec.ofNat 16 op, flags := if ctxv then 1 else 0, ctx := 0, vec := 0, rsv := false, seq := 7,
    plen := BitVec.ofNat 16 (8 * args.length), reply := 0, nxt := 0, payload := args.map (BitVec.ofNat 64), slot := 0, fetched := false }

/-- A command under its own opcode that arrives and passes every check begins. -/
def fresh (d : Dev) (k : Cmd) (p : Packet) : Bool :=
  decide (p.opcode.toNat = k.op) && decide (p ∉ d.c.taken) && d.portUp && (decide (d.c.devState ≠ .stopped) || decide (k.op = 0x103)) &&
  decide (d.c.inflight < 1024) && !(d.c.blocked p) && decide (d.c.check k p = none)

theorem begins_of {d : Dev} {k : Cmd} {p : Packet} (h : fresh d k p = true) : d.begins k p (d.c.arrive p) := by
  simp [fresh] at h
  obtain ⟨⟨⟨⟨⟨⟨h1, h2⟩, h3⟩, h4⟩, h5⟩, h6⟩, h7⟩ := h
  exact .inr ⟨h1, h2, h3, fun e => h4.resolve_left (fun n => n e), h5, h6, h7, rfl⟩

theorem unarmed_of {c : Core} {b : SUnit} (h : c.reg.all (fun e => !(bit e.2 63)) = true) : c.unarmed b := by
  intro det
  unfold Core.rget kgetD
  have : ∀ (m : KMap Nat Nat) (a : Nat), m.all (fun e => !(bit e.2 63)) = true → bit ((kget m a).getD 0) 63 = false := by
    intro m a hm
    induction m with
    | nil => exact (by decide : bit 0 63 = false)
    | cons e r ih =>
      simp only [List.all_cons, Bool.and_eq_true, Bool.not_eq_true'] at hm
      unfold kget
      split
      · exact hm.1
      · exact ih hm.2
  exact this _ _ h

theorem pathUnarmed_of {c : Core} {u : UnitId} (h : c.reg.all (fun e => !(bit e.2 63)) = true) : c.pathUnarmed u :=
  ⟨unarmed_of h, unarmed_of h, unarmed_of h⟩

/-- The value of a result, and a default in place of an error. -/
def okOr {ε α : Type} (e : Except ε α) (a : α) : α := match e with | .ok v => v | .error _ => a

theorem ok_of {ε α : Type} {e : Except ε α} {a : α} (h : e.isOk = true) : e = .ok (okOr e a) := by cases e <;> first | rfl | cases h

theorem pair_of {ε α β : Type} {e : Except ε (α × β)} {a : α × β} (h : e.isOk = true) : e = .ok ((okOr e a).1, (okOr e a).2) :=
  ok_of h

theorem err_of {ε α : Type} [DecidableEq ε] {e : Except ε α} {k : ε}
    (h : (match e with | .error j => decide (j = k) | .ok _ => false) = true) :
    e = .error k := by cases e <;> simp_all

theorem some_of {α : Type} {o : Option α} {a : α} (h : o.isSome = true) : o = some (o.getD a) := by cases o <;> first | rfl | cases h

theorem pick_isSome {c : Core} {b : Nat} {ok : Nat → Bool} (h : (leastBelow b ok).isSome = true) : (c.pick b ok).isSome = true := by
  unfold Core.pick
  split
  · rfl
  · exact h

/-- A packet of the least length as the host writes it, sealed. -/
def sealed (op : Nat) : List Byte :=
  let b := leBytes op 2 ++ zeros 6 ++ leBytes 7 4 ++ zeros 52
  b ++ leBytes (7 + 0xA55A * 2 ^ 32 + (crc16 b).toNat * 2 ^ 48) 8

/-- A job of one device. -/
def wJob : Job :=
  { job := 3, enc := false, ndev := 1, isRoot := true, parent := 0, root := 0, children := [], succ := [], devs := [0], pkt := none,
    recovery := false, lost := [], actingRoot := true, anyLoss := false, heard := [], unbind := false }

/-- A run of slot 0 at the first record. -/
def wRun : Run :=
  { slot := 0, pkt := none, stepNo := 1, stepsLeft := none, quantum := 1, used := 0, pc := 16, loops := [], forks := [], inst := 0,
    settling := false, halted := false, stopReq := false, poison := false, step := StepSt.fresh }

/-- A resident object of one plot at address 0. -/
def wObj : Obj :=
  { gen := 0, base := 0, plots := [{ PlotEnt.blank with st := .resident, phys := 16 }], hint := 0, floor := false, window := false,
    nwin := 0, poisoned := false, st := .resident, want := [], promBad := [], pinReq := false, age := 0, touch := 0, defers := 0, evicts := 0,
    promotes := 0, freeAtSettle := false, need := false, freeing := false }

/-- An action of a run at the first record. -/
def wAct (w : Nat) : ActionInst :=
  { ctx := 0, addr := 16, slotGroup := 0, word := 0, bits := w, ordinal := 0, group := [0], loops := [], inst := 0 }

/-- A pointer at one granule, and cell 0's first pointers of a unit. -/
def wAp (g : Nat) : AddrPtr := { base := g, step := 0, n := 1, km := false, lsel := 0, ofs := 0, isub := false }
def wAps (u : UnitId) (l : List Nat) : KMap (UnitId × Nat) AddrPtr := (List.range l.length).map (fun i => ((u, i), wAp (l.getD i 0)))

/-- Context 0 in a run, one unit executing an action. -/
def wr (u : UnitId) (r : RunAct) (f : Core → Core) : State :=
  ws (fun c => f { c with ctxs := [(0, { wCtx with run := some wRun })], cur := some 0, cols := [(u, { run := some r, queue := [], dropped := false })] })
def wRa (w : Nat) : RunAct := { a := wAct w, started := false, done := false, count := 0, evs := ActEvs.none }

/-- Vector words: pointers 0, 1, 2, one row of one tile, and a function. -/
def vWord (op func : Nat) : Nat := op + 2 ^ 120 + 2 ^ 117 + func * 2 ^ 104 + 2 ^ 92 + 2 ^ 82
/-- A PRODUCT word: pointers 0, 1, 2, one tile each way. -/
def pWord (op : Nat) : Nat := op + 2 ^ 120 + 2 ^ 117 + 2 ^ 85 + 2 ^ 75 + 2 ^ 65

def wBlk : Block := ⟨0, 0, 0, 0, 0, 0⟩
def wProd : ProdJob :=
  { reads := [], dst := { byte := 0, len := 0 }, clash := false, dets := [],
    go := fun n => ⟨0, wBlk, wBlk, wBlk, 0, false, n, false, true, 1, 0⟩ }
def wVec : VecJob :=
  { reads := [], writes := [], clash := false, go := fun c => (c, { count := 0, input := false, best := none, census := [] }) }

/-- A page table of 1024 entries with one page; the page with memory and a state. -/
def xPage (g : Page) : Ctx := { wCtx with kvEntries := some 1024, pages := [(0, g)], objs := [(1, wObj)] }
def wPage (st : PageSt) : Page := { Page.unused with mem := true, addr := 0x4000, st := st }

/-- A program of no checks whose first record starts with a word. -/
def wProg (h : Nat) : Prog := { units := [0, 0, 0, 0, 1] ++ List.replicate 11 0 ++ [h], trees := [], area := [], measure := [], unfit := false }
def xRun (r : Run) (h : Nat) : Ctx := { wCtx with run := some r, progs := [(0, wProg h)] }
def sRun (r : Run) (h : Nat) : State := ws (fun c => { c with ctxs := [(0, xRun r h)], cur := some 0 })

/-- HBM bytes of the object's plot. -/
def hb (l : List Byte) : Mem := mputsZ [] (16 * plotBytes) l
/-- An image of 32 units that holds a settle record and an end record: the header's magic and version, 3 regions, length and entry. -/
def wImage : List Byte := leBytes 0x4B535047 4 ++ leBytes 1 2 ++ [3, 0] ++ leBytes 32 4 ++ leBytes 16 3 ++
  zeros 241 ++ [4] ++ zeros 15 ++ [5] ++ zeros 239

theorem ok_is {ε α : Type} [DecidableEq α] {e : Except ε α} {a : α}
    (h : (match e with | .ok v => decide (v = a) | .error _ => false) = true) :
    e = .ok a := by cases e <;> simp_all

theorem least_isSome {b m : Nat} {ok : Nat → Bool} (hm : m < b) (h : ok m = true) : (leastBelow b ok).isSome = true := by
  have : ∀ n k, k ≤ m → m < k + n → (leastFrom ok k n).isSome = true := by
    intro n
    induction n with
    | zero => intro k h1 h2; omega
    | succ n ih =>
      intro k h1 h2
      unfold leastFrom
      by_cases hk : ok k = true
      · simp [hk]
      · simp only [hk]
        by_cases e : k = m
        · exact absurd (e ▸ h) hk
        · exact ih (k + 1) (by omega) (by omega)
  exact this b 0 (Nat.zero_le _) (by omega)

theorem pick_sat {c : Core} {b m : Nat} {ok : Nat → Bool} (h : c.pick b ok = some m)
    (hl : ∀ n k, leastFrom ok k n = some m → ok m = true) :
    ok m = true := by
  unfold Core.pick at h
  split at h
  · rename_i e; cases h; exact e.2
  · exact hl _ _ h

theorem least_sat {ok : Nat → Bool} {m : Nat} : ∀ n k, leastFrom ok k n = some m → ok m = true := by
  intro n
  induction n with
  | zero => intro k h; simp [leastFrom] at h
  | succ n ih =>
    intro k h
    unfold leastFrom at h
    by_cases hk : ok k = true
    · simp only [hk] at h; cases h; exact hk
    · simp only [hk] at h; exact ih _ h

theorem placePlot_isSome {c : Core} {n : Nat} {x : Ctx} (hx : c.ctx? n = some x)
    (h : (c.stackOk 0 && decide (x.floorUsed 0 < x.floorIn 0) && !(c.usesPhys 0 17)) = true) : (c.placePlot n).isSome = true := by
  simp only [Bool.and_eq_true, decide_eq_true_eq] at h
  unfold Core.placePlot
  rw [hx]
  have h0 : (c.freePhys 0).isSome = true := pick_isSome (least_isSome (m := 17) (by omega) h.2)
  have hp : (c.pick 24 (fun m => c.stackOk m && x.floorUsed m < x.floorIn m && (c.freePhys m).isSome)).isSome = true :=
    pick_isSome (least_isSome (m := 0) (by omega) (by simp [h.1.1, h.1.2, h0]))
  obtain ⟨m, hm⟩ := Option.isSome_iff_exists.mp hp
  have := pick_sat hm (least_sat)
  simp only [Bool.and_eq_true, decide_eq_true_eq] at this
  simp only [hm]
  simp [this.2]

theorem placeTable_one {c : Core} {n t k : Nat} {x : Ctx} (hk : k = 1) (hx : c.ctx? n = some x)
    (h : (c.stackOk 0 && decide (x.floorUsed 0 < x.floorIn 0) && !(c.usesPhys 0 17)) = true) : (c.placeTable n t k).isSome = true := by
  subst hk
  obtain ⟨q, hq⟩ := Option.isSome_iff_exists.mp (placePlot_isSome hx h)
  simp [Core.placeTable, hq]

theorem placeArea_one {c : Core} {n t k : Nat} {g : Prog} {x : Ctx} (hk : k = 1) (hx : c.ctx? n = some x)
    (h : (c.stackOk 0 && decide (x.floorUsed 0 < x.floorIn 0) && !(c.usesPhys 0 17)) = true) : (c.placeArea n t g k).isSome = true := by
  subst hk
  obtain ⟨q, hq⟩ := Option.isSome_iff_exists.mp (placePlot_isSome hx h)
  simp [Core.placeArea, hq]

theorem readBytes_len {c : Core} {n a len : Nat} {d : List Byte}
    (h : (chunks a (len + 1) len).all (fun k => match c.readChunk n k.1 k.2 with | .ok l => decide (l.length = k.2) | _ => false) = true) :
    c.readBytes n a len = .ok (okOr (c.readBytes n a len) d) ∧
    (okOr (c.readBytes n a len) d).length = ((chunks a (len + 1) len).map Prod.snd).sum := by
  have : ∀ (l : List (Nat × Nat)) (acc : List Byte),
      l.all (fun k => match c.readChunk n k.1 k.2 with | .ok l => decide (l.length = k.2) | _ => false) = true →
      ∃ b, l.foldl (fun acc k => match acc with
        | .error e => .error e
        | .ok l => match c.readChunk n k.1 k.2 with
          | .ok b => .ok (l ++ b)
          | .error e => .error e) (Except.ok (ε := Nat) acc) = .ok b ∧ b.length = acc.length + (l.map Prod.snd).sum := by
    intro l
    induction l with
    | nil => intro acc _; exact ⟨acc, rfl, by simp⟩
    | cons k r ih =>
      intro acc h
      simp only [List.all_cons, Bool.and_eq_true] at h
      have hk := h.1
      split at hk
      · rename_i e
        obtain ⟨b, h1, h2⟩ := ih (acc ++ _) h.2
        refine ⟨b, ?_, ?_⟩
        · rw [List.foldl_cons]; simp only [e]; exact h1
        · rw [h2]; simp only [decide_eq_true_eq] at hk; simp [hk]; omega
      · cases hk
  obtain ⟨b, h1, h2⟩ := this _ [] h
  have e : c.readBytes n a len = .ok b := h1
  rw [e]
  exact ⟨rfl, by simpa [okOr] using h2⟩

theorem writeBytes_isOk {c : Core} {n a : Nat} {b : List Byte} {len : Nat} (hl : b.length = len)
    (h : (chunks a (len + 1) len).all (fun k => match c.locate n k.1 with | .hbm _ _ => true | _ => false) = true) :
    (c.writeBytes n a b).isOk = true := by
  subst hl
  unfold Core.writeBytes
  generalize chunks a (b.length + 1) b.length = l at h
  have : ∀ c' : Core, (∀ q, c'.locate n q = c.locate n q) → (l.foldl (fun acc k => match acc with
      | .error e => .error e
      | .ok c1 => match c1.writeChunk n k.1 ((b.drop (k.1 - a)).take k.2) with
        | .ok c2 => .ok c2
        | .error e => .error (e, c1)) (Except.ok (ε := Nat × Core) c')).isOk = true := by
    induction l with
    | nil => intro c' _; rfl
    | cons k r ih =>
      intro c' hc
      simp only [List.all_cons, Bool.and_eq_true] at h
      rw [List.foldl_cons]
      have hk := h.1
      unfold Core.writeChunk
      split at hk
      · rename_i e; simp only [hc, e]; exact ih h.2 _ (fun q => by rw [← hc q]; rfl)
      · cases hk
  exact this c (fun _ => rfl)

theorem needTable_one {c : Core} {n t k : Nat} {x : Ctx} (hk : k = 1) (hx : c.ctx? n = some x)
    (hn : (!(x.absent.contains t) && !(x.tabPlots.any (fun q => q.table = t)) && c.stackOk 0 && decide (x.floorUsed 0 < x.floorIn 0) &&
      !(c.usesPhys 0 17)) = true) : (c.needTable n t k).isSome = true := by
  simp only [Bool.and_eq_true, Bool.not_eq_true', List.contains_eq_mem, decide_eq_false_iff_not] at hn
  unfold Core.needTable
  rw [hx]
  simp only [hn.1.1.1.1, hn.1.1.1.2, Bool.false_eq_true, if_false]
  exact placeTable_one hk hx (by simp [hn.1.1.2, hn.1.2, hn.2])

theorem all_of {α : Type} {o : Option α} {f : α → Bool} (h : o.all f = true) : ∀ q, o = some q → f q = true := by
  intro q e; rw [e] at h; exact h

theorem below_one {n : Nat} {P : Nat → Prop} (hn : n = 1) (h : P 0) : ∀ i, i < n → P i := by
  intro i hi; obtain rfl : i = 0 := by omega
  exact h

/-- A context with one plot of floor and the object, and a job of this device alone. -/
def xLoad : Ctx := { wCtx with floorF := 1, objs := [(1, wObj)] }
def xJob : Ctx := { wCtx with floorF := 1, objs := [(1, wObj)], job := some wJob }
/-- A stream descriptor of one element at address 0, delivered to the die's first cell. -/
def wDesc : Nat := 2 ^ 192 + ((List.range 5).map (fun i => 2 ^ (8 * (0x30 + 4 * i)))).sum
def wPass (image : Nat) : Pass :=
  { ctx := 0, desc := 0, image := image, tile := 0, scale := 0, index := [], overrun := false, parked := none, faultAddr := 0,
    faultIx := 0, ff := 0, fside := 0, remote := [], asked := [], writes := [], pinned := [], written := [], copyWait := none }
/-- Engine 0 of tensor die 1 executing an action, with a pass or an armed descriptor and one table entry. -/
def sStream (r : RunAct) (g : Engine) (image : Nat) : State :=
  let x := { xRun wRun 5 with tables := [((tDesc, 0), image)], objs := [(1, wObj)], pages := [(0, wPage .fallow)] }
  ws (fun c =>
    { c with ctxs := [(0, x)], cur := some 0, cols := [(.se 1 0, { run := some r, queue := [], dropped := false })], engines := [((1, 0), g)] })
def gPass (p : Pass) : Engine := { Engine.idle with pass := some p }

/-- One shard of one row of 32 parameters: its layer, its register entry, its plan and its list entry, which stands at address 0. -/
def wLayer : Nat := 32 * 2 ^ 64 + 32 * 2 ^ 32
def wShard : Nat := 2 ^ 48 + 0x1000 * 2 ^ 64 + 2 ^ 160
def wPlan : Nat := 1 + 2 ^ 64
def wEntry : Nat := 0x1000 * 2 ^ 64 + 0x2000 * 2 ^ 192 + 0x3000 * 2 ^ 384
def wVerdict (decision : Nat) : VRecord :=
  { step := 1, decision := decision, flags := 0, cause := 0, origin := 0, root := 0, normSq := 0, devices := 1, empty := 0, late := 0 }
def xUpd (plan : Nat) (v : Option VRecord) : Ctx :=
  { wCtx with
    run := some { wRun with step := { StepSt.fresh with verdict := v } }, objs := [(1, { wObj with floor := true })],
    tables := [((tLayer, 0), wLayer), ((tShard, 0), wShard), ((tPlan, 0), plan)] }
/-- The update unit of port die 10 executing an action under that plan. -/
def sUpd (r : RunAct) (plan : Nat) (v : Option VRecord) (f : Core → Core) : State :=
  ws (fun c => f { c with ctxs := [(0, xUpd plan v)], cur := some 0, hbm := hb (leBytes wEntry 128),
                          cols := [(.uu 10, { run := some r, queue := [], dropped := false })] })
def wSweep : SweepSt := { ctx := 0, plan := 0, order := [0], pos := 0, finished := 0, hold := [], asked := [], evs := 0, input := false, best := none }
def wExport : Export :=
  { kind := 0, base := 0, bytes := 0, stride := 0, interval := 0, producer := 0, consumer := 0, waiting := [(0, 10, [])], dropping := [],
    sets := 0, tags := [], emitted := [] }

/-- A tree of one tile that this device owns, with one child, device 5; its context bound to job 3 with a run at step 1. -/
def wTree : Nat :=
  6 * 2 ^ 48 + 2 ^ 64 + 2 ^ 72 + 0x1000 * 2 ^ 128 + 0x10000 * 2 ^ 192 + 0x20000 * 2 ^ 256 + 32 * 2 ^ 352 + 5 * 2 ^ 384
def xTree (node : Option Nat) : Ctx :=
  { wCtx with
    run := some wRun, job := some { wJob with children := [5] }, objs := [(1, { wObj with floor := true })],
    tables := [((tLayer, 0), wLayer), ((tTree, 0), 1)], nodes := [((0, 0), { Node.fresh 0 wTree with deadline := node })] }
def sTree (tset : Nat) (node : Option Nat) : State :=
  ws (fun c => { c with ctxs := [(0, { xTree node with tables := [((tLayer, 0), wLayer), ((tTree, 0), tset)] })], cur := some 0,
                        hbm := hb (leBytes wTree 128), cols := [(.ru 13, { run := some (wRa 0x81), queue := [], dropped := false })] })

/-- A bound context in a run, with a shard register entry and a dispatch plan at entry 0. -/
def wDisp : Nat := 2 ^ 40 + 2 ^ 512 + 2 ^ 544 + 2 ^ 560
def xPush (shard : Nat) (r : Run) (d : KMap Nat Disp) : Ctx :=
  { wCtx with
    run := some r, job := some wJob, objs := [(1, { wObj with floor := true })], disps := d,
    tables := [((tLayer, 0), wLayer), ((tShard, 0), shard), ((tDisp, 0), wDisp)] }
def rPush (landed : List Nat) : Run := { wRun with step := { StepSt.fresh with verdict := some (wVerdict 0), pushLanded := landed } }
def sPush (shard : Nat) (r : Run) (d : KMap Nat Disp) (op : Nat) (f : Core → Core) : State :=
  ws (fun c => f { c with ctxs := [(0, xPush shard r d)], cur := some 0, cols := [(.de 13, { run := some (wRa op), queue := [], dropped := false })] })
def wMsg (kind : Nat) (payload : List Byte) : Transit :=
  { src := 0, dst := 5, job := 3, kind := kind, cls := 1, tag := 1, enc := false, flits := 1, arrived := none, buf := 1,
    payload := payload }
def wReq (kind sends : Nat) (owner : UnitId) (payload : List Byte) : Request :=
  { msg := wMsg kind payload, sends := sends, owner := owner, ctx := 0 }

theorem objBytes_zeros {c : Core} {n : Nat} (h : c.hbm = []) (hw : c.words = []) :
    ∀ len, len ≤ plotBytes → c.objBytes n 1 wObj 0 len = .ok (zeros len) := by
  have key : ∀ k, k < plotBytes → c.objByte n 1 wObj (0 + k) = .ok 0 := by
    intro k hk
    have e : (0 + k) / plotBytes = 0 := by rw [Nat.zero_add]; exact Nat.div_eq_of_lt hk
    simp only [Core.objByte, e]
    simp [wObj, Core.wordBad, hw, h, kget, mget]
  intro len
  induction len with
  | zero => intro _; rfl
  | succ len ih =>
    intro hl
    unfold Core.objBytes at ih ⊢
    rw [List.range_succ, List.foldl_append, ih (by omega)]
    simp only [List.foldl_cons, List.foldl_nil, key len (by omega)]
    rw [zeros, zeros, List.replicate_succ']

theorem byHandle_zeros {c : Core} {n hd len bad : Nat} (hx : (c.ctx? n).bind (fun x => x.objOf n hd) = some (1, wObj)) (h : c.hbm = [])
    (hw : c.words = []) (hl : len ≤ plotBytes) : c.byHandle n hd 0 len bad = .ok (zeros len) := by
  unfold Core.byHandle
  rw [hx]
  have hs : wObj.size = plotBytes := rfl
  simp only [hs, Nat.zero_add, if_neg (Nat.not_lt.mpr hl), objBytes_zeros h hw len hl]

theorem fieldAt_zeros (n off len : Nat) : fieldAt (zeros n) off len = 0 := by
  have : ∀ k, ofLe (List.replicate k (0#8)) = 0 := by
    intro k
    induction k with
    | zero => rfl
    | succ k ih => simp only [List.replicate_succ, ofLe, ih]; rfl
  simp [fieldAt, zeros, List.drop_replicate, List.take_replicate, this]

theorem routes_zeros (self : Nat) : ∀ i, i < 32768 →
    routeEntryOk self i (((List.range 32768).map (fun i => fieldAt (zeros 131072) (4 * i) 4)).getD i 0) = true := by
  intro i hi
  have e : ((List.range 32768).map (fun i => fieldAt (zeros 131072) (4 * i) 4)).getD i 0 = 0 := by
    rw [List.getD_eq_getElem?_getD, List.getElem?_map, List.getElem?_range hi]
    exact fieldAt_zeros _ _ _
  rw [e]
  simp [routeEntryOk, show bit 0 30 = false from rfl, show bit 0 31 = false from rfl]

theorem all_jobs {c : Core} {job n : Nat} (h : (c.jobCtx job).all (fun m => decide (m = n)) = true) :
    ∀ m, c.jobCtx job = some m → m = n := by
  intro m e; rw [e] at h; simpa using h

/-- A context whose shard register has its plots. -/
def xTab : Ctx := { xLoad with tabPlots := [{ table := tShard, stack := 0, phys := 17 }, { table := tShard, stack := 0, phys := 18 }] }

/-! ## Ill-formed commands -/

/-- One ill-formed term for each check: it is not well-formed. -/
theorem test_illFormed_refused :
    ([.stageBistDone [.cell 576], .stageHbmTrainingDone [24], .stageLinkTrainingDone [36], .apertureWrite 0 [],
      .apertureWrite 0x3FFFFF [0, 0], .apertureWrite 0xFFF [0, 0], .slotCopyDone 512, .plotEvictDone 16 0, .scrubTick 24 [] [],
      .plotRetireCopyDone 24 0, .plotRetireCopyDone 0 32768, .actionBegin (.cell 576 .f), .actionBegin (.ru 12), .setap (.uu 10),
      .fProduct 576 [], .arm 0 0, .arm 1 8, .sweep 9, .exportRingRoom 16 0 0, .exportRingRoom 0 16 0, .exportRingRoom 0 0 (2 ^ 64),
      .reduce 12, .lossArrive (2 ^ 15) 0 0, .pushReqTimer 0 65536, .nakArrive 36, .creditArrive 0 0 1, .creditArrive 0 4 1,
      .thermalTrip false 64 0, .thermalTrip true 24 0, .thermalTrip true 0 256, .bistDone [.die 64], .selftestDone (.link 36) true,
      .correctionLimit (.region 4) 0, .correctionLimit (.cell 0) 5, .registerWrite (2 ^ 28) 4 0, .bar2Read (2 ^ 41) 1,
      .bar2Write (2 ^ 41) [0], .sbWriteNack 0 false] : List Instr).all (fun i => !i.wf) = true := by decide +kernel

/-- A packet of another opcode, one whose payload is not H_PLEN long, one of no slot, and the commands that share an opcode. -/
theorem test_illFormed_packets :
    ([.devInfo (wp 0x102 false []), .devInfo { wp 0x101 false [] with plen := 8 }, .devInfo { wp 0x101 false [] with slot := 512 },
      .linkCtlEnable (wp 0x408 false [0, 1]), .linkCtlDisable (wp 0x408 false [0, 2]), .linkCtlRetrain (wp 0x408 false [0, 0]),
      .ownerCmdLock (wp 0x821 false [1, 0]), .ownerCmdUnlock (wp 0x821 false [0, 0]), .ownerCmdRemove (wp 0x821 false [3, 0]),
      .ownerCmdReplace (wp 0x821 false [2, 0]),
      .sensorSample { dieT := [], stackT := [], current := [], power := 0 }] : List Instr).all (fun i => !i.wf) = true := by decide +kernel

/-- What an ill-formed command gets. -/
theorem test_illFormed_faults :
    exec (.creditArrive 36 3 1) (ws id) = .fault .noSuchUnit ∧ exec (.devInfo (wp 0x102 false [])) (ws id) = .fault .badOperand :=
  ⟨rfl, rfl⟩

/-! ## Results worked out in the spec -/

/-- R114: largest finite values, and the NaN each format writes. -/
theorem test_format_limits :
    fLoam.decode 0x7F7F = .fin { neg := false, m := 255, e := 120 } ∧ fSilt8n.decode 0x7E = .fin { neg := false, m := 14, e := 5 } ∧
    fSilt8w.decode 0x7B = .fin { neg := false, m := 7, e := 13 } ∧ fGrit6.decode 0x1F = .fin { neg := false, m := 7, e := 2 } ∧
    fSand4.decode 0x7 = .fin { neg := false, m := 3, e := 1 } ∧ fLoam.nanCode = 0x7FC0 ∧ fSilt8n.nanCode = 0x7F ∧
    fSilt8w.nanCode = 0x7E ∧ f32.nanCode = 0x7FC00000 ∧ fSilt8n.isNan 0xFF = true ∧ fLoam.decode 0xFF80 = .inf true := by
  decide +kernel

/-- The worked grain of file 04: 0.99, 0.8125, -0.0003, 1e-7 and 0 into silt8n, nearest-even. -/
theorem test_grain_into_silt8n :
    surveyScale 2 ([0x3F7D70A4, 0x3F500000, 0xB99D4952, 0x33D6BF95, 0].map f32.decode) = 0x76 ∧
    ([0x3F7D70A4, 0x3F500000, 0xB99D4952, 0x33D6BF95, 0].map (fun x => (writeElem 2 0x76 .ne false (f32.decode x)).1)) =
      [⟨0x7E, true, false⟩, ⟨0x7D, false, false⟩, ⟨0xA2, false, false⟩, ⟨0, false, true⟩, ⟨0, false, false⟩] := by
  decide +kernel

/-- The worked element of file 10: the sediment of 0.499681736 beside 0x3F00, and the weight it restores. -/
theorem test_sediment_of_example : sediment 0x3EFFD649 0x3F00 = 0xEB ∧ restore 0x3F00 0xEB = 0x3EFFD600 := by decide +kernel

/-- The worked example of file 01: cell C300's error status, link L22's block, and stack M18's region. -/
theorem test_numbering_of_example :
    unitAt 0x03117100 = some (.cell 300, 0x100) ∧ unitAt 0x08160000 = some (.link 22, 0) ∧ linkDie 22 = 46 ∧
    (0x012540000000 : Nat) / 2 ^ 36 = 18 ∧ tripRegion true 18 = 3 := by decide +kernel

/-- Device 22 of file 12's example: a cap of 1,800 W, and from OP5 at 2,600 W down to OP3; GOV_CAP and GOV_STATE at OP2. -/
def gov22 : Gov :=
  { Gov.reset with
    active := true, op := 5, inForce := 5, modCap := 2600, rackLimit := 28800, share := 4096,
    dieT := List.replicate 64 (List.replicate 8 164), stackT := List.replicate 24 164, sampleSum := 26000, samples := 1 }
theorem test_governor_of_example :
    gov22.cap = 1800 ∧ (gov22.evaluate 0).op = 3 ∧ (gov22.evaluate 0).calm = 0 ∧
    { wDev with gov := gov22 }.govReg 0 0x404 = 0x07080A28 ∧
    { wDev with gov := { gov22 with op := 2, inForce := 2, cls := 2, pwrFlag := true } }.govReg 0 0x400 = 0x00708022 := by
  decide +kernel

/-- Reset: the queue is empty, no rail is up, nothing has started. -/
theorem test_reset :
    State.reset.pending = [] ∧ State.reset.dev.c.devState = .starting ∧ State.reset.dev.gov.active = false ∧
    State.reset.dev.pw.coreOn = false := by decide +kernel

/-- A packet written whole into slot 0 is taken once, and its slot is busy. -/
theorem test_packet_taken :
    (match exec (.apertureWrite 0 (sealed 0x104)) (ws id) with
     | .next t => decide (t.dev.c.taken.map (fun p => p.opcode.toNat) = [0x104] ∧ t.dev.c.busy.map Prod.fst = [0])
     | _ => false) = true := by decide +kernel

/-- The queue's first command runs and leaves the queue. -/
theorem test_step_takes_the_front :
    (match step { ws id with pending := [.beatArrive 5 3, .sbState] } with
     | .next t => decide (t.pending = [.sbState])
     | _ => false) = true := by decide +kernel

/-! ## Premises of the statements -/

/-- Premises of StepRunsFront met, clause by clause. -/
theorem witness_stepRunsFront :
    (let s : State := { ws id with pending := [.sbState] }; let i : Instr := .sbState; let rest : List Instr := [];
     s.pending = i :: rest) := by
  decide +kernel

/-- Premises of IdleTick met, clause by clause. -/
theorem witness_idleTick :
    (let s : State := ws id;
     s.pending = []) ∧
    (let s : State := ws (fun c => { c with timers := [(3, 5)] }); let r := 3;
     s.pending = [] ∧ r < 4 ∧ s.dev.pw.auxUp = true ∧ (s.dev.c.now r ≠ 0 ∨ lagOf r ≤ s.dev.c.now 0)) ∧
    (let s : State := ws id; let r := 3;
     s.pending = [] ∧ r < 4 ∧ s.dev.pw.auxUp = true ∧ s.dev.c.now r = 0 ∧ s.dev.c.now 0 < lagOf r) ∧
    (let s : State := ws (fun c => { c with timers := [(0, 2000000000)] });
     s.pending = [] ∧ 2000000000 ≤ s.dev.tick.c.now 0 ∧ s.dev.pw.auxUp = true) ∧
    (let s : State := ws id;
     s.pending = []) := by
  refine ⟨by decide +kernel, by decide +kernel, ?_, by decide +kernel, by decide +kernel⟩
  · dsimp only; exact ⟨by decide +kernel, by decide +kernel, by decide +kernel, by decide +kernel,
      (by show 0 < lagOf 3; unfold lagOf; simp)⟩

/-- Premises of ExecKeepsQueue met, clause by clause. -/
theorem witness_execKeepsQueue :
    (let i : Instr := .opRampDone; let s : State := ws id;
     let t : State := wd (fun d => { d with gov := { d.gov with inForce := d.gov.op } });
     exec i s = .next t) := by
  dsimp only; exact rfl

/-- Premises of WellFormedCompletes met, clause by clause. -/
theorem witness_wellFormedCompletes :
    (let i : Instr := .creditArrive 35 3 1;
     i.wf = true) := by
  decide +kernel

/-- Premises of FaultsOnlyWhenIllFormed met, clause by clause. -/
theorem witness_faultsOnlyWhenIllFormed :
    (let i : Instr := .creditArrive 36 3 1; let s : State := ws id; let f := Fault.noSuchUnit;
     exec i s = .fault f) := by
  dsimp only; exact rfl

/-- Premises of GovernorInvariantStep met, clause by clause. -/
theorem witness_governorInvariantStep :
    (let s : State := { ws id with pending := [.opRampDone] };
     let t : State := wd (fun d => { d with gov := { d.gov with inForce := d.gov.op } });
     s.inv ∧ step s = .next t) := by
  dsimp only; exact ⟨by refine ⟨?_, ?_, ?_, ?_, ?_, ?_, ?_, ?_, ?_, ?_, ?_, ?_, ?_, ?_⟩ <;> first | decide +kernel | (intro k hk; cases hk), rfl⟩

/-- Premises of TripLatched met, clause by clause. -/
theorem witness_tripLatched :
    (let i : Instr := .opRampDone; let s : State := wd (fun d => { d with gov := { d.gov with trips := [(2, 2 ^ 63)] } });
     let t : State := wd (fun d => { d with gov := { d.gov with trips := [(2, 2 ^ 63)], inForce := d.gov.op } });
     let r : Nat := 2;
     s.dev.gov.tripped r = true ∧ coldReset i = false ∧ exec i s = .next t) := by
  dsimp only; exact ⟨by decide +kernel, by decide +kernel, rfl⟩

/-- Premises of SecurityKept met, clause by clause. -/
theorem witness_securityKept :
    (let i : Instr := .opRampDone; let s : State := ws id;
     let t : State := wd (fun d => { d with gov := { d.gov with inForce := d.gov.op } });
     exec i s = .next t) := by
  dsimp only; exact rfl

/-- Premises of CoreOnlyCommands met, clause by clause. -/
theorem witness_coreOnlyCommands :
    (let i : Instr := .nakArrive 0; let s : State := ws id; let t : State := ws id;
     beyondCore i = false ∧ exec i s = .next t) := by
  dsimp only; exact ⟨by decide +kernel, rfl⟩

/-- Premises of RailsAndPins met, clause by clause. -/
theorem witness_railsAndPins :
    (let s : State := wd (fun d => { d with pw := { d.pw with auxUp := false } });
     s.dev.pw.auxUp = false) ∧
    (let s : State := ws id;
     s.dev.pw.auxUp = true) ∧
    (let s : State := wd (fun d => { d with c := Core.reset });
     s.dev.pw.coreOn = true ∧ s.dev.pw.perstHigh = true ∧ s.dev.c.devState = .starting ∧ s.dev.c.stage = 0) ∧
    (let s : State := wd (fun d => { d with pw := { d.pw with perstHigh := false } });
     s.dev.pw.coreOn = true ∧ s.dev.pw.perstHigh = false) ∧
    (let s : State := wd (fun d => { d with c := Core.reset });
     s.dev.pw.coreGood = true ∧ s.dev.c.devState = .starting ∧ s.dev.c.stage = 0) ∧
    (let s : State := wd (fun d => { d with pw := { d.pw with coreGood := false } });
     s.dev.pw.coreGood = false) ∧
    (let s : State := wd (fun d => { d with pw := { d.pw with mainOk := false } });
     s.dev.pw.auxUp = true ∧ s.dev.pw.mainOk = false) := by
  refine ⟨by decide +kernel, by decide +kernel, by decide +kernel, by decide +kernel, by decide +kernel, by decide +kernel,
      by decide +kernel⟩

/-- Premises of WarmResets met, clause by clause. -/
theorem witness_warmResets :
    (let s : State := ws id;
     s.dev.pw.coreGood = true) ∧
    (let s : State := ws id;
     s.dev.portUp = true) ∧
    (let s : State := ws (fun c => { c with resetReq := true });
     s.dev.c.resetReq = true) ∧
    (let a := 0x498;
     isRws a = true) ∧
    (let a := 0x490;
     isRws a = false) := by
  refine ⟨by decide +kernel, by decide +kernel, by decide +kernel, by decide +kernel, by decide +kernel⟩

/-- Premises of StartUpStages met, clause by clause. Clauses 2 to 6 need an image that the opaque signature check accepts. -/
theorem witness_startUpStages :
    (let s : State := ws (fun c => { c with devState := .starting, stage := 1 });
     s.dev.atStage 1 = true) ∧
    (let s : State := ws (fun c => { c with devState := .starting, stage := 3 }); let failed : List SUnit := [.cell 575];
     s.dev.atStage 3 = true ∧ (∀ u, u ∈ failed → u.valid = true)) ∧
    (let s : State := ws (fun c => { c with devState := .starting, stage := 4 }); let failed : List Nat := [23];
     s.dev.atStage 4 = true ∧ (∀ m, m ∈ failed → m < 24)) ∧
    (let s : State := ws (fun c => { c with devState := .starting, stage := 5, links := [(0, { Link.reset with st := .training })] });
     let failed : List Nat := [0];
     s.dev.atStage 5 = true ∧ (∀ l, l ∈ failed → l < 36) ∧
     (s.dev.pw.linkRef = false ∨ (∀ e, e ∈ s.dev.c.links → e.2.st ≠ .training ∨ e.1 ∈ failed))) ∧
    (let s : State := ws (fun c => { c with devState := .starting, stage := 6, stageFail := [.die 0] });
     s.dev.atStage 6 = true ∧ s.dev.c.localMap.devState = .stopped) ∧
    (let s : State := ws (fun c => { c with devState := .starting, stage := 6 });
     s.dev.atStage 6 = true ∧ s.dev.c.localMap.devState ≠ .stopped) ∧
    (let s : State := wd (fun d => { d with tr := { d.tr with slotA := none }, c := { d.c with devState := .starting, stage := 2 } });
     s.dev.atStage 2 = true ∧ s.dev.tr.runImage = none ∧ s.dev.tr.upd = .idle ∧ s.dev.tr.slotOk s.dev.tr.slotA = false ∧
     s.dev.tr.slotOk s.dev.tr.slotB = false) := by
  refine ⟨by decide +kernel, ?_, by decide +kernel, by decide +kernel, by decide +kernel, by decide +kernel,
      by decide +kernel⟩
  · dsimp only; exact ⟨by decide +kernel, by simp; decide⟩

/-- Premises of BusySlotDropsTheWrite met, clause by clause. -/
theorem witness_busySlotDropsTheWrite :
    (let s : State := ws (fun c => { c with busy := [(511, wp 0x104 false [])] }); let off : Nat := 511 * 0x2000;
     let data : List Byte := [0];
     (Instr.apertureWrite off data).wf = true ∧ s.dev.portUp = true ∧ (kget s.dev.c.busy (off / 0x2000)).isSome = true) := by
  decide +kernel

/-- Premises of SealedPacketIsTaken met, clause by clause. -/
theorem witness_sealedPacketIsTaken :
    (let s : State := ws (fun c => { c with slotMem := mputs [] 0 (List.replicate 16 0) }); let off : Nat := 8;
     let data : List Byte := [1]; let c1 : Core := { s.dev.c with slotMem := mputs s.dev.c.slotMem off data };
     let a := off / 0x2000 * 0x2000; let plen := ofLe (c1.slotBytes (a + 0x0C) 2);
     let covers : Prop := plen % 8 = 0 ∧ 64 + plen + 8 ≤ 0x2000 ∧ off ≤ a + 64 + plen ∧ a + 64 + plen + 8 ≤ off + data.length;
     (Instr.apertureWrite off data).wf = true ∧ s.dev.portUp = true ∧ kget s.dev.c.busy (off / 0x2000) = none ∧ ¬ covers) ∧
    (let s : State := ws id; let off : Nat := 0; let data : List Byte := (sealed 0x104).take 68 ++ [0, 0, 0, 0];
     let c1 : Core := { s.dev.c with slotMem := mputs s.dev.c.slotMem off data }; let a := off / 0x2000 * 0x2000;
     let plen := ofLe (c1.slotBytes (a + 0x0C) 2); let word := ofLe (c1.slotBytes (a + 64 + plen) 8);
     let covers : Prop := plen % 8 = 0 ∧ 64 + plen + 8 ≤ 0x2000 ∧ off ≤ a + 64 + plen ∧ a + 64 + plen + 8 ≤ off + data.length;
     (Instr.apertureWrite off data).wf = true ∧ s.dev.portUp = true ∧ kget s.dev.c.busy (off / 0x2000) = none ∧ covers ∧
     word / 2 ^ 32 % 2 ^ 16 ≠ 0xA55A) ∧
    (let s : State := ws id; let off : Nat := 0;
     let data : List Byte := (sealed 0x104).take 64 ++ [1, 0, 0, 0, 0x5A, 0xA5, 0, 0];
     let c1 : Core := { s.dev.c with slotMem := mputs s.dev.c.slotMem off data }; let a := off / 0x2000 * 0x2000;
     let plen := ofLe (c1.slotBytes (a + 0x0C) 2); let word := ofLe (c1.slotBytes (a + 64 + plen) 8);
     let b := c1.slotBytes a (64 + plen);
     let covers : Prop := plen % 8 = 0 ∧ 64 + plen + 8 ≤ 0x2000 ∧ off ≤ a + 64 + plen ∧ a + 64 + plen + 8 ≤ off + data.length;
     (Instr.apertureWrite off data).wf = true ∧ s.dev.portUp = true ∧ kget s.dev.c.busy (off / 0x2000) = none ∧ covers ∧
     word / 2 ^ 32 % 2 ^ 16 = 0xA55A ∧ sealOk b plen word = false) ∧
    (let s : State := ws id; let off : Nat := 0; let data : List Byte := sealed 0x104;
     let c1 : Core := { s.dev.c with slotMem := mputs s.dev.c.slotMem off data }; let a := off / 0x2000 * 0x2000;
     let plen := ofLe (c1.slotBytes (a + 0x0C) 2); let word := ofLe (c1.slotBytes (a + 64 + plen) 8);
     let b := c1.slotBytes a (64 + plen);
     let covers : Prop := plen % 8 = 0 ∧ 64 + plen + 8 ≤ 0x2000 ∧ off ≤ a + 64 + plen ∧ a + 64 + plen + 8 ≤ off + data.length;
     let p := parsePacket b (off / 0x2000) false;
     (Instr.apertureWrite off data).wf = true ∧ s.dev.portUp = true ∧ kget s.dev.c.busy (off / 0x2000) = none ∧ covers ∧
     word / 2 ^ 32 % 2 ^ 16 = 0xA55A ∧ sealOk b plen word = true ∧ s.dev.c.devState ≠ .stopped ∧ c1.inflight < 1024 ∧
     opcodeKnown p.opcode.toNat = true) ∧
    (let s : State := ws id; let off : Nat := 0; let data : List Byte := sealed 0x105;
     let c1 : Core := { s.dev.c with slotMem := mputs s.dev.c.slotMem off data }; let a := off / 0x2000 * 0x2000;
     let plen := ofLe (c1.slotBytes (a + 0x0C) 2); let word := ofLe (c1.slotBytes (a + 64 + plen) 8);
     let b := c1.slotBytes a (64 + plen);
     let covers : Prop := plen % 8 = 0 ∧ 64 + plen + 8 ≤ 0x2000 ∧ off ≤ a + 64 + plen ∧ a + 64 + plen + 8 ≤ off + data.length;
     let p := parsePacket b (off / 0x2000) false;
     (Instr.apertureWrite off data).wf = true ∧ s.dev.portUp = true ∧ kget s.dev.c.busy (off / 0x2000) = none ∧ covers ∧
     word / 2 ^ 32 % 2 ^ 16 = 0xA55A ∧ sealOk b plen word = true ∧ s.dev.c.devState ≠ .stopped ∧ c1.inflight < 1024 ∧
     opcodeKnown p.opcode.toNat = false) ∧
    (let s : State := ws (fun c => { c with taken := List.replicate 1024 (wp 0x104 false []) }); let off : Nat := 0;
     let data : List Byte := sealed 0x104; let c1 : Core := { s.dev.c with slotMem := mputs s.dev.c.slotMem off data };
     let a := off / 0x2000 * 0x2000; let plen := ofLe (c1.slotBytes (a + 0x0C) 2);
     let word := ofLe (c1.slotBytes (a + 64 + plen) 8); let b := c1.slotBytes a (64 + plen);
     let covers : Prop := plen % 8 = 0 ∧ 64 + plen + 8 ≤ 0x2000 ∧ off ≤ a + 64 + plen ∧ a + 64 + plen + 8 ≤ off + data.length;
     (Instr.apertureWrite off data).wf = true ∧ s.dev.portUp = true ∧ kget s.dev.c.busy (off / 0x2000) = none ∧ covers ∧
     word / 2 ^ 32 % 2 ^ 16 = 0xA55A ∧ sealOk b plen word = true ∧ s.dev.c.devState ≠ .stopped ∧ 1024 ≤ c1.inflight) ∧
    (let s : State := ws id; let off : Nat := 0; let data : List Byte := sealed 0x104; let slot := 511;
     (Instr.apertureWrite off data).wf = true ∧ s.dev.portUp = true ∧ kget s.dev.c.busy (off / 0x2000) = none ∧ slot < 512) := by
  refine ⟨by decide +kernel, by decide +kernel, by decide +kernel, by decide +kernel, by decide +kernel, by decide +kernel,
      by decide +kernel⟩

/-- Premises of ChainFetch met, clause by clause. -/
theorem witness_chainFetch :
    (let s : State := ws (fun c => { c with chains := [{ pkt := wp 0x104 false [], held := some [1], ended := false }] });
     let n : Nat := 0; let x : Chain := { pkt := wp 0x104 false [], held := some [1], ended := false };
     let b : List Byte := sealed 0x104; let r := [1];
     s.dev.c.chains[n]? = some x ∧ x.ended = false ∧ fetchOk b = true ∧ x.held = some r) ∧
    (let s : State := ws (fun c => { c with chains := [{ pkt := wp 0x104 false [], held := none, ended := false }] });
     let n : Nat := 0; let x : Chain := { pkt := wp 0x104 false [], held := none, ended := false };
     let b : List Byte := sealed 0x104;
     s.dev.c.chains[n]? = some x ∧ x.ended = false ∧ fetchOk b = true ∧ x.held = none) ∧
    (let s : State := ws (fun c => { c with chains := [{ pkt := wp 0x104 false [], held := some [1], ended := false }] });
     let n : Nat := 0; let x : Chain := { pkt := wp 0x104 false [], held := some [1], ended := false };
     let b : List Byte := [0]; let o := some [0]; let r := [1];
     s.dev.c.chains[n]? = some x ∧ x.ended = false ∧ (o = none ∨ (o = some b ∧ fetchOk b = false)) ∧ x.held = some r) ∧
    (let s : State := ws (fun c => { c with chains := [{ pkt := wp 0x104 false [], held := none, ended := false }] });
     let n : Nat := 0; let x : Chain := { pkt := wp 0x104 false [], held := none, ended := false };
     let b : List Byte := sealed 0x104; let o := none;
     s.dev.c.chains[n]? = some x ∧ x.ended = false ∧ (o = none ∨ (o = some b ∧ fetchOk b = false)) ∧ x.held = none) := by
  refine ⟨by decide +kernel, by decide +kernel, by decide +kernel, by decide +kernel⟩

/-- Premises of RefusedHeaders met, clause by clause. -/
theorem witness_refusedHeaders :
    (let k : Cmd := Cmd.plain 0x104 false []; let p : Packet := wp 0x104 false [1];
     let s : State := ws (fun c => { c with taken := [wp 0x104 false [1]] }); let st : Nat := 3;
     p.opcode.toNat = k.op ∧ p ∈ s.dev.c.taken ∧ s.dev.c.blocked p = false ∧ (s.dev.c.begun p).check k p = some st) ∧
    (let k : Cmd := Cmd.plain 0x104 false []; let p : Packet := { wp 0x104 false [] with rsv := true };
     let s : State := ws (fun c => { c with taken := [{ wp 0x104 false [] with rsv := true }] }); let st : Nat := 2;
     p.opcode.toNat = k.op ∧ p ∈ s.dev.c.taken ∧ s.dev.c.blocked p = false ∧ (s.dev.c.begun p).check k p = some st ∧
     headerOk p = false) ∧
    (let k : Cmd := Cmd.plain 0x104 false []; let p : Packet := wp 0x104 false [1];
     let s : State := ws (fun c => { c with taken := [wp 0x104 false [1]] }); let st : Nat := 3;
     p.opcode.toNat = k.op ∧ p ∈ s.dev.c.taken ∧ s.dev.c.blocked p = false ∧ (s.dev.c.begun p).check k p = some st ∧
     headerOk p = true ∧ k.lenOk p = false) ∧
    (let k : Cmd := Cmd.plain 0x219 false [64]; let p : Packet := wp 0x219 false [0];
     let s : State := ws (fun c => { c with devState := .starting, taken := [wp 0x219 false [0]] }); let st : Nat := 6;
     p.opcode.toNat = k.op ∧ p ∈ s.dev.c.taken ∧ s.dev.c.blocked p = false ∧ (s.dev.c.begun p).check k p = some st ∧
     headerOk p = true ∧ k.lenOk p = true ∧ p.ctxv = k.ctxv ∧ (k.ctxv = false → p.ctx = 0) ∧ st ≠ 4 ∧
     s.dev.c.accepts k.op = false) ∧
    (let k : Cmd := Cmd.plain 0x103 false [1]; let p : Packet := wp 0x103 false [2];
     let s : State := ws (fun c => { c with taken := [wp 0x103 false [2]] }); let st : Nat := 8;
     p.opcode.toNat = k.op ∧ p ∈ s.dev.c.taken ∧ s.dev.c.blocked p = false ∧ (s.dev.c.begun p).check k p = some st ∧
     headerOk p = true ∧ k.lenOk p = true ∧ p.ctxv = k.ctxv ∧ (k.ctxv = false → p.ctx = 0) ∧ st ≠ 4 ∧
     s.dev.c.accepts k.op = true) ∧
    (let k : Cmd := Cmd.plain 0x104 false []; let p : Packet := wp 0x104 false [1];
     let s : State := ws (fun c => { c with taken := [wp 0x104 false [1]] }); let st : Nat := 3;
     p.opcode.toNat = k.op ∧ p ∈ s.dev.c.taken ∧ s.dev.c.blocked p = false ∧ (s.dev.c.begun p).check k p = some st) := by
  refine ⟨by decide +kernel, by decide +kernel, by decide +kernel, by decide +kernel, by decide +kernel, by decide +kernel⟩

/-- Premises of ReplyRecord met, clause by clause. -/
theorem witness_replyRecord :
    (let c : Core := wCore; let p : Packet := { wp 0x104 false [] with reply := 64 };
     p.reply ≠ 0 ∧ p.reply.toNat % 64 = 0 ∧ c.reach p.reply.toNat 64 = true ∧ p.wantsVec = false ∧ p.chain = false ∧
     (∀ x, x ∈ c.chains → x.pkt ≠ p)) := by
  decide +kernel

/-- Premises of DeviceCommands met, clause by clause. -/
theorem witness_deviceCommands :
    (let s : State := ws id; let p : Packet := wp 0x101 false [64]; let c : Core := s.dev.c.arrive p;
     s.dev.begins (Cmd.plain 0x101 false [64]) p c ∧ p.arg 0 % 64 = 0 ∧
     c.reach (p.arg 0) (s.dev.setC c).infoRecord.length = true) ∧
    (let s : State := ws id; let p : Packet := wp 0x101 false [1]; let c : Core := s.dev.c.arrive p;
     s.dev.begins (Cmd.plain 0x101 false [64]) p c ∧ p.arg 0 % 64 ≠ 0) ∧
    (let s : State := ws (fun c => { c with unreach := [(0, 4096)] }); let p : Packet := wp 0x101 false [64];
     let c : Core := s.dev.c.arrive p;
     s.dev.begins (Cmd.plain 0x101 false [64]) p c ∧ p.arg 0 % 64 = 0 ∧
     c.reach (p.arg 0) (s.dev.setC c).infoRecord.length = false) ∧
    (let s : State := ws id; let p : Packet := wp 0x102 false [64]; let c : Core := s.dev.c.arrive p;
     s.dev.begins (Cmd.plain 0x102 false [64]) p c ∧ p.arg 0 % 64 = 0 ∧
     c.reach (p.arg 0) (s.dev.setC c).statusRecord.length = true) ∧
    (let s : State := wx (fun x => { x with job := some wJob }); let p : Packet := wp 0x103 false [0];
     let c : Core := s.dev.c.arrive p;
     s.dev.begins (Cmd.plain 0x103 false [1]) p c ∧ c.anyJob = true ∧ p.arg 0 = 0) ∧
    (let s : State := wx (fun x => { x with job := some wJob }); let p : Packet := wp 0x103 false [1];
     let c : Core := s.dev.c.arrive p;
     s.dev.begins (Cmd.plain 0x103 false [1]) p c ∧ (c.anyJob = false ∨ p.arg 0 ≠ 0)) ∧
    (let s : State := ws id; let p : Packet := wp 0x104 false []; let c : Core := s.dev.c.arrive p;
     s.dev.begins (Cmd.plain 0x104 false []) p c) := by
  refine ⟨?_, ?_, ?_, ?_, ?_, ?_, ?_⟩
  · dsimp only; exact ⟨begins_of (by decide +kernel), by decide +kernel, by decide +kernel⟩
  · dsimp only; exact ⟨begins_of (by decide +kernel), by decide +kernel⟩
  · dsimp only; exact ⟨begins_of (by decide +kernel), by decide +kernel, by decide +kernel⟩
  · dsimp only; exact ⟨begins_of (by decide +kernel), by decide +kernel, by decide +kernel⟩
  · dsimp only; exact ⟨begins_of (by decide +kernel), by decide +kernel, by decide +kernel⟩
  · dsimp only; exact ⟨begins_of (by decide +kernel), by decide +kernel⟩
  · dsimp only; exact begins_of (by decide +kernel)

/-- Premises of ContextCommands met, clause by clause. -/
theorem witness_contextCommands :
    (let s : State := ws id; let p : Packet := wp 0x201 true [0]; let c : Core := s.dev.c.arrive p; let x : Ctx := wCtx;
     s.dev.begins (Cmd.plain 0x201 true [1]) p c ∧ c.ctx? p.ctxNum = some x) ∧
    (let s : State := ws (fun c => { c with ctxs := [] }); let p : Packet := wp 0x201 true [1];
     let c : Core := s.dev.c.arrive p;
     s.dev.begins (Cmd.plain 0x201 true [1]) p c ∧ c.ctx? p.ctxNum = none ∧ p.arg 0 = 1 ∧ s.dev.tr.ideOk = false) ∧
    (let s : State := ws (fun c => { c with ctxs := [] }); let p : Packet := wp 0x201 true [0];
     let c : Core := s.dev.c.arrive p;
     s.dev.begins (Cmd.plain 0x201 true [1]) p c ∧ c.ctx? p.ctxNum = none ∧ (p.arg 0 = 0 ∨ s.dev.tr.ideOk = true)) ∧
    (let s : State := wx (fun x => { x with job := some wJob }); let p : Packet := wp 0x202 true [];
     let c : Core := s.dev.c.arrive p; let x : Ctx := { wCtx with job := some wJob };
     s.dev.begins (Cmd.plain 0x202 true []) p c ∧ c.ctx? p.ctxNum = some x ∧ x.job.isSome = true) ∧
    (let s : State := wx (fun x => { x with run := some wRun }); let p : Packet := wp 0x202 true [];
     let c : Core := s.dev.c.arrive p; let x : Ctx := { wCtx with run := some wRun };
     s.dev.begins (Cmd.plain 0x202 true []) p c ∧ c.ctx? p.ctxNum = some x ∧ x.job = none ∧ x.run.isSome = true) ∧
    (let s : State := ws id; let p : Packet := wp 0x202 true []; let c : Core := s.dev.c.arrive p; let x : Ctx := wCtx;
     s.dev.begins (Cmd.plain 0x202 true []) p c ∧ c.ctx? p.ctxNum = some x ∧ x.job = none ∧ x.run = none) ∧
    (let s : State := ws id; let p : Packet := wp 0x203 true [0]; let c : Core := s.dev.c.arrive p;
     s.dev.begins (Cmd.plain 0x203 true [64]) p c ∧ p.arg 0 % 64 = 0 ∧
     c.reach (p.arg 0) (s.dev.setC c).statusRecord.length = true) ∧
    (let s : State := ws id; let p : Packet := wp 0x204 true [1, 1]; let c : Core := s.dev.c.arrive p; let x : Ctx := wCtx;
     s.dev.begins (Cmd.plain 0x204 true [64, 1]) p c ∧ c.ctx? p.ctxNum = some x ∧
     (x.conf = true ∨ p.arg 0 % 2 ^ 30 ≠ 0 ∨ 2 ^ 45 ≤ p.arg 0)) ∧
    (let s : State := ws id; let p : Packet := wp 0x204 true [2 ^ 30, 1]; let c : Core := s.dev.c.arrive p;
     let x : Ctx := wCtx;
     s.dev.begins (Cmd.plain 0x204 true [64, 1]) p c ∧ c.ctx? p.ctxNum = some x ∧ x.conf = false ∧ p.arg 0 % 2 ^ 30 = 0 ∧
     p.arg 0 < 2 ^ 45 ∧ p.arg 1 = 1) ∧
    (let s : State := ws (fun c => { c with window := some (0, 2 ^ 30) }); let p : Packet := wp 0x204 true [0, 0];
     let c : Core := s.dev.c.arrive p; let x : Ctx := wCtx; let b := 2 ^ 30;
     s.dev.begins (Cmd.plain 0x204 true [64, 1]) p c ∧ c.ctx? p.ctxNum = some x ∧ x.conf = false ∧ p.arg 0 % 2 ^ 30 = 0 ∧
     p.arg 0 < 2 ^ 45 ∧ p.arg 1 = 0 ∧ c.window = some (p.ctxNum, b)) := by
  refine ⟨?_, ?_, ?_, ?_, ?_, ?_, ?_, ?_, ?_, ?_⟩
  · dsimp only; exact ⟨begins_of (by decide +kernel), by decide +kernel⟩
  · dsimp only; exact ⟨begins_of (by decide +kernel), by decide +kernel, by decide +kernel, by decide +kernel⟩
  · dsimp only; exact ⟨begins_of (by decide +kernel), by decide +kernel, by decide +kernel⟩
  · dsimp only; exact ⟨begins_of (by decide +kernel), by decide +kernel, by decide +kernel⟩
  · dsimp only; exact ⟨begins_of (by decide +kernel), by decide +kernel, by decide +kernel, by decide +kernel⟩
  · dsimp only; exact ⟨begins_of (by decide +kernel), by decide +kernel, by decide +kernel, by decide +kernel⟩
  · dsimp only; exact ⟨begins_of (by decide +kernel), by decide +kernel, by decide +kernel⟩
  · dsimp only; exact ⟨begins_of (by decide +kernel), by decide +kernel, by decide +kernel⟩
  · dsimp only; exact ⟨begins_of (by decide +kernel), by decide +kernel, by decide +kernel, by decide +kernel,
      by decide +kernel, by decide +kernel⟩
  · dsimp only; exact ⟨begins_of (by decide +kernel), by decide +kernel, by decide +kernel, by decide +kernel,
      by decide +kernel, by decide +kernel, by decide +kernel⟩

/-- Premises of PoolCommands met, clause by clause. -/
theorem witness_poolCommands :
    (let s : State := ws id; let p : Packet := wp 0x210 true [8193, 0]; let c : Core := s.dev.c.arrive p;
     let x : Ctx := wCtx;
     s.dev.begins (Cmd.plain 0x210 true [64, 64]) p c ∧ c.ctx? p.ctxNum = some x ∧ (8192 < p.arg 0 ∨ 8192 < p.arg 1)) ∧
    (let s : State := ws id; let p : Packet := wp 0x210 true [8192, 8192]; let c : Core := s.dev.c.arrive p;
     let x : Ctx := wCtx;
     s.dev.begins (Cmd.plain 0x210 true [64, 64]) p c ∧ c.ctx? p.ctxNum = some x ∧ p.arg 0 ≤ 8192 ∧ p.arg 1 ≤ 8192 ∧
     x.objs = [] ∧ x.progs = [] ∧ (∀ m, m < 24 → c.stackOk m = true → x.floorUsed m ≤ p.arg 0 ∧
     p.arg 0 ≤ 32752 - (c.retired.filter (fun r => r.1 = m && 16 ≤ r.2)).length - (c.ctxs.map (fun e => if e.1 = p.ctxNum then 0 else e.2.floorIn m)).sum)) ∧
    (let s : State := ws id; let p : Packet := wp 0x211 true [1, 1, 0, 0]; let c : Core := s.dev.c.arrive p;
     let st := 0x241;
     s.dev.begins (Cmd.plain 0x211 true [64, 64, 64, 64]) p c ∧
     c.allocRefusal p.ctxNum (p.arg 0) (p.arg 1) (p.arg 2) (p.arg 3) = some st) ∧
    (let s : State := ws id; let p : Packet := wp 0x211 true [0, 1, 2, 0]; let c : Core := s.dev.c.arrive p;
     let x : Ctx := wCtx; let o : Obj := wObj; let idx := (s.dev.c.arrive p).freeIndex p.ctxNum |>.getD 0;
     s.dev.begins (Cmd.plain 0x211 true [64, 64, 64, 64]) p c ∧
     c.allocRefusal p.ctxNum (p.arg 0) (p.arg 1) (p.arg 2) (p.arg 3) = none ∧ c.freeIndex p.ctxNum = some idx ∧
     (winLo ≤ p.arg 0 ∨ p.arg 3 = 1 ∨ p.arg 2 = 2) ∧ c.ctx? p.ctxNum = some x ∧
     (∀ o, o ∈ x.objs → overlaps (p.arg 0) (p.arg 1 * plotBytes) o.2.base o.2.size = false)) ∧
    (let s : State := ws id; let p : Packet := wp 0x212 true [1]; let c : Core := s.dev.c.arrive p; let x : Ctx := wCtx;
     s.dev.begins (Cmd.plain 0x212 true [64]) p c ∧ c.ctx? p.ctxNum = some x ∧ x.objOf p.ctxNum (p.arg 0) = none) ∧
    (let s : State := wx (fun x => { x with objs := [(1, wObj)], pages := [(0, { Page.unused with mem := true })] });
     let p : Packet := wp 0x212 true [1]; let c : Core := s.dev.c.arrive p;
     let x : Ctx := { wCtx with objs := [(1, wObj)], pages := [(0, { Page.unused with mem := true })] }; let i : Nat := 1;
     let o : Obj := wObj;
     s.dev.begins (Cmd.plain 0x212 true [64]) p c ∧ c.names p x i o ∧ x.pagesIn o = true) ∧
    (let s : State := wx (fun x => { x with objs := [(1, wObj)], run := some wRun }); let p : Packet := wp 0x212 true [1];
     let c : Core := s.dev.c.arrive p; let x : Ctx := { wCtx with objs := [(1, wObj)], run := some wRun };
     let i : Nat := 1; let o : Obj := wObj;
     s.dev.begins (Cmd.plain 0x212 true [64]) p c ∧ c.names p x i o ∧ x.pagesIn o = false ∧ x.run.isSome = true) ∧
    (let s : State := wx (fun x => { x with objs := [(1, wObj)] }); let p : Packet := wp 0x212 true [1];
     let c : Core := s.dev.c.arrive p; let x : Ctx := { wCtx with objs := [(1, wObj)] }; let i : Nat := 1;
     let o : Obj := wObj;
     s.dev.begins (Cmd.plain 0x212 true [64]) p c ∧ c.names p x i o ∧ x.pagesIn o = false ∧ x.run = none ∧ o.moving = false) ∧
    (let s : State := wx (fun x => { x with objs := [(1, { wObj with plots := [{ PlotEnt.blank with st := .leaving, phys := 16, frame := some 5 }], st := .evicting })] });
     let p : Packet := wp 0x212 true [1]; let c : Core := s.dev.c.arrive p;
     let x : Ctx := { wCtx with objs := [(1, { wObj with plots := [{ PlotEnt.blank with st := .leaving, phys := 16, frame := some 5 }], st := .evicting })] };
     let i : Nat := 1;
     let o : Obj := { wObj with plots := [{ PlotEnt.blank with st := .leaving, phys := 16, frame := some 5 }], st := .evicting };
     s.dev.begins (Cmd.plain 0x212 true [64]) p c ∧ c.names p x i o ∧ x.pagesIn o = false ∧ x.run = none ∧ o.moving = true) ∧
    (let s : State := wx (fun x => { x with objs := [(1, { wObj with floor := true, st := .pinned })] });
     let p : Packet := wp 0x213 true [1, 4]; let c : Core := s.dev.c.arrive p;
     let x : Ctx := { wCtx with objs := [(1, { wObj with floor := true, st := .pinned })] }; let i : Nat := 1;
     let o : Obj := { wObj with floor := true, st := .pinned };
     s.dev.begins (Cmd.plain 0x213 true [64, 64]) p c ∧ c.names p x i o ∧ p.arg 1 < 5 ∧ o.window = false ∧
     x.isSpill p.ctxNum i o = false ∧ (o.floor = true ∨ (p.arg 1 = 4 ∧ o.st = .pinned))) ∧
    (let s : State := wx (fun x => { x with objs := [(1, wObj)], floorQ := 1 }); let p : Packet := wp 0x213 true [1, 4];
     let c : Core := s.dev.c.arrive p; let x : Ctx := { wCtx with objs := [(1, wObj)], floorQ := 1 }; let i : Nat := 1;
     let o : Obj := wObj;
     s.dev.begins (Cmd.plain 0x213 true [64, 64]) p c ∧ c.names p x i o ∧ p.arg 1 = 4 ∧ o.window = false ∧
     x.isSpill p.ctxNum i o = false ∧ o.floor = false ∧ o.st ≠ .pinned ∧ c.pinFits x i o = true) ∧
    (let s : State := wx (fun x => { x with objs := [(1, wObj)] }); let p : Packet := wp 0x213 true [1, 4];
     let c : Core := s.dev.c.arrive p; let x : Ctx := { wCtx with objs := [(1, wObj)] }; let i : Nat := 1;
     let o : Obj := wObj;
     s.dev.begins (Cmd.plain 0x213 true [64, 64]) p c ∧ c.names p x i o ∧ p.arg 1 = 4 ∧ o.window = false ∧
     x.isSpill p.ctxNum i o = false ∧ o.floor = false ∧ o.st ≠ .pinned ∧ c.pinFits x i o = false) ∧
    (let s : State := wx (fun x => { x with objs := [(1, wObj)] }); let p : Packet := wp 0x213 true [1, 3];
     let c : Core := s.dev.c.arrive p; let x : Ctx := { wCtx with objs := [(1, wObj)] }; let i : Nat := 1;
     let o : Obj := wObj;
     s.dev.begins (Cmd.plain 0x213 true [64, 64]) p c ∧ c.names p x i o ∧ p.arg 1 < 4 ∧ o.window = false ∧
     x.isSpill p.ctxNum i o = false ∧ o.floor = false) ∧
    (let s : State := wx (fun x => { x with objs := [(1, wObj)] }); let p : Packet := wp 0x214 true [1, 0, 1];
     let c : Core := s.dev.c.arrive p; let x : Ctx := { wCtx with objs := [(1, wObj)] }; let i : Nat := 1;
     let o : Obj := wObj;
     s.dev.begins (Cmd.plain 0x214 true [64, 64, 64]) p c ∧ c.names p x i o ∧ o.window = false ∧
     x.isSpill p.ctxNum i o = false ∧ o.floor = false ∧ 1 ≤ p.arg 2 ∧ p.arg 1 + p.arg 2 ≤ o.plots.length) ∧
    (let s : State := wx (fun x => { x with objs := [(1, wObj)] }); let p : Packet := wp 0x214 true [1, 0, 2];
     let c : Core := s.dev.c.arrive p; let x : Ctx := { wCtx with objs := [(1, wObj)] }; let i : Nat := 1;
     let o : Obj := wObj;
     s.dev.begins (Cmd.plain 0x214 true [64, 64, 64]) p c ∧ c.names p x i o ∧ o.window = false ∧
     x.isSpill p.ctxNum i o = false ∧ o.plots.length < p.arg 1 + p.arg 2) ∧
    (let s : State := wx (fun x => { x with objs := [(1, { wObj with floor := true })] });
     let p : Packet := wp 0x215 true [1]; let c : Core := s.dev.c.arrive p;
     let x : Ctx := { wCtx with objs := [(1, { wObj with floor := true })] }; let i : Nat := 1;
     let o : Obj := { wObj with floor := true };
     s.dev.begins (Cmd.plain 0x215 true [64]) p c ∧ c.names p x i o ∧
     (o.window = true ∨ o.floor = true ∨ o.st = .pinned ∨ x.isSpill p.ctxNum i o = true)) ∧
    (let s : State := ws (fun c => { c with ctxs := [(0, { wCtx with objs := [(1, wObj)] })], frames := [(5, { ctx := 0, spill := true, addr := 0, holds := false })] });
     let p : Packet := wp 0x215 true [1]; let c : Core := s.dev.c.arrive p;
     let x : Ctx := { wCtx with objs := [(1, wObj)] }; let i : Nat := 1; let o : Obj := wObj;
     s.dev.begins (Cmd.plain 0x215 true [64]) p c ∧ c.names p x i o ∧ o.window = false ∧ o.floor = false ∧
     x.isSpill p.ctxNum i o = false ∧ x.conf = false ∧ o.st = .resident ∧ o.residentPlots ≠ [] ∧
     o.residentPlots.length ≤ (c.freeFrames p.ctxNum).length) ∧
    (let s : State := wx (fun x => { x with objs := [(1, wObj)] }); let p : Packet := wp 0x215 true [1];
     let c : Core := s.dev.c.arrive p; let x : Ctx := { wCtx with objs := [(1, wObj)] }; let i : Nat := 1;
     let o : Obj := wObj;
     s.dev.begins (Cmd.plain 0x215 true [64]) p c ∧ c.names p x i o ∧ o.window = false ∧ o.floor = false ∧
     x.isSpill p.ctxNum i o = false ∧ x.conf = false ∧ o.st = .resident ∧ o.residentPlots ≠ [] ∧
     (c.freeFrames p.ctxNum).length < o.residentPlots.length) ∧
    (let s : State := wx (fun x => { x with objs := [(1, { wObj with st := .promoting })] });
     let p : Packet := wp 0x215 true [1]; let c : Core := s.dev.c.arrive p;
     let x : Ctx := { wCtx with objs := [(1, { wObj with st := .promoting })] }; let i : Nat := 1;
     let o : Obj := { wObj with st := .promoting };
     s.dev.begins (Cmd.plain 0x215 true [64]) p c ∧ c.names p x i o ∧ o.window = false ∧ o.floor = false ∧
     x.isSpill p.ctxNum i o = false ∧ x.conf = false ∧ o.st = .promoting) ∧
    (let s : State := wx (fun x => { x with objs := [(1, { wObj with plots := [{ PlotEnt.blank with st := .leaving, phys := 16, frame := some 5 }], st := .evicting })] });
     let p : Packet := wp 0x215 true [1]; let c : Core := s.dev.c.arrive p;
     let x : Ctx := { wCtx with objs := [(1, { wObj with plots := [{ PlotEnt.blank with st := .leaving, phys := 16, frame := some 5 }], st := .evicting })] };
     let i : Nat := 1;
     let o : Obj := { wObj with plots := [{ PlotEnt.blank with st := .leaving, phys := 16, frame := some 5 }], st := .evicting };
     s.dev.begins (Cmd.plain 0x215 true [64]) p c ∧ c.names p x i o ∧ o.window = false ∧ o.floor = false ∧
     x.isSpill p.ctxNum i o = false ∧ x.conf = false ∧ o.st = .evicting) ∧
    (let s : State := wx (fun x => { x with objs := [(1, { wObj with plots := [{ PlotEnt.blank with st := .host, frame := some 5 }], st := .host })] });
     let p : Packet := wp 0x215 true [1]; let c : Core := s.dev.c.arrive p;
     let x : Ctx := { wCtx with objs := [(1, { wObj with plots := [{ PlotEnt.blank with st := .host, frame := some 5 }], st := .host })] };
     let i : Nat := 1;
     let o : Obj := { wObj with plots := [{ PlotEnt.blank with st := .host, frame := some 5 }], st := .host };
     s.dev.begins (Cmd.plain 0x215 true [64]) p c ∧ c.names p x i o ∧ o.window = false ∧ o.floor = false ∧
     x.isSpill p.ctxNum i o = false ∧ x.conf = false ∧ (o.st = .resident ∨ o.st = .host) ∧ o.residentPlots = []) ∧
    (let s : State := wx (fun x => { x with objs := [(1, wObj)] }); let p : Packet := wp 0x216 true [1, 64];
     let c : Core := s.dev.c.arrive p; let x : Ctx := { wCtx with objs := [(1, wObj)] }; let i : Nat := 1;
     let o : Obj := wObj;
     s.dev.begins (Cmd.plain 0x216 true [64, 64]) p c ∧ c.names p x i o ∧ p.arg 1 % 64 = 0 ∧
     c.reach (p.arg 1) (objRecord x.conf (x.isSpill p.ctxNum i o) p.ctxNum i o).length = true) := by
  refine ⟨?_, ?_, ?_, ?_, ?_, ?_, ?_, ?_, ?_, ?_, ?_, ?_, ?_, ?_, ?_, ?_, ?_, ?_, ?_, ?_, ?_, ?_⟩
  · dsimp only; exact ⟨begins_of (by decide +kernel), by decide +kernel, by decide +kernel⟩
  · dsimp only; exact ⟨begins_of (by decide +kernel), by decide +kernel, by decide +kernel, by decide +kernel,
      by decide +kernel, by decide +kernel, by decide +kernel⟩
  · dsimp only; exact ⟨begins_of (by decide +kernel), by decide +kernel⟩
  · dsimp only; exact ⟨begins_of (by decide +kernel), by decide +kernel,
      some_of (a := 0) (by unfold Core.freeIndex; exact pick_isSome (by decide +kernel)), by decide +kernel, by decide +kernel,
      fun o h => nomatch h⟩
  · dsimp only; exact ⟨begins_of (by decide +kernel), by decide +kernel, by decide +kernel⟩
  · dsimp only; exact ⟨begins_of (by decide +kernel), ⟨by decide +kernel, by decide +kernel⟩, by decide +kernel⟩
  · dsimp only; exact ⟨begins_of (by decide +kernel), ⟨by decide +kernel, by decide +kernel⟩, by decide +kernel,
      by decide +kernel⟩
  · dsimp only; exact ⟨begins_of (by decide +kernel), ⟨by decide +kernel, by decide +kernel⟩, by decide +kernel,
      by decide +kernel, by decide +kernel⟩
  · dsimp only; exact ⟨begins_of (by decide +kernel), ⟨by decide +kernel, by decide +kernel⟩, by decide +kernel,
      by decide +kernel, by decide +kernel⟩
  · dsimp only; exact ⟨begins_of (by decide +kernel), ⟨by decide +kernel, by decide +kernel⟩, by decide +kernel,
      by decide +kernel, by decide +kernel, by decide +kernel⟩
  · dsimp only; exact ⟨begins_of (by decide +kernel), ⟨by decide +kernel, by decide +kernel⟩, by decide +kernel,
      by decide +kernel, by decide +kernel, by decide +kernel, by decide +kernel, by decide +kernel⟩
  · dsimp only; exact ⟨begins_of (by decide +kernel), ⟨by decide +kernel, by decide +kernel⟩, by decide +kernel,
      by decide +kernel, by decide +kernel, by decide +kernel, by decide +kernel, by decide +kernel⟩
  · dsimp only; exact ⟨begins_of (by decide +kernel), ⟨by decide +kernel, by decide +kernel⟩, by decide +kernel,
      by decide +kernel, by decide +kernel, by decide +kernel⟩
  · dsimp only; exact ⟨begins_of (by decide +kernel), ⟨by decide +kernel, by decide +kernel⟩, by decide +kernel,
      by decide +kernel, by decide +kernel, by decide +kernel, by decide +kernel⟩
  · dsimp only; exact ⟨begins_of (by decide +kernel), ⟨by decide +kernel, by decide +kernel⟩, by decide +kernel,
      by decide +kernel, by decide +kernel⟩
  · dsimp only; exact ⟨begins_of (by decide +kernel), ⟨by decide +kernel, by decide +kernel⟩, by decide +kernel⟩
  · dsimp only; exact ⟨begins_of (by decide +kernel), ⟨by decide +kernel, by decide +kernel⟩, by decide +kernel,
      by decide +kernel, by decide +kernel, by decide +kernel, by decide +kernel, by decide +kernel, by decide +kernel⟩
  · dsimp only; exact ⟨begins_of (by decide +kernel), ⟨by decide +kernel, by decide +kernel⟩, by decide +kernel,
      by decide +kernel, by decide +kernel, by decide +kernel, by decide +kernel, by decide +kernel, by decide +kernel⟩
  · dsimp only; exact ⟨begins_of (by decide +kernel), ⟨by decide +kernel, by decide +kernel⟩, by decide +kernel,
      by decide +kernel, by decide +kernel, by decide +kernel, by decide +kernel⟩
  · dsimp only; exact ⟨begins_of (by decide +kernel), ⟨by decide +kernel, by decide +kernel⟩, by decide +kernel,
      by decide +kernel, by decide +kernel, by decide +kernel, by decide +kernel⟩
  · dsimp only; exact ⟨begins_of (by decide +kernel), ⟨by decide +kernel, by decide +kernel⟩, by decide +kernel,
      by decide +kernel, by decide +kernel, by decide +kernel, by decide +kernel, by decide +kernel⟩
  · dsimp only; exact ⟨begins_of (by decide +kernel), ⟨by decide +kernel, by decide +kernel⟩, by decide +kernel,
      by decide +kernel⟩

/-- Premises of FrameAndMarkCommands met, clause by clause. -/
theorem witness_frameAndMarkCommands :
    (let s : State := ws id; let p : Packet := wp 0x217 true [8388607, 1, 1, 0x200000]; let c : Core := s.dev.c.arrive p;
     s.dev.begins { op := 0x217, ctxv := true, widths := [64, 64, 64], list := some (0, 509) } p c ∧ 1 ≤ p.arg 1 ∧
     p.arg 1 ≤ 256 ∧ p.arg 0 + p.arg 1 ≤ frameCount ∧ p.arg 2 < 2 ∧ p.plen.toNat = 8 * (3 + p.arg 1) ∧
     (∀ i, i < p.arg 1 → kget c.frames (p.arg 0 + i) = none ∧ p.arg (3 + i) % plotBytes = 0)) ∧
    (let s : State := ws id; let p : Packet := wp 0x217 true [8388607, 1, 1, 1]; let c : Core := s.dev.c.arrive p;
     s.dev.begins { op := 0x217, ctxv := true, widths := [64, 64, 64], list := some (0, 509) } p c ∧ 1 ≤ p.arg 1 ∧
     p.arg 1 ≤ 256 ∧ p.arg 0 + p.arg 1 ≤ frameCount ∧ p.arg 2 < 2 ∧ p.plen.toNat = 8 * (3 + p.arg 1) ∧ (∃ i, i < p.arg 1 ∧
     (kget c.frames (p.arg 0 + i) ≠ none ∨ p.arg (3 + i) % plotBytes ≠ 0))) ∧
    (let s : State := ws (fun c => { c with frames := [(5, { ctx := 0, spill := true, addr := 0, holds := false })] });
     let p : Packet := wp 0x218 true [5, 1]; let c : Core := s.dev.c.arrive p; let x : Ctx := wCtx;
     s.dev.begins (Cmd.plain 0x218 true [64, 64]) p c ∧ c.ctx? p.ctxNum = some x ∧ p.arg 0 + p.arg 1 ≤ frameCount ∧
     (∀ i, i < p.arg 1 → ∃ fr, kget c.frames (p.arg 0 + i) = some fr ∧ x.frameFree p.ctxNum (p.arg 0 + i) fr = true)) ∧
    (let s : State := ws id; let p : Packet := wp 0x218 true [5, 1]; let c : Core := s.dev.c.arrive p; let x : Ctx := wCtx;
     s.dev.begins (Cmd.plain 0x218 true [64, 64]) p c ∧ c.ctx? p.ctxNum = some x ∧ p.arg 0 + p.arg 1 ≤ frameCount ∧
     (∃ i, i < p.arg 1 ∧ ∀ fr, kget c.frames (p.arg 0 + i) = some fr → x.frameFree p.ctxNum (p.arg 0 + i) fr = false)) ∧
    (let s : State := ws id; let p : Packet := wp 0x219 false [64]; let c : Core := s.dev.c.arrive p;
     s.dev.begins (Cmd.plain 0x219 false [64]) p c ∧ p.arg 0 % 64 = 0 ∧ c.reach (p.arg 0) c.poolRecord.length = true) ∧
    (let s : State := ws id; let p : Packet := wp 0x21A false [8192, 8192]; let c : Core := s.dev.c.arrive p;
     s.dev.begins (Cmd.plain 0x21A false [64, 64]) p c ∧ p.arg 0 ≤ p.arg 1 ∧ p.arg 1 ≤ 8192) ∧
    (let s : State := ws id; let p : Packet := wp 0x21A false [2, 1]; let c : Core := s.dev.c.arrive p;
     s.dev.begins (Cmd.plain 0x21A false [64, 64]) p c ∧ (p.arg 1 < p.arg 0 ∨ 8192 < p.arg 0 ∨ 8192 < p.arg 1)) := by
  refine ⟨?_, ?_, ?_, ?_, ?_, ?_, ?_⟩
  · dsimp only; exact ⟨begins_of (by decide +kernel), by decide +kernel, by decide +kernel, by decide +kernel,
      by decide +kernel, by decide +kernel, by decide +kernel⟩
  · dsimp only; exact ⟨begins_of (by decide +kernel), by decide +kernel, by decide +kernel, by decide +kernel,
      by decide +kernel, by decide +kernel, by decide +kernel⟩
  · dsimp only; exact ⟨begins_of (by decide +kernel), by decide +kernel, by decide +kernel,
      by intro i hi; obtain rfl : i = 0 := (by have h : i < 1 := hi; omega); exact ⟨_, rfl, by decide +kernel⟩⟩
  · dsimp only; exact ⟨begins_of (by decide +kernel), by decide +kernel, by decide +kernel,
      ⟨0, by decide +kernel, by intro fr h; cases h⟩⟩
  · dsimp only; exact ⟨begins_of (by decide +kernel), by decide +kernel, by decide +kernel⟩
  · dsimp only; exact ⟨begins_of (by decide +kernel), by decide +kernel, by decide +kernel⟩
  · dsimp only; exact ⟨begins_of (by decide +kernel), by decide +kernel⟩

/-- Premises of PlotMoves met, clause by clause. -/
theorem witness_plotMoves :
    (let s : State := ws (fun c => { c with frames := [(5, { ctx := 0, spill := true, addr := 0, holds := true })], ctxs := [(0, { wCtx with objs := [(1, { wObj with st := .evicting, plots := [{ PlotEnt.blank with st := .leaving, phys := 16, frame := some 5 }] })] })] });
     let n : Nat := 0; let plot : Nat := 0; let i : Nat := 1; let k : Nat := 0;
     let x : Ctx := { wCtx with objs := [(1, { wObj with st := .evicting, plots := [{ PlotEnt.blank with st := .leaving, phys := 16, frame := some 5 }] })] };
     let o : Obj := { wObj with st := .evicting, plots := [{ PlotEnt.blank with st := .leaving, phys := 16, frame := some 5 }] };
     let e : PlotEnt := { PlotEnt.blank with st := .leaving, phys := 16, frame := some 5 };
     n < 16 ∧ s.dev.c.entryAt n plot = some (i, k, o, e) ∧ s.dev.c.ctx? n = some x ∧ e.st = .leaving ∧
     x.isSpill n i o = false ∧ s.dev.stacksUp = true ∧ x.maySpill = true) ∧
    (let s : State := ws (fun c => { c with frames := [(5, { ctx := 0, spill := true, addr := 0, holds := true })], ctxs := [(0, { wCtx with conf := true, objs := [(1, { wObj with st := .evicting, plots := [{ PlotEnt.blank with st := .leaving, phys := 16, frame := some 5 }] })] })] });
     let n : Nat := 0; let plot : Nat := 0; let i : Nat := 1; let k : Nat := 0;
     let x : Ctx := { wCtx with conf := true, objs := [(1, { wObj with st := .evicting, plots := [{ PlotEnt.blank with st := .leaving, phys := 16, frame := some 5 }] })] };
     let o : Obj := { wObj with st := .evicting, plots := [{ PlotEnt.blank with st := .leaving, phys := 16, frame := some 5 }] };
     let e : PlotEnt := { PlotEnt.blank with st := .leaving, phys := 16, frame := some 5 };
     n < 16 ∧ s.dev.c.entryAt n plot = some (i, k, o, e) ∧ s.dev.c.ctx? n = some x ∧ e.st = .leaving ∧
     x.isSpill n i o = false ∧ s.dev.stacksUp = true ∧ x.maySpill = false) ∧
    (let s : State := ws (fun c => { c with ctxs := [(0, { wCtx with objs := [(1, { wObj with st := .evicting })] })] });
     let n : Nat := 0; let i : Nat := 1; let o : Obj := { wObj with st := .evicting };
     let e : PlotEnt := { PlotEnt.blank with st := .leaving, phys := 16, frame := some 5 }; let c : Core := s.dev.c;
     c.obj? n i = some o ∧ (∀ e, e ∈ o.plots → e.st ≠ .leaving) ∧ o.st = .evicting) ∧
    (let s : State := ws (fun c => { c with frames := [(5, { ctx := 0, spill := true, addr := 0, holds := true })], ctxs := [(0, { wCtx with objs := [(1, { wObj with st := .evicting, plots := [{ PlotEnt.blank with st := .leaving, phys := 16, frame := some 5 }] })], spill := 1 })] });
     let n : Nat := 0; let plot : Nat := 0; let i : Nat := 1; let k : Nat := 0;
     let x : Ctx := { wCtx with objs := [(1, { wObj with st := .evicting, plots := [{ PlotEnt.blank with st := .leaving, phys := 16, frame := some 5 }] })], spill := 1 };
     let o : Obj := { wObj with st := .evicting, plots := [{ PlotEnt.blank with st := .leaving, phys := 16, frame := some 5 }] };
     let e : PlotEnt := { PlotEnt.blank with st := .leaving, phys := 16, frame := some 5 };
     n < 16 ∧ s.dev.c.entryAt n plot = some (i, k, o, e) ∧ s.dev.c.ctx? n = some x ∧ e.st = .leaving ∧
     x.isSpill n i o = true ∧ s.dev.stacksUp = true ∧ x.maySpill = true) ∧
    (let s : State := ws (fun c => { c with frames := [(5, { ctx := 0, spill := true, addr := 0, holds := true })], ctxs := [(0, { wCtx with objs := [(1, { wObj with st := .evicting, plots := [{ PlotEnt.blank with st := .leaving, phys := 16, frame := some 5 }] })] })] });
     let n : Nat := 0;
     n < 16 ∧ s.dev.stacksUp = true) ∧
    (let s : State := ws (fun c => { c with frames := [(5, { ctx := 0, spill := true, addr := 0, holds := true })], ctxs := [(0, { wCtx with objs := [(1, { wObj with st := .evicting, plots := [{ PlotEnt.blank with st := .leaving, phys := 16, frame := some 5 }] })] })] });
     let stack := 23;
     stack < 24 ∧ s.dev.c.stackOk stack = true ∧ 5 ≤ s.dev.c.stage ∧ s.dev.pw.coreGood = true ∧ s.dev.stacksUp = true) ∧
    (let phys := 32767;
     let s : State := ws (fun c => { c with frames := [(5, { ctx := 0, spill := true, addr := 0, holds := true })], ctxs := [(0, { wCtx with objs := [(1, { wObj with st := .evicting, plots := [{ PlotEnt.blank with st := .leaving, phys := 16, frame := some 5 }] })] })] });
     let stack := 23;
     stack < 24 ∧ phys < 32768 ∧ s.dev.stacksUp = true ∧ (s.dev.c.retireDone stack phys).tooRetired stack = false) ∧
    (let s : State := ws (fun c => { c with retired := (List.range 513).map (fun i => (23, i)) }); let stack := 23;
     let phys := 32767;
     stack < 24 ∧ phys < 32768 ∧ s.dev.stacksUp = true ∧ (s.dev.c.retireDone stack phys).tooRetired stack = true) := by
  refine ⟨by decide +kernel, by decide +kernel, by decide +kernel, by decide +kernel, by decide +kernel, by decide +kernel,
      by decide +kernel, by decide +kernel⟩

/-- Premises of PageCommands met, clause by clause. -/
theorem witness_pageCommands :
    (let s : State := ws (fun c => { c with ctxs := [(0, { wCtx with floorF := 1 })] });
     let p : Packet := wp 0x230 true [1024]; let c : Core := s.dev.c.arrive p; let x : Ctx := { wCtx with floorF := 1 };
     let c2 := ((({ c with copies := c.copies.filter (fun k => k.ctx ≠ p.ctxNum) } : Core).modCtx p.ctxNum (fun x => { x with tabPlots := x.tabPlots.filter (fun t => t.table ≠ 8), absent := x.absent.filter (fun t => t ≠ 8), pages := [], freeLists := [], kvEntries := some (p.arg 0) })).placeTable p.ctxNum 8 (cdiv (32 * p.arg 0) plotBytes)).getD c;
     s.dev.begins (Cmd.plain 0x230 true [64]) p c ∧ c.ctx? p.ctxNum = some x ∧ isPow2 (p.arg 0) = true ∧ 1024 ≤ p.arg 0 ∧
     p.arg 0 ≤ 1048576 ∧ x.run = none ∧
     (({ c with copies := c.copies.filter (fun k => k.ctx ≠ p.ctxNum) } : Core).modCtx p.ctxNum (fun x => { x with tabPlots := x.tabPlots.filter (fun t => t.table ≠ 8), absent := x.absent.filter (fun t => t ≠ 8), pages := [], freeLists := [], kvEntries := some (p.arg 0) })).placeTable p.ctxNum 8 (cdiv (32 * p.arg 0) plotBytes) = some c2) ∧
    (let s : State := ws id; let p : Packet := wp 0x230 true [1000]; let c : Core := s.dev.c.arrive p; let x : Ctx := wCtx;
     s.dev.begins (Cmd.plain 0x230 true [64]) p c ∧ c.ctx? p.ctxNum = some x ∧
     (isPow2 (p.arg 0) = false ∨ p.arg 0 < 1024 ∨ 1048576 < p.arg 0)) ∧
    (let s : State := ws (fun c => { c with ctxs := [(0, xPage ({ wPage .free with mem := false }))] });
     let p : Packet := wp 0x231 true [0, 1, 0, 1, 0]; let c : Core := s.dev.c.arrive p;
     let x : Ctx := xPage ({ wPage .free with mem := false }); let i := 1; let o := wObj;
     s.dev.begins (Cmd.plain 0x231 true [64, 64, 3, 64, 64]) p c ∧ c.hasPages p x (p.arg 0) (p.arg 1) ∧
     x.objOf p.ctxNum (p.arg 3) = some (i, o) ∧ o.window = false ∧ (o.base + p.arg 4) % pageSize (p.arg 2) = 0 ∧
     p.arg 4 + p.arg 1 * pageSize (p.arg 2) ≤ o.size ∧ (∀ j, j < p.arg 1 → (x.page (p.arg 0 + j)).st = .free ∧
     (x.page (p.arg 0 + j)).mem = false)) ∧
    (let s : State := ws (fun c => { c with ctxs := [(0, xPage (wPage .free))] }); let p : Packet := wp 0x232 true [0];
     let c : Core := s.dev.c.arrive p; let x : Ctx := xPage (wPage .free);
     s.dev.begins (Cmd.plain 0x232 true [64]) p c ∧ c.hasPages p x (p.arg 0) 1 ∧ (x.page (p.arg 0)).st = .free ∧
     (x.page (p.arg 0)).mem = true) ∧
    (let s : State := ws (fun c => { c with ctxs := [(0, xPage (wPage .free))] }); let p : Packet := wp 0x232 true [1024];
     let c : Core := s.dev.c.arrive p; let x : Ctx := xPage (wPage .free); let e := 1024;
     s.dev.begins (Cmd.plain 0x232 true [64]) p c ∧ c.ctx? p.ctxNum = some x ∧ 8 ∉ x.absent ∧ x.kvEntries = some e ∧
     e < p.arg 0 + 1) ∧
    (let s : State := ws (fun c => { c with ctxs := [(0, xPage (wPage .live))] }); let p : Packet := wp 0x233 true [0];
     let c : Core := s.dev.c.arrive p; let x : Ctx := xPage (wPage .live);
     s.dev.begins (Cmd.plain 0x233 true [64]) p c ∧ c.hasPages p x (p.arg 0) 1 ∧ (x.page (p.arg 0)).inService = true ∧
     (x.page (p.arg 0)).refs < 65535) ∧
    (let s : State := ws (fun c => { c with ctxs := [(0, xPage ({ wPage .live with refs := 65535 }))] });
     let p : Packet := wp 0x233 true [0]; let c : Core := s.dev.c.arrive p;
     let x : Ctx := xPage ({ wPage .live with refs := 65535 });
     s.dev.begins (Cmd.plain 0x233 true [64]) p c ∧ c.hasPages p x (p.arg 0) 1 ∧ (x.page (p.arg 0)).inService = true ∧
     65535 ≤ (x.page (p.arg 0)).refs) ∧
    (let s : State := ws (fun c => { c with ctxs := [(0, xPage ({ wPage .shared with refs := 1 }))] });
     let p : Packet := wp 0x234 true [0]; let c : Core := s.dev.c.arrive p;
     let x : Ctx := xPage ({ wPage .shared with refs := 1 });
     s.dev.begins (Cmd.plain 0x234 true [64]) p c ∧ c.hasPages p x (p.arg 0) 1 ∧ (x.page (p.arg 0)).inService = true ∧
     0 < (x.page (p.arg 0)).refs) ∧
    (let s : State := ws (fun c => { c with ctxs := [(0, xPage ({ wPage .live with pins := 1 }))] });
     let p : Packet := wp 0x235 true [0, 1, 0, 0, 0, 0, 0]; let c : Core := s.dev.c.arrive p;
     let x : Ctx := xPage ({ wPage .live with pins := 1 });
     s.dev.begins (Cmd.plain 0x235 true [64, 64, 32, 32, 16, 8, 8]) p c ∧ c.hasPages p x (max (p.arg 0) (p.arg 1)) 1 ∧
     ((x.page (p.arg 0)).st = .live ∨ (x.page (p.arg 0)).st = .shared) ∧ (x.page (p.arg 1)).st = .free ∧
     (x.page (p.arg 1)).mem = false ∧ (x.page (p.arg 0)).pins ≠ 0) ∧
    (let s : State := ws (fun c => { c with ctxs := [(0, xPage (wPage .live))] });
     let p : Packet := wp 0x235 true [0, 1, 0, 0, 0, 0, 0]; let c : Core := s.dev.c.arrive p;
     let x : Ctx := xPage (wPage .live);
     s.dev.begins (Cmd.plain 0x235 true [64, 64, 32, 32, 16, 8, 8]) p c ∧ c.hasPages p x (max (p.arg 0) (p.arg 1)) 1 ∧
     ((x.page (p.arg 0)).st = .live ∨ (x.page (p.arg 0)).st = .shared) ∧ (x.page (p.arg 1)).st = .free ∧
     (x.page (p.arg 1)).mem = false ∧ (x.page (p.arg 0)).pins = 0) ∧
    (let s : State := ws (fun c => { c with ctxs := [(0, xPage (wPage .fallow))] });
     let p : Packet := wp 0x236 true [0, 0]; let c : Core := s.dev.c.arrive p; let x : Ctx := xPage (wPage .fallow);
     let a := 0; let c0 := (c.hbmRead p.ctxNum a (pageSize (x.page (p.arg 0)).cls)).1;
     let b := okOr (c0.readBytes p.ctxNum a (pageSize (x.page (p.arg 0)).cls)) [];
     let c1 := (c0.giveMemory p.ctxNum (p.arg 0)).getD c;
     let c2 := okOr (c1.writeBytes p.ctxNum (c1.page p.ctxNum (p.arg 0)).addr b) c1;
     s.dev.begins (Cmd.plain 0x236 true [64, 64]) p c ∧ c.hasPages p x (p.arg 0) 1 ∧ (x.page (p.arg 0)).st = .fallow ∧
     c.localOf (p.arg 1) = some a ∧ a % 256 = 0 ∧ c0.giveMemory p.ctxNum (p.arg 0) = some c1 ∧
     c0.readBytes p.ctxNum a (pageSize (x.page (p.arg 0)).cls) = .ok b ∧
     c1.writeBytes p.ctxNum (c1.page p.ctxNum (p.arg 0)).addr b = .ok c2) ∧
    (let s : State := ws (fun c => { c with ctxs := [(0, xPage (wPage .live))] });
     let p : Packet := wp 0x237 true [0, 1, 64]; let c : Core := s.dev.c.arrive p; let x : Ctx := xPage (wPage .live);
     let r := (List.range (p.arg 1)).flatMap (fun i => x.pageBytes (p.arg 0 + i));
     s.dev.begins (Cmd.plain 0x237 true [64, 64, 64]) p c ∧ c.hasPages p x (p.arg 0) (p.arg 1) ∧ p.arg 2 % 64 = 0 ∧
     c.reach (p.arg 2) r.length = true) ∧
    (let n := 0;
     n < 16) := by
  refine ⟨?_, ?_, ?_, ?_, ?_, ?_, ?_, ?_, ?_, ?_, ?_, ?_, by decide +kernel⟩
  · dsimp only; exact ⟨begins_of (by decide +kernel), by decide +kernel, by decide +kernel, by decide +kernel,
      by decide +kernel, by decide +kernel, some_of (placeTable_one (by decide +kernel) rfl (by decide +kernel))⟩
  · dsimp only; exact ⟨begins_of (by decide +kernel), by decide +kernel, by decide +kernel⟩
  · dsimp only; exact ⟨begins_of (by decide +kernel), ⟨by decide +kernel, by decide +kernel, _, rfl, by decide +kernel⟩,
      by decide +kernel, by decide +kernel, by decide +kernel, by decide +kernel, by decide +kernel⟩
  · dsimp only; exact ⟨begins_of (by decide +kernel), ⟨by decide +kernel, by decide +kernel, _, rfl, by decide +kernel⟩,
      by decide +kernel, by decide +kernel⟩
  · dsimp only; exact ⟨begins_of (by decide +kernel), by decide +kernel, by decide +kernel, by decide +kernel,
      by decide +kernel⟩
  · dsimp only; exact ⟨begins_of (by decide +kernel), ⟨by decide +kernel, by decide +kernel, _, rfl, by decide +kernel⟩,
      by decide +kernel, by decide +kernel⟩
  · dsimp only; exact ⟨begins_of (by decide +kernel), ⟨by decide +kernel, by decide +kernel, _, rfl, by decide +kernel⟩,
      by decide +kernel, by decide +kernel⟩
  · dsimp only; exact ⟨begins_of (by decide +kernel), ⟨by decide +kernel, by decide +kernel, _, rfl, by decide +kernel⟩,
      by decide +kernel, by decide +kernel⟩
  · dsimp only; exact ⟨begins_of (by decide +kernel), ⟨by decide +kernel, by decide +kernel, _, rfl, by decide +kernel⟩,
      by decide +kernel, by decide +kernel, by decide +kernel, by decide +kernel⟩
  · dsimp only; exact ⟨begins_of (by decide +kernel), ⟨by decide +kernel, by decide +kernel, _, rfl, by decide +kernel⟩,
      by decide +kernel, by decide +kernel, by decide +kernel, by decide +kernel⟩
  · dsimp only; exact ⟨begins_of (by decide +kernel), ⟨by decide +kernel, by decide +kernel, _, rfl, by decide +kernel⟩,
      by decide +kernel, by decide +kernel, by decide +kernel, by decide +kernel, (readBytes_len (by decide +kernel)).1,
      ok_of (writeBytes_isOk (len := 16384) ((readBytes_len (by decide +kernel)).2.trans (by decide +kernel)) (by decide +kernel))⟩
  · dsimp only; exact ⟨begins_of (by decide +kernel), ⟨by decide +kernel, by decide +kernel, _, rfl, by decide +kernel⟩,
      by decide +kernel, by decide +kernel⟩

/-- Premises of ProgramCommands met, clause by clause. -/
theorem witness_programCommands :
    (let s : State := ws (fun c => { c with hbm := hb (zeros 8 ++ [32] ++ zeros 503), ctxs := [(0, { wCtx with floorF := 1, objs := [(1, wObj)] })] });
     let p : Packet := wp 0x301 true [0, 1]; let c : Core := s.dev.c.arrive p;
     let x : Ctx := { wCtx with floorF := 1, objs := [(1, wObj)] }; let b := (zeros 8 ++ [32] ++ zeros 503);
     let f := (loadRefusal x.strict (toUnits b (b.length / 16))).getD (0, 0);
     s.dev.begins (Cmd.plain 0x301 true [2, 64]) p c ∧ c.ctx? p.ctxNum = some x ∧ x.dataKey = none ∧
     kget x.progs (p.arg 0) = none ∧ (c.checkObj p.ctxNum (p.arg 1) 0 (2 ^ 28)).imageOf p.ctxNum (p.arg 1) = .ok b ∧
     loadRefusal x.strict (toUnits b (b.length / 16)) = some f) ∧
    (let s : State := ws (fun c => { c with hbm := hb wImage, ctxs := [(0, { wCtx with floorF := 1, objs := [(1, wObj)] })] });
     let p : Packet := wp 0x301 true [0, 1]; let c : Core := s.dev.c.arrive p;
     let x : Ctx := { wCtx with floorF := 1, objs := [(1, wObj)] }; let c0 := c.checkObj p.ctxNum (p.arg 1) 0 (2 ^ 28);
     let b := wImage; let us := toUnits b (b.length / 16);
     let c1 := (c0.placeArea p.ctxNum (p.arg 0) { units := us, trees := progTrees us, area := [], measure := Config.sha384 b, unfit := false } (cdiv b.length plotBytes)).getD c;
     s.dev.begins (Cmd.plain 0x301 true [2, 64]) p c ∧ c.ctx? p.ctxNum = some x ∧ x.dataKey = none ∧
     kget x.progs (p.arg 0) = none ∧ c0.imageOf p.ctxNum (p.arg 1) = .ok b ∧ loadRefusal x.strict us = none ∧
     c0.fits us = true ∧ c0.treesFit p.ctxNum (progTrees us) = true ∧
     c0.placeArea p.ctxNum (p.arg 0) { units := us, trees := progTrees us, area := [], measure := Config.sha384 b, unfit := false } (cdiv b.length plotBytes) = some c1) ∧
    (let s : State := ws (fun c => { c with disabled := [.region 0, .region 1], hbm := hb wImage, ctxs := [(0, { wCtx with floorF := 1, objs := [(1, wObj)] })] });
     let p : Packet := wp 0x301 true [0, 1]; let c : Core := s.dev.c.arrive p;
     let x : Ctx := { wCtx with floorF := 1, objs := [(1, wObj)] }; let c0 := c.checkObj p.ctxNum (p.arg 1) 0 (2 ^ 28);
     let b := wImage; let us := toUnits b (b.length / 16);
     s.dev.begins (Cmd.plain 0x301 true [2, 64]) p c ∧ c.ctx? p.ctxNum = some x ∧ x.dataKey = none ∧
     kget x.progs (p.arg 0) = none ∧ c0.imageOf p.ctxNum (p.arg 1) = .ok b ∧ loadRefusal x.strict us = none ∧
     (c0.fits us = false ∨ c0.treesFit p.ctxNum (progTrees us) = false)) ∧
    (let s : State := ws (fun c => { c with ctxs := [(0, { wCtx with dataKey := some { keyId := 0, key := [], spillCtr := 0, sealCtr := 0 } })] });
     let p : Packet := wp 0x301 true [0, 1]; let c : Core := s.dev.c.arrive p;
     let x : Ctx := { wCtx with dataKey := some { keyId := 0, key := [], spillCtr := 0, sealCtr := 0 } };
     s.dev.begins (Cmd.plain 0x301 true [2, 64]) p c ∧ c.ctx? p.ctxNum = some x ∧ x.dataKey.isSome = true) ∧
    (let s : State := ws id; let p : Packet := wp 0x302 true [0, 1, 1, 1]; let c : Core := s.dev.c.arrive p;
     let x : Ctx := wCtx;
     s.dev.begins (Cmd.plain 0x302 true [2, 40, 64, 64]) p c ∧ c.ctx? p.ctxNum = some x ∧ kget x.progs (p.arg 0) = none) ∧
    (let s : State := ws (fun c => { c with ctxs := [(0, { wCtx with progs := [(0, { wProg 5 with unfit := true })] })] });
     let p : Packet := wp 0x302 true [0, 1, 1, 1]; let c : Core := s.dev.c.arrive p;
     let x : Ctx := { wCtx with progs := [(0, { wProg 5 with unfit := true })] }; let g := { wProg 5 with unfit := true };
     s.dev.begins (Cmd.plain 0x302 true [2, 40, 64, 64]) p c ∧ c.ctx? p.ctxNum = some x ∧ kget x.progs (p.arg 0) = some g ∧
     x.run = none ∧ (g.unfit = true ∨ c.treesFit p.ctxNum g.trees = false)) ∧
    (let s : State := ws (fun c => { c with cur := some 5, ctxs := [(0, { wCtx with progs := [(0, wProg 5)] })] });
     let p : Packet := wp 0x302 true [0, 1, 1, 1]; let c : Core := s.dev.c.arrive p;
     let x : Ctx := { wCtx with progs := [(0, wProg 5)] }; let g := wProg 5;
     let c1 := (c.modCtx p.ctxNum (fun x => { x with stopped := false, vnode := x.vnode.atRun (p.arg 1) x.lastStep, run := some (Run.start (p.arg 0) p (hdrField g.units 0x0C 3)) })).wait p .run;
     s.dev.begins (Cmd.plain 0x302 true [2, 40, 64, 64]) p c ∧ c.ctx? p.ctxNum = some x ∧ kget x.progs (p.arg 0) = some g ∧
     x.run = none ∧ g.unfit = false ∧ c.treesFit p.ctxNum g.trees = true ∧ c1.cur ≠ none) ∧
    (let s : State := ws (fun c => { c with ctxs := [(0, { wCtx with progs := [(0, wProg 5)] })] });
     let p : Packet := wp 0x302 true [0, 1, 1, 1]; let c : Core := s.dev.c.arrive p;
     let x : Ctx := { wCtx with progs := [(0, wProg 5)] }; let g := wProg 5;
     let c1 := (c.modCtx p.ctxNum (fun x => { x with stopped := false, vnode := x.vnode.atRun (p.arg 1) x.lastStep, run := some (Run.start (p.arg 0) p (hdrField g.units 0x0C 3)) })).wait p .run;
     s.dev.begins (Cmd.plain 0x302 true [2, 40, 64, 64]) p c ∧ c.ctx? p.ctxNum = some x ∧ kget x.progs (p.arg 0) = some g ∧
     x.run = none ∧ g.unfit = false ∧ c.treesFit p.ctxNum g.trees = true ∧ c1.cur = none) ∧
    (let s : State := ws (fun c => { c with ctxs := [(0, { wCtx with run := some wRun })] });
     let p : Packet := wp 0x303 true []; let c : Core := s.dev.c.arrive p;
     s.dev.begins (Cmd.plain 0x303 true []) p c ∧ c.runStarted p.ctxNum = true) ∧
    (let s : State := ws id; let p : Packet := wp 0x303 true []; let c : Core := s.dev.c.arrive p;
     s.dev.begins (Cmd.plain 0x303 true []) p c ∧ c.runStarted p.ctxNum = false) ∧
    (let s : State := ws (fun c => { c with ctxs := [(0, { wCtx with progs := [(0, wProg 5)] })] });
     let p : Packet := wp 0x304 true [0]; let c : Core := s.dev.c.arrive p;
     let x : Ctx := { wCtx with progs := [(0, wProg 5)] };
     s.dev.begins (Cmd.plain 0x304 true [2]) p c ∧ c.ctx? p.ctxNum = some x ∧ x.dataKey = none ∧
     (kget x.progs (p.arg 0)).isSome = true ∧ (∀ r, x.run = some r → r.slot ≠ p.arg 0)) ∧
    (let s : State := ws (fun c => { c with ctxs := [(0, { wCtx with run := some wRun, progs := [(0, wProg 5)] })] });
     let p : Packet := wp 0x304 true [0]; let c : Core := s.dev.c.arrive p;
     let x : Ctx := { wCtx with run := some wRun, progs := [(0, wProg 5)] }; let r := wRun;
     s.dev.begins (Cmd.plain 0x304 true [2]) p c ∧ c.ctx? p.ctxNum = some x ∧ x.dataKey = none ∧ x.run = some r ∧
     r.slot = p.arg 0) ∧
    (let s : State := ws id; let p : Packet := wp 0x305 true [1]; let c : Core := s.dev.c.arrive p;
     s.dev.begins (Cmd.plain 0x305 true [16]) p c) := by
  refine ⟨?_, ?_, ?_, ?_, ?_, ?_, ?_, ?_, ?_, ?_, ?_, ?_, ?_⟩
  · dsimp only; exact ⟨begins_of (by decide +kernel), by decide +kernel, by decide +kernel, by decide +kernel,
      ok_is (by decide +kernel), by decide +kernel⟩
  · dsimp only; exact ⟨begins_of (by decide +kernel), by decide +kernel, by decide +kernel, by decide +kernel,
      ok_is (by decide +kernel), by decide +kernel, by decide +kernel, by decide +kernel,
      some_of (placeArea_one (by decide +kernel) rfl (by decide +kernel))⟩
  · dsimp only; exact ⟨begins_of (by decide +kernel), by decide +kernel, by decide +kernel, by decide +kernel,
      ok_is (by decide +kernel), by decide +kernel, by decide +kernel⟩
  · dsimp only; exact ⟨begins_of (by decide +kernel), by decide +kernel, by decide +kernel⟩
  · dsimp only; exact ⟨begins_of (by decide +kernel), by decide +kernel, by decide +kernel⟩
  · dsimp only; exact ⟨begins_of (by decide +kernel), by decide +kernel, by decide +kernel, by decide +kernel,
      by decide +kernel⟩
  · dsimp only; exact ⟨begins_of (by decide +kernel), by decide +kernel, by decide +kernel, by decide +kernel,
      by decide +kernel, by decide +kernel, by decide +kernel⟩
  · dsimp only; exact ⟨begins_of (by decide +kernel), by decide +kernel, by decide +kernel, by decide +kernel,
      by decide +kernel, by decide +kernel, by decide +kernel⟩
  · dsimp only; exact ⟨begins_of (by decide +kernel), by decide +kernel⟩
  · dsimp only; exact ⟨begins_of (by decide +kernel), by decide +kernel⟩
  · dsimp only; exact ⟨begins_of (by decide +kernel), by decide +kernel, by decide +kernel, by decide +kernel,
      by decide +kernel⟩
  · dsimp only; exact ⟨begins_of (by decide +kernel), by decide +kernel, by decide +kernel, by decide +kernel,
      by decide +kernel⟩
  · dsimp only; exact begins_of (by decide +kernel)

/-- Premises of RecordIssue met, clause by clause. -/
theorem witness_recordIssue :
    (let s : State := sRun wRun (1 + 2 ^ 63); let n : Nat := 0; let r : Run := wRun; let g : Prog := wProg (1 + 2 ^ 63);
     let h := g.units.getD r.pc 0; let f (len : Nat) : Core := s.dev.c.fetch r g len;
     let ws := (recWaits h).map (fun t => (t, TokPlace.chip));
     s.dev.c.running? = some (n, r, g) ∧ recClass h = 1 ∧ s.dev.c.mayIssue r = true ∧
     (f (recLen h)).fetchPoisoned r g (recLen h) = false ∧ (f (recLen h)).waitsMet none ws = false) ∧
    (let s : State := sRun ({ wRun with settling := true }) (1); let n : Nat := 0;
     let r : Run := { wRun with settling := true }; let g : Prog := wProg (1); let h := g.units.getD r.pc 0;
     s.dev.c.running? = some (n, r, g) ∧ recClass h = 1 ∧ s.dev.c.mayIssue r = false) ∧
    (let s : State := ws (fun c => { c with ctxs := [(0, { wCtx with run := some wRun, progs := [(0, { wProg 1 with area := [(0, 16)] })] })], cur := some 0, words := [(16 * 32768 + 4, ⟨0, 0, 0, true⟩)] });
     let n : Nat := 0; let r : Run := wRun; let g : Prog := { wProg 1 with area := [(0, 16)] };
     let h := g.units.getD r.pc 0; let f (len : Nat) : Core := s.dev.c.fetch r g len;
     s.dev.c.running? = some (n, r, g) ∧ recClass h = 1 ∧ s.dev.c.mayIssue r = true ∧
     (f (recLen h)).fetchPoisoned r g (recLen h) = true) ∧
    (let s : State := sRun wRun (1); let n : Nat := 0; let r : Run := wRun; let g : Prog := wProg (1);
     let h := g.units.getD r.pc 0; let f (len : Nat) : Core := s.dev.c.fetch r g len;
     let ws := (recWaits h).map (fun t => (t, TokPlace.chip)); let c := f (recLen h); let acts := c.sliceOf g.units n r;
     let pend := slicePend h acts r.inst;
     s.dev.c.running? = some (n, r, g) ∧ recClass h = 1 ∧ s.dev.c.mayIssue r = true ∧
     (f (recLen h)).fetchPoisoned r g (recLen h) = false ∧ (f (recLen h)).waitsMet none ws = true ∧
     (∀ e, e ∈ pend → e.left ≠ 0)) ∧
    (let s : State := sRun wRun (2 + 256); let n : Nat := 0; let r : Run := wRun; let g : Prog := wProg (2 + 256);
     let h := g.units.getD r.pc 0; let f (len : Nat) : Core := s.dev.c.fetch r g len;
     let ws := (recWaits h).map (fun t => (t, TokPlace.chip));
     s.dev.c.running? = some (n, r, g) ∧ recClass h = 2 ∧ s.dev.c.mayIssue r = true ∧ (f 2).fetchPoisoned r g 2 = false ∧
     (f 2).waitsMet none ws = true ∧ recSig h = none) ∧
    (let s : State := sRun ({ wRun with forks := [20] }) (3); let n : Nat := 0; let r : Run := { wRun with forks := [20] };
     let g : Prog := wProg (3); let h := g.units.getD r.pc 0; let f (len : Nat) : Core := s.dev.c.fetch r g len;
     let j := 20; let rest := [];
     s.dev.c.running? = some (n, r, g) ∧ recClass h = 3 ∧ s.dev.c.mayIssue r = true ∧ (f 1).fetchPoisoned r g 1 = false ∧
     r.forks = j :: rest) ∧
    (let s : State := sRun wRun (4); let n : Nat := 0; let r : Run := wRun; let g : Prog := wProg (4);
     let h := g.units.getD r.pc 0; let f (len : Nat) : Core := s.dev.c.fetch r g len;
     s.dev.c.running? = some (n, r, g) ∧ recClass h = 4 ∧ r.step.abandon = none ∧ s.dev.c.mayMove r = true ∧
     (f 1).fetchPoisoned r g 1 = false) ∧
    (let s : State := sRun ({ wRun with step := { StepSt.fresh with abandon := some 1 } }) (4); let n : Nat := 0;
     let r : Run := { wRun with step := { StepSt.fresh with abandon := some 1 } }; let g : Prog := wProg (4);
     let r1 := r.toSettle g.units (4 * g.units.length + 4);
     s.dev.c.running? = some (n, r, g) ∧ r.step.abandon.isSome = true ∧ recClass (g.units.getD r1.pc 0) = 4 ∧
     s.dev.c.mayMove r = true ∧ (s.dev.c.fetch r1 g 1).fetchPoisoned r1 g 1 = false) ∧
    (let s : State := sRun wRun (5); let n : Nat := 0; let r : Run := wRun; let g : Prog := wProg (5);
     let h := g.units.getD r.pc 0; let f (len : Nat) : Core := s.dev.c.fetch r g len;
     s.dev.c.running? = some (n, r, g) ∧ recClass h = 5 ∧ r.step.abandon = none ∧ s.dev.c.mayMove r = true ∧
     r.poison = false ∧ (f 1).fetchPoisoned r g 1 = false) := by
  refine ⟨by decide +kernel, by decide +kernel, by decide +kernel, by decide +kernel, by decide +kernel, by decide +kernel,
      by decide +kernel, by decide +kernel, by decide +kernel⟩

/-- Premises of ForkChoosesByThresholds met, clause by clause. -/
theorem witness_forkChoosesByThresholds :
    (let w : Nat := 5 * 2 ^ 80; let value : Nat := 0; let v : Nat := 3;
     v = b2n (forkT w 1 ≤ value) + b2n (forkT w 2 ≤ value) + b2n (forkT w 3 ≤ value) ∧ forkVar w v ≠ 0) ∧
    (let w : Nat := 5 * 2 ^ 80; let value : Nat := 0; let v : Nat := 3;
     v = b2n (forkT w 1 ≤ value) + b2n (forkT w 2 ≤ value) + b2n (forkT w 3 ≤ value)) ∧
    (let w : Nat := 5 * 2 ^ 80; let value : Nat := 0; let v : Nat := 3; let k := 3;
     v = b2n (forkT w 1 ≤ value) + b2n (forkT w 2 ≤ value) + b2n (forkT w 3 ≤ value) ∧ k ≤ v ∧ forkVar w k ≠ 0 ∧
     (∀ j, k < j → j ≤ v → forkVar w j = 0)) := by
  refine ⟨by decide +kernel, by decide +kernel, ?_⟩
  · dsimp only; exact ⟨by decide +kernel, by decide +kernel, by decide +kernel,
      by intro j h1 h2; exact absurd h2 (Nat.not_le_of_lt h1)⟩

/-- Premises of SettlePoint met, clause by clause. -/
theorem witness_settlePoint :
    (let s : State := ws id;
     s.dev.c.cur = none) ∧
    (let s : State := sRun wRun 4; let n := 0;
     s.dev.c.cur = some n ∧ s.dev.c.drained n = false) ∧
    (let s : State := sRun { wRun with settling := true } 4; let n := 0;
     s.dev.c.cur = some n ∧ s.dev.c.drained n = true) := by
  refine ⟨by decide +kernel, by decide +kernel, by decide +kernel⟩

/-- Premises of ColumnsAndTokens met, clause by clause. -/
theorem witness_columnsAndTokens :
    (let s : State := ws (fun c => { c with ctxs := [(0, { wCtx with run := some wRun })], cols := [(.cell 0 .f, { run := none, queue := [wAct (0x12 + 2 ^ 23)], dropped := false })] });
     let u : UnitId := .cell 0 .f; let c := s.dev.c;
     let col := { run := none, queue := [wAct (0x12 + 2 ^ 23)], dropped := false }; let a := wAct (0x12 + 2 ^ 23);
     let q := []; let r := wRun; let ws := (actWaits a.bits).map (fun w => (w.2, tokPlace u w.1));
     u.valid = true ∧ kget c.cols u = some col ∧ col.run = none ∧ col.queue = a :: q ∧ c.run? a.ctx = some r ∧
     r.halted = false ∧ r.step.abandon = none ∧ col.dropped = false ∧ c.verdictHeld a = false ∧
     (c.rget (injAddr u.sunit 0)) = 0 ∧ c.waitsMet (some u) ws = false) ∧
    (let s : State := ws (fun c => { c with ctxs := [(0, { wCtx with run := some wRun })], cols := [(.cell 0 .f, { run := none, queue := [wAct (0x12)], dropped := false })] });
     let u : UnitId := .cell 0 .f; let c := s.dev.c; let col := { run := none, queue := [wAct (0x12)], dropped := false };
     let a := wAct (0x12); let q := []; let r := wRun; let ws := (actWaits a.bits).map (fun w => (w.2, tokPlace u w.1));
     u.valid = true ∧ kget c.cols u = some col ∧ col.run = none ∧ col.queue = a :: q ∧ c.run? a.ctx = some r ∧
     r.halted = false ∧ r.step.abandon = none ∧ col.dropped = false ∧ c.verdictHeld a = false ∧
     (c.rget (injAddr u.sunit 0)) = 0 ∧ c.waitsMet (some u) ws = true) ∧
    (let s : State := ws (fun c => { c with ctxs := [(0, { wCtx with run := some { wRun with step := { StepSt.fresh with abandon := some 1 } } })], cols := [(.cell 0 .f, { run := none, queue := [wAct (0x12)], dropped := false })] });
     let u : UnitId := .cell 0 .f; let c := s.dev.c; let col := { run := none, queue := [wAct (0x12)], dropped := false };
     let a := wAct (0x12); let q := []; let r := { wRun with step := { StepSt.fresh with abandon := some 1 } };
     u.valid = true ∧ kget c.cols u = some col ∧ col.run = none ∧ col.queue = a :: q ∧ c.run? a.ctx = some r ∧
     r.halted = false ∧ r.step.abandon.isSome = true ∧ a.op ≠ 0x82) ∧
    (let s : State := wr (.cell 0 .f) (wRa 0x12) id; let u : UnitId := .cell 0 .f; let c := s.dev.c;
     let col := { run := some (wRa 0x12), queue := [], dropped := false }; let a := wRa 0x12;
     u.valid = true ∧ kget c.cols u = some col ∧ col.run = some a) ∧
    (let s : State := wr (.cell 0 .f) (wRa 0x12) id; let u : UnitId := .cell 0 .f; let c := s.dev.c;
     let col := { run := some (wRa 0x12), queue := [], dropped := false }; let r := wRa 0x12;
     u.valid = true ∧ kget c.cols u = some col ∧ c.running u = some r ∧ r.done = false) ∧
    (let s : State := wr (.cell 0 .f) ({ wRa 0x10 with done := true }) id; let u : UnitId := .cell 0 .f; let c := s.dev.c;
     let col := { run := some ({ wRa 0x10 with done := true }), queue := [], dropped := false };
     let r := { wRa 0x10 with done := true };
     u.valid = true ∧ kget c.cols u = some col ∧ c.running u = some r ∧ r.done = true ∧
     (∀ e, e ∈ c.evs → joins u r.a e = true → e.left ≠ 1)) ∧
    (let s : State := wr (.cell 0 .f) (wRa 0x10) id; let u : UnitId := .cell 0 .f; let c := s.dev.c; let r := wRa 0x10;
     u.valid = true ∧ c.running u = some r ∧ r.a.op % 16 = 0) ∧
    (let s : State := wr (.cell 0 .f) (wRa 0x11) id; let u : UnitId := .cell 0 .f; let c := s.dev.c; let r := wRa 0x11;
     let n := 0; let k := .f;
     u.valid = true ∧ u = .cell n k ∧ c.running u = some r ∧ r.a.op % 16 = 1 ∧ r.a.op < 0x60 ∧ r.done = false) := by
  refine ⟨by decide +kernel, by decide +kernel, by decide +kernel, by decide +kernel, by decide +kernel, by decide +kernel,
      by decide +kernel, by decide +kernel⟩

/-- Premises of TokenConservation met, clause by clause. -/
theorem witness_tokenConservation :
    (let s : State := ws id; let t : State := ws id; let u : UnitId := .cell 0 .f; let k := 0; let pl := TokPlace.chip;
     let v := (none : Option UnitId);
     (∀ k pl v, s.dev.c.consumed k pl v ≤ s.dev.c.events k pl) ∧ s.dev.c.rget (injAddr u.sunit 0) = 0 ∧
     exec (.actionBegin u) s = .next t) := by
  dsimp only; exact ⟨fun k pl v => Nat.zero_le _, by decide +kernel, rfl⟩

/-- Premises of Products met, clause by clause. -/
theorem witness_products :
    (let s : State := wr (.cell 0 .f) (wRa (pWord 0x12)) (fun c => { c with aps := wAps (.cell 0 .f) [0, 0x100, 0x3000] });
     let cell : Nat := 0; let r : RunAct := wRa (pWord 0x12);
     let j : ProdJob := okOr (s.dev.c.prepProduct cell (.cell cell .f) r.a) wProd; let c := s.dev.c;
     cell < 576 ∧ c.prodReady cell .f 0x12 r j) ∧
    (let s : State := wr (.cell 0 .b) (wRa (pWord 0x22)) (fun c => { c with aps := wAps (.cell 0 .b) [0, 0x100, 0x3000] });
     let cell : Nat := 0; let r : RunAct := wRa (pWord 0x22);
     let j : ProdJob := okOr (s.dev.c.prepProduct cell (.cell cell .b) r.a) wProd; let c := s.dev.c;
     cell < 576 ∧ c.prodReady cell .b 0x22 r j) ∧
    (let s : State := ws id; let cell : Nat := 0; let c := s.dev.c;
     cell < 576 ∧ c.active (.cell cell .f) 0x12 = none) ∧
    (let s : State := wr (.cell 0 .b) (wRa (pWord 0x22)) (fun c => { c with aps := wAps (.cell 0 .b) [] });
     let cell : Nat := 0; let r : RunAct := wRa (pWord 0x22); let c := s.dev.c; let e := (1, 0);
     cell < 576 ∧ c.active (.cell cell .b) 0x22 = some r ∧ c.prepProduct cell (.cell cell .b) r.a = .error e) ∧
    (let cell : Nat := 0;
     let s : State := wr (.cell 0 .f) { wRa (pWord 0x12) with a := { wAct (pWord 0x12) with inst := 1 } } (fun c => { c with aps := wAps (.cell 0 .f) [0, 0x100, 0x3000], wins := [{ cell := 0, fill := true, lo := 0, hi := 256, done := 0, inst := 0, word := 0, by_ := 0, owner := .f }] });
     let r : RunAct := { wRa (pWord 0x12) with a := { wAct (pWord 0x12) with inst := 1 } };
     let j : ProdJob := okOr (s.dev.c.prepProduct cell (.cell cell .f) r.a) wProd; let c := s.dev.c;
     cell < 576 ∧ c.active (.cell cell .f) 0x12 = some r ∧ c.prepProduct cell (.cell cell .f) r.a = .ok j ∧
     c.held cell r.a.inst j.reads [j.dst] = true) ∧
    (let s : State := wr (.cell 0 .f) (wRa (pWord 0x12)) (fun c => { c with aps := wAps (.cell 0 .f) [0x3000, 0, 0x3000] });
     let cell : Nat := 0; let r : RunAct := wRa (pWord 0x12);
     let j : ProdJob := okOr (s.dev.c.prepProduct cell (.cell cell .f) r.a) wProd; let c := s.dev.c;
     cell < 576 ∧ c.active (.cell cell .f) 0x12 = some r ∧ c.prepProduct cell (.cell cell .f) r.a = .ok j ∧
     c.held cell r.a.inst j.reads [j.dst] = false ∧ j.clash = true) ∧
    (let s : State := wr (.cell 0 .b) (wRa (pWord 0x22)) (fun c => { c with aps := wAps (.cell 0 .b) [0, 0x100, 0x3000] });
     let cell : Nat := 0; let r : RunAct := wRa (pWord 0x22);
     let j : ProdJob := okOr (s.dev.c.prepProduct cell (.cell cell .b) r.a) wProd; let c := s.dev.c;
     let p := j.go c.freeCtr;
     let x : Upset := { blk := none, det := 0, corrected := false, wher := 0x2000, synd := 0, wrong := none };
     cell < 576 ∧ c.prodReady cell .b 0x22 r j ∧ x.corrected = false ∧ x.blk = none ∧
     (∀ t, t ∈ p.tiles c → p.struck t x = false)) ∧
    (let s : State := wr (.cell 0 .f) (wRa (pWord 0x12)) (fun c => { c with aps := wAps (.cell 0 .f) [0, 0x100, 0x3000] });
     let cell : Nat := 0; let r : RunAct := wRa (pWord 0x12);
     let j : ProdJob := okOr (s.dev.c.prepProduct cell (.cell cell .f) r.a) wProd; let c := s.dev.c;
     let p := j.go c.freeCtr;
     let x : Upset := { blk := none, det := 0, corrected := false, wher := 0, synd := 0, wrong := none };
     let t := ((p.tiles c).headD (0, 0)); let ts := (p.tiles c).tail;
     cell < 576 ∧ c.prodReady cell .f 0x12 r j ∧ x.corrected = false ∧ x.blk = none ∧ p.tiles c = t :: ts ∧
     p.struck t x = true) := by
  refine ⟨?_, ?_, by decide +kernel, ?_, ?_, ?_, ?_, ?_⟩
  · dsimp only; exact ⟨by decide +kernel,
      ⟨by decide +kernel, ok_of (by decide +kernel), by decide +kernel, by decide +kernel, unarmed_of (by decide +kernel)⟩⟩
  · dsimp only; exact ⟨by decide +kernel,
      ⟨by decide +kernel, ok_of (by decide +kernel), by decide +kernel, by decide +kernel, unarmed_of (by decide +kernel)⟩⟩
  · dsimp only; exact ⟨by decide +kernel, by decide +kernel, err_of (by decide +kernel)⟩
  · dsimp only; exact ⟨by decide +kernel, by decide +kernel, ok_of (by decide +kernel), by decide +kernel⟩
  · dsimp only; exact ⟨by decide +kernel, by decide +kernel, ok_of (by decide +kernel), by decide +kernel, by decide +kernel⟩
  · dsimp only; exact ⟨by decide +kernel,
      ⟨by decide +kernel, ok_of (by decide +kernel), by decide +kernel, by decide +kernel, unarmed_of (by decide +kernel)⟩,
      by decide +kernel, by decide +kernel, by decide +kernel⟩
  · dsimp only; exact ⟨by decide +kernel,
      ⟨by decide +kernel, ok_of (by decide +kernel), by decide +kernel, by decide +kernel, unarmed_of (by decide +kernel)⟩,
      by decide +kernel, by decide +kernel, by decide +kernel, by decide +kernel⟩

/-- Premises of VectorActions met, clause by clause. -/
theorem witness_vectorActions :
    (let s : State := wr (.cell 0 .v) (wRa (vWord 0x32 0)) (fun c => { c with aps := wAps (.cell 0 .v) [0, 0x100, 0x200, 0x300] });
     let cell : Nat := 0; let r : RunAct := wRa (vWord 0x32 0);
     let j : VecJob := okOr (prepConvert s.dev.c (.cell cell .v) r.a) wVec;
     cell < 576 ∧ s.dev.c.vecReady cell 0x32 prepConvert r j) ∧
    (let s : State := wr (.cell 0 .v) (wRa (vWord 0x33 0)) (fun c => { c with aps := wAps (.cell 0 .v) [0, 0x100, 0x200, 0x300] });
     let cell : Nat := 0; let r : RunAct := wRa (vWord 0x33 0);
     let j : VecJob := okOr (prepSurvey s.dev.c (.cell cell .v) r.a) wVec;
     cell < 576 ∧ s.dev.c.vecReady cell 0x33 prepSurvey r j) ∧
    (let s : State := wr (.cell 0 .v) (wRa (vWord 0x34 0)) (fun c => { c with aps := wAps (.cell 0 .v) [0, 0x100, 0x200, 0x300] });
     let cell : Nat := 0; let r : RunAct := wRa (vWord 0x34 0);
     let j : VecJob := okOr (prepElem false s.dev.c (.cell cell .v) r.a) wVec;
     cell < 576 ∧ s.dev.c.vecReady cell 0x34 (prepElem false) r j) ∧
    (let s : State := wr (.cell 0 .v) (wRa (vWord 0x35 0)) (fun c => { c with aps := wAps (.cell 0 .v) [0, 0x100, 0x200, 0x300] });
     let cell : Nat := 0; let r : RunAct := wRa (vWord 0x35 0);
     let j : VecJob := okOr (prepElem true s.dev.c (.cell cell .v) r.a) wVec;
     cell < 576 ∧ s.dev.c.vecReady cell 0x35 (prepElem true) r j) ∧
    (let s : State := wr (.cell 0 .v) (wRa (vWord 0x36 0)) (fun c => { c with aps := wAps (.cell 0 .v) [0, 0x100, 0x200, 0x300] });
     let cell : Nat := 0; let r : RunAct := wRa (vWord 0x36 0);
     let j : VecJob := okOr (prepRow s.dev.c (.cell cell .v) r.a) wVec;
     cell < 576 ∧ s.dev.c.vecReady cell 0x36 prepRow r j) ∧
    (let s : State := wr (.cell 0 .v) (wRa (vWord 0x37 0)) (fun c => { c with aps := wAps (.cell 0 .v) [0, 0x100, 0x200, 0x300] });
     let cell : Nat := 0; let r : RunAct := wRa (vWord 0x37 0);
     let j : VecJob := okOr (prepOnline s.dev.c (.cell cell .v) r.a) wVec;
     cell < 576 ∧ s.dev.c.vecReady cell 0x37 prepOnline r j ∧ vFUNC r.a.bits = 0) ∧
    (let s : State := wr (.cell 0 .v) (wRa (vWord 0x37 1)) (fun c => { c with aps := wAps (.cell 0 .v) [0, 0x100, 0x200, 0x300] });
     let cell : Nat := 0; let r : RunAct := wRa (vWord 0x37 1);
     let j : VecJob := okOr (prepFinish s.dev.c (.cell cell .v) r.a) wVec;
     cell < 576 ∧ s.dev.c.vecReady cell 0x37 prepFinish r j ∧ vFUNC r.a.bits = 1) ∧
    (let s : State := wr (.cell 0 .v) (wRa (vWord 0x37 2)) (fun c => { c with sram := mputs [] 0x10100 (zeros 4), aps := wAps (.cell 0 .v) [0, 0x100, 0x200, 0x300] });
     let cell : Nat := 0; let r : RunAct := wRa (vWord 0x37 2);
     let j : VecJob := okOr (prepBackward s.dev.c (.cell cell .v) r.a) wVec;
     cell < 576 ∧ s.dev.c.vecReady cell 0x37 prepBackward r j ∧ vFUNC r.a.bits = 2) ∧
    (let s : State := wr (.cell 0 .v) (wRa (vWord 0x34 0)) (fun c => { c with aps := wAps (.cell 0 .v) [] });
     let cell : Nat := 0; let r : RunAct := wRa (vWord 0x34 0); let e := (1, 0);
     cell < 576 ∧ s.dev.c.active (.cell cell .v) 0x34 = some r ∧ prepElem false s.dev.c (.cell cell .v) r.a = .error e) ∧
    (let cell : Nat := 0;
     let s : State := wr (.cell 0 .v) ({ wRa (vWord 0x32 0) with a := { wAct (vWord 0x32 0) with inst := 1 } }) (fun c => { c with aps := wAps (.cell 0 .v) [0, 0x100, 0x200, 0x300], wins := [{ cell := 0, fill := true, lo := 0, hi := 256, done := 0, inst := 0, word := 0, by_ := 0, owner := .f }] });
     let r : RunAct := { wRa (vWord 0x32 0) with a := { wAct (vWord 0x32 0) with inst := 1 } };
     let j : VecJob := okOr (prepConvert s.dev.c (.cell cell .v) r.a) wVec;
     cell < 576 ∧ s.dev.c.active (.cell cell .v) 0x32 = some r ∧ prepConvert s.dev.c (.cell cell .v) r.a = .ok j ∧
     s.dev.c.held cell r.a.inst j.reads j.writes = true) ∧
    (let s : State := wr (.cell 0 .v) (wRa (vWord 0x35 0 + 2 ^ 108)) (fun c => { c with aps := wAps (.cell 0 .v) [0, 0x100, 0x100] });
     let cell : Nat := 0; let r : RunAct := wRa (vWord 0x35 0 + 2 ^ 108);
     let j : VecJob := okOr (prepElem true s.dev.c (.cell cell .v) r.a) wVec;
     cell < 576 ∧ s.dev.c.active (.cell cell .v) 0x35 = some r ∧ prepElem true s.dev.c (.cell cell .v) r.a = .ok j ∧
     s.dev.c.held cell r.a.inst j.reads j.writes = false ∧ j.clash = true) := by
  refine ⟨?_, ?_, ?_, ?_, ?_, ?_, ?_, ?_, ?_, ?_, ?_⟩
  · dsimp only; exact ⟨by decide +kernel,
      ⟨by decide +kernel, ok_of (by decide +kernel), by decide +kernel, by decide +kernel, unarmed_of (by decide +kernel)⟩⟩
  · dsimp only; exact ⟨by decide +kernel,
      ⟨by decide +kernel, ok_of (by decide +kernel), by decide +kernel, by decide +kernel, unarmed_of (by decide +kernel)⟩⟩
  · dsimp only; exact ⟨by decide +kernel,
      ⟨by decide +kernel, ok_of (by decide +kernel), by decide +kernel, by decide +kernel, unarmed_of (by decide +kernel)⟩⟩
  · dsimp only; exact ⟨by decide +kernel,
      ⟨by decide +kernel, ok_of (by decide +kernel), by decide +kernel, by decide +kernel, unarmed_of (by decide +kernel)⟩⟩
  · dsimp only; exact ⟨by decide +kernel,
      ⟨by decide +kernel, ok_of (by decide +kernel), by decide +kernel, by decide +kernel, unarmed_of (by decide +kernel)⟩⟩
  · dsimp only; exact ⟨by decide +kernel,
      ⟨by decide +kernel, ok_of (by decide +kernel), by decide +kernel, by decide +kernel, unarmed_of (by decide +kernel)⟩,
      by decide +kernel⟩
  · dsimp only; exact ⟨by decide +kernel,
      ⟨by decide +kernel, ok_of (by decide +kernel), by decide +kernel, by decide +kernel, unarmed_of (by decide +kernel)⟩,
      by decide +kernel⟩
  · dsimp only; exact ⟨by decide +kernel,
      ⟨by decide +kernel, ok_of (by decide +kernel), by decide +kernel, by decide +kernel, unarmed_of (by decide +kernel)⟩,
      by decide +kernel⟩
  · dsimp only; exact ⟨by decide +kernel, by decide +kernel, err_of (by decide +kernel)⟩
  · dsimp only; exact ⟨by decide +kernel, by decide +kernel, ok_of (by decide +kernel), by decide +kernel⟩
  · dsimp only; exact ⟨by decide +kernel, by decide +kernel, ok_of (by decide +kernel), by decide +kernel, by decide +kernel⟩

/-- Premises of SurveyScale met, clause by clause. -/
theorem witness_surveyScale :
    (let l : List Dy := [⟨false, 0, 0⟩]; let a : Dy := ⟨false, 0, 0⟩;
     a ∈ l ∧ (∀ b, b ∈ l → a.magLt b = false) ∧ a.m = 0) ∧
    (let l : List Dy := [⟨false, 1, 0⟩]; let a : Dy := ⟨false, 1, 0⟩;
     a ∈ l ∧ (∀ b, b ∈ l → a.magLt b = false) ∧ a.m ≠ 0) := by
  refine ⟨by decide +kernel, by decide +kernel⟩

/-- Premises of Rounding met, clause by clause. -/
theorem witness_rounding :
    (let neg : Bool := false; let m : Nat := 3; let k : Nat := 1; let e : Int := 0;
     let near := roundAt .ne neg m e (e + k);
     (2 * (near * 2 ^ k) = 2 * m + 2 ^ k ∨ 2 * m = 2 * (near * 2 ^ k) + 2 ^ k)) ∧
    (let m : Nat := 4; let k : Nat := 1;
     m % 2 ^ k = 0) ∧
    (let neg : Bool := false; let m : Nat := 3; let k : Nat := 1;
     m % 2 ^ k ≠ 0 ∧ neg = false) ∧
    (let neg : Bool := true; let m : Nat := 3; let k : Nat := 1;
     m % 2 ^ k ≠ 0 ∧ neg = true) := by
  refine ⟨by decide +kernel, by decide +kernel, by decide +kernel, by decide +kernel⟩

/-- Premises of PortActions met, clause by clause. -/
theorem witness_portActions :
    (let s : State := wr (.cell 0 .v) (wRa (0x38 + 0)) (fun c => { c with aps := wAps (.cell 0 .v) [0, 0x100] });
     let cell : Nat := 0; let r : RunAct := wRa (0x38 + 0);
     cell < 576 ∧ s.dev.c.active (.cell cell .v) 0x38 = some r ∧ vFUNC r.a.bits = 0) ∧
    (let s : State := wr (.cell 0 .sin) (wRa (0x42 + 2 ^ 110)) (fun c => { c with aps := wAps (.cell 0 .sin) [0, 0x100] });
     let cell : Nat := 0; let r : RunAct := wRa (0x42 + 2 ^ 110); let base : Nat := 0;
     cell < 576 ∧ s.dev.c.active (.cell cell .sin) 0x42 = some r ∧
     s.dev.c.locateOp (.cell cell .sin) r.a (sAP r.a.bits) (256 * sGRAN r.a.bits) .either = .ok base ∧
     s.dev.c.land cell (recvSrc r.a.bits) = []) ∧
    (let s : State := wr (.cell 0 .sin) (wRa (0x42 + 2 ^ 110)) (fun c => { c with aps := wAps (.cell 0 .sin) [0, 0x100], landing := [((0, recvSrc (0x42 + 2 ^ 110)), [zeros 256])] });
     let cell : Nat := 0; let r : RunAct := wRa (0x42 + 2 ^ 110); let base : Nat := 0; let g := zeros 256;
     cell < 576 ∧ s.dev.c.active (.cell cell .sin) 0x42 = some r ∧
     s.dev.c.locateOp (.cell cell .sin) r.a (sAP r.a.bits) (256 * sGRAN r.a.bits) .either = .ok base ∧
     s.dev.c.land cell (recvSrc r.a.bits) = [g] ∧ r.count + 1 = sGRAN r.a.bits ∧
     s.dev.c.writeHeld cell r.a.inst (base / 256 + r.count) 1 = false ∧ s.dev.c.unarmed (.cell cell)) ∧
    (let s : State := wr (.cell 0 .sout) (wRa (0x52 + 2 ^ 110)) (fun c => { c with aps := wAps (.cell 0 .sout) [0, 0x100] });
     let cell : Nat := 0; let r : RunAct := wRa (0x52 + 2 ^ 110); let base : Nat := 0;
     cell < 576 ∧ s.dev.c.active (.cell cell .sout) 0x52 = some r ∧
     s.dev.c.locateOp (.cell cell .sout) r.a (sAP r.a.bits) (256 * sGRAN r.a.bits) .either = .ok base) ∧
    (let s : State := wr (.cell 0 .sout) ({ wRa (0x52 + 2 ^ 111 + 2 ^ 108) with started := true }) (fun c => { c with aps := wAps (.cell 0 .sout) [0, 0x100] });
     let cell : Nat := 0; let r : RunAct := { wRa (0x52 + 2 ^ 111 + 2 ^ 108) with started := true }; let base : Nat := 0;
     let t := 0;
     cell < 576 ∧ s.dev.c.active (.cell cell .sout) 0x52 = some r ∧ r.started = true ∧
     s.dev.c.locateOp (.cell cell .sout) r.a (sAP r.a.bits) (256 * sGRAN r.a.bits) .either = .ok base ∧
     sRing r.a.bits = true ∧ s.dev.c.successor r.a = some t ∧ (s.dev.c.land t 8).length < landRoom ∧
     s.dev.c.readHeld cell r.a.inst ((base + 256 * r.count) / 256) 1 = false ∧ r.count + 1 < sGRAN r.a.bits ∧
     s.dev.c.pathUnarmed (.cell cell .sout)) ∧
    (let s : State := wr (.cell 0 .sout) (wRa (0x53 + 0)) (fun c => { c with aps := wAps (.cell 0 .sout) [0, 0x100], ctxs := [(0, { wCtx with run := some wRun, tables := [((tRoute, 0), 2 ^ 64)] })] });
     let cell : Nat := 0; let r : RunAct := wRa (0x53 + 0); let base : Nat := 0;
     cell < 576 ∧ s.dev.c.active (.cell cell .sout) 0x53 = some r ∧
     s.dev.c.locateOp (.cell cell .sout) r.a (sAP r.a.bits) (sLEN r.a.bits) .either = .ok base ∧
     routeKind (s.dev.c.route r.a.ctx (sDEST r.a.bits)) ≠ 0 ∧ routeKind (s.dev.c.route r.a.ctx (sDEST r.a.bits)) ≠ 4 ∧
     (s.dev.c.silt.filter (fun q => q.src = cell)).length < 4 ∧ s.dev.c.readHeld cell r.a.inst (base / 256) 1 = false ∧
     s.dev.c.unarmed (.cell cell)) ∧
    (let s : State := ws (fun c => { c with silt := [Silt.mk (siltHdr 0 0 0 1 0) [1] 0 0, Silt.mk (siltHdr 1 0 0 1 0) [1] 0 0] });
     let cell : Nat := 0; let n := 1; let q := (Silt.mk (siltHdr 1 0 0 1 0) [1] 0 0 : Silt);
     cell < 576 ∧ s.dev.c.silt[n]? = some q ∧ (∃ p, p ∈ s.dev.c.silt.take n ∧ p.src = q.src ∧ p.route = q.route ∧
     p.ctx = q.ctx)) ∧
    (let s : State := ws (fun c => { c with silt := [Silt.mk (siltHdr 0 0 0 1 0) [1] 0 0], ctxs := [(0, { wCtx with tables := [((tRoute, 0), 2 ^ 64)] })] });
     let cell : Nat := 0; let n := 0; let q := (Silt.mk (siltHdr 0 0 0 1 0) [1] 0 0 : Silt);
     let t := (s.dev.c.physCell (routeCell (s.dev.c.route 0 0))).getD 0;
     cell < 576 ∧ s.dev.c.silt[n]? = some q ∧ (∀ p, p ∈ s.dev.c.silt.take n → ¬ (p.src = q.src ∧ p.route = q.route ∧
     p.ctx = q.ctx)) ∧ routeKind (s.dev.c.route q.ctx q.route) = 1 ∧
     s.dev.c.physCell (routeCell (s.dev.c.route q.ctx q.route)) = some t) := by
  refine ⟨by decide +kernel, ?_, ?_, ?_, ?_, ?_, by decide +kernel, by decide +kernel⟩
  · dsimp only; exact ⟨by decide +kernel, by decide +kernel, ok_is (by decide +kernel), by decide +kernel⟩
  · dsimp only; exact ⟨by decide +kernel, by decide +kernel, ok_is (by decide +kernel), by decide +kernel, by decide +kernel,
      by decide +kernel, unarmed_of (by decide +kernel)⟩
  · dsimp only; exact ⟨by decide +kernel, by decide +kernel, ok_is (by decide +kernel)⟩
  · dsimp only; exact ⟨by decide +kernel, by decide +kernel, by decide +kernel, ok_is (by decide +kernel), by decide +kernel,
      by decide +kernel, by decide +kernel, by decide +kernel, by decide +kernel, pathUnarmed_of (by decide +kernel)⟩
  · dsimp only; exact ⟨by decide +kernel, by decide +kernel, ok_is (by decide +kernel), by decide +kernel, by decide +kernel,
      by decide +kernel, by decide +kernel, unarmed_of (by decide +kernel)⟩

/-- Premises of StreamActions met, clause by clause. -/
theorem witness_streamActions :
    (let s : State := sStream (wRa 0x61) (Engine.idle) (wDesc); let d : Nat := 1; let e : Nat := 0;
     let r : RunAct := wRa 0x61; let c := s.dev.c; let u := UnitId.se d e; let image := wDesc;
     (UnitId.se d e).valid = true ∧ c.active u 0x61 = some r ∧ r.started = false ∧ (c.engine d e).armed = [] ∧
     c.entry r.a.ctx tDesc (aEntry r.a.bits) = image ∧ image ≠ 0 ∧ c.armFault r.a.ctx d (aEntry r.a.bits) image = none ∧
     dPersist image = false ∧ c.armedElsewhere d e (aEntry r.a.bits) = false) ∧
    (let s : State := sStream (wRa 0x61) (Engine.idle) (0); let d : Nat := 1; let e : Nat := 0; let r : RunAct := wRa 0x61;
     let c := s.dev.c; let u := UnitId.se d e;
     (UnitId.se d e).valid = true ∧ c.active u 0x61 = some r ∧ r.started = false ∧ (c.engine d e).armed = [] ∧
     c.entry r.a.ctx tDesc (aEntry r.a.bits) = 0) ∧
    (let s : State := sStream (wRa 0x62) (Engine.idle) (wDesc + 2 ^ 233); let d : Nat := 1; let e : Nat := 0;
     let r : RunAct := wRa 0x62; let c := s.dev.c; let u := UnitId.se d e; let stored := wDesc + 2 ^ 233;
     let image := wDesc + 2 ^ 233;
     (UnitId.se d e).valid = true ∧ c.active u 0x62 = some r ∧ r.started = false ∧ (c.engine d e).armed = [] ∧
     c.entry r.a.ctx tDesc (aEntry r.a.bits) = stored ∧ stored ≠ 0 ∧ image = stored - fieldN stored 0 8 + aBase r.a.bits ∧
     c.armFault r.a.ctx d (aEntry r.a.bits) image = none ∧ dPersist image = true ∧
     c.armedElsewhere d e (aEntry r.a.bits) = false) ∧
    (let s : State := sStream (wRa 0x63) ({ Engine.idle with armed := [{ desc := 0, image := wDesc + 2 ^ 233, pace := 0 }] }) (wDesc + 2 ^ 233);
     let d : Nat := 1; let e : Nat := 0; let r : RunAct := wRa 0x63; let c := s.dev.c; let u := UnitId.se d e;
     let q := ({ desc := 0, image := wDesc + 2 ^ 233, pace := 0 } : Armed);
     (UnitId.se d e).valid = true ∧ c.active u 0x63 = some r ∧ (c.engine d e).armed = [q] ∧ q.desc = aEntry r.a.bits ∧
     q.image ≠ 0 ∧ dPersist q.image = true) ∧
    (let s : State := sStream (wRa 0x61) (gPass ({ wPass wDesc with tile := 1 })) (wDesc); let d : Nat := 1;
     let e : Nat := 0; let r : RunAct := wRa 0x61; let c := s.dev.c; let u := UnitId.se d e;
     let p := { wPass wDesc with tile := 1 };
     (UnitId.se d e).valid = true ∧ c.passOf d e = some p ∧ c.running u = some r ∧
     (r.done = true ∨ p.parked.isSome = true ∨ p.copyWait.isSome = true ∨ p.asked ≠ [] ∨ passTiles p.image ≤ p.tile)) ∧
    (let s : State := sStream (wRa 0x61) (gPass (wPass wDesc)) (wDesc); let d : Nat := 1; let e : Nat := 0;
     let r : RunAct := wRa 0x61; let c := s.dev.c; let u := UnitId.se d e; let p := wPass wDesc; let p1 := wPass wDesc;
     let c1 := s.dev.c;
     (UnitId.se d e).valid = true ∧ c.passOf d e = some p ∧ c.running u = some r ∧ r.done = false ∧ p.parked = none ∧
     p.copyWait = none ∧ p.asked = [] ∧ p.tile < passTiles p.image ∧ c.indexPhase d e p = .ok (c1, p1) ∧ p1.scale = 0 ∧
     c1.pathUnarmed u) ∧
    (let s : State := sStream (wRa 0x61) (gPass ({ wPass wDesc with parked := some 1, tile := 1 })) (wDesc);
     let d : Nat := 1; let e : Nat := 0; let c := s.dev.c; let p := { wPass wDesc with parked := some 1, tile := 1 };
     let k := 1; let c1 := (c.setPass d e { p with parked := none, ff := 0 }).tileStep d e [];
     (UnitId.se d e).valid = true ∧ c.passOf d e = some p ∧ p.parked = some k ∧ k ≠ 3 ∧
     c1 = (c.setPass d e { p with parked := none, ff := 0 }).tileStep d e [] ∧
     (∀ q, c1.passOf d e = some q → q.parked = none)) ∧
    (let s : State := sStream (wRa 0x61) (gPass ({ wPass wDesc with parked := some 3 })) (wDesc); let d : Nat := 1;
     let e : Nat := 0; let c := s.dev.c; let p := { wPass wDesc with parked := some 3 };
     (UnitId.se d e).valid = true ∧ c.passOf d e = some p ∧ p.parked = some 3 ∧ (c.page p.ctx p.faultIx).st = .fallow) ∧
    (let s : State := sStream (wRa 0x61) (gPass ({ wPass wDesc with parked := some 1 })) (wDesc); let d : Nat := 1;
     let e : Nat := 0; let c := s.dev.c; let p := { wPass wDesc with parked := some 1 }; let k := 1;
     (UnitId.se d e).valid = true ∧ c.passOf d e = some p ∧ p.parked = some k) ∧
    (let s : State := wr (.cell 0 .sin) (wRa (0x42 + 2 ^ 110)) (fun c => { c with aps := wAps (.cell 0 .sin) [0, 0x100] });
     let d : Nat := 1; let e : Nat := 0; let v : UnitId := .cell 0 .sin;
     (UnitId.se d e).valid = true ∧ v.valid = true ∧ unitWaits v s = true ∧ exempt v s = false) ∧
    (let s : State := wr (.cell 0 .sin) (wRa (0x42 + 2 ^ 110)) (fun c => { c with aps := wAps (.cell 0 .sin) [0, 0x100] });
     let d : Nat := 1; let e : Nat := 0; let v : UnitId := .cell 0 .sout;
     (UnitId.se d e).valid = true ∧ v.valid = true ∧ (unitWaits v s = false ∨ exempt v s = true)) := by
  refine ⟨by decide +kernel, by decide +kernel, by decide +kernel, by decide +kernel, by decide +kernel, ?_, ?_,
      by decide +kernel, by decide +kernel, by decide +kernel, by decide +kernel⟩
  · dsimp only; exact ⟨by decide +kernel, by decide +kernel, by decide +kernel, by decide +kernel, by decide +kernel,
      by decide +kernel, by decide +kernel, by decide +kernel, ok_is (by decide +kernel), by decide +kernel,
      pathUnarmed_of (by decide +kernel)⟩
  · dsimp only; exact ⟨by decide +kernel, by decide +kernel, by decide +kernel, by decide +kernel, rfl,
      fun q h => of_decide_eq_true (all_of (f := fun q => decide (q.parked = none)) (by decide +kernel) q h)⟩

/-- Premises of StreamCommands met, clause by clause. -/
theorem witness_streamCommands :
    (let s : State := ws (fun c => { c with ctxs := [(0, xLoad)] }); let p : Packet := wp 0x306 true [0, 1, 1];
     let c : Core := s.dev.c.arrive p; let c1 := (c.needTable p.ctxNum tDesc 1).getD c; let es := [0];
     s.dev.begins (Cmd.plain 0x306 true [64, 64, 64]) p c ∧
     c.loads p tDesc 128 4096 1 0x343 (fun x look e => .ok (descOk x.conf (x.kvEntries.getD 0) look e)) c1 es) ∧
    (let s : State := ws (fun c => { c with ctxs := [(0, xLoad)] }); let p : Packet := wp 0x307 true [0, 1, 1];
     let c : Core := s.dev.c.arrive p; let c1 := (c.needTable p.ctxNum tRoute 1).getD c; let es := [0];
     s.dev.begins (Cmd.plain 0x307 true [64, 64, 64]) p c ∧
     c.loads p tRoute 16 4096 1 0x343 (fun x _ e => .ok (routeOk x.conf e)) c1 es) ∧
    (let s : State := ws id; let p : Packet := wp 0x306 true [4096, 1, 1]; let c : Core := s.dev.c.arrive p; let x := wCtx;
     s.dev.begins (Cmd.plain 0x306 true [64, 64, 64]) p c ∧ c.ctx? p.ctxNum = some x ∧ 4096 < p.arg 0 + p.arg 1) ∧
    (let s : State := ws id; let p : Packet := wp 0x308 true [64, 16, 1]; let c : Core := s.dev.c.arrive p;
     s.dev.begins (Cmd.plain 0x308 true [64, 64, 64]) p c ∧ p.arg 0 % 64 = 0 ∧ isPow2 (p.arg 1) = true ∧ p.arg 1 ≤ 65536 ∧
     p.arg 2 < 2) ∧
    (let s : State := ws id; let p : Packet := wp 0x308 true [1, 16, 1]; let c : Core := s.dev.c.arrive p;
     s.dev.begins (Cmd.plain 0x308 true [64, 64, 64]) p c ∧
     (p.arg 0 % 64 ≠ 0 ∨ isPow2 (p.arg 1) = false ∨ 65536 < p.arg 1 ∨ 2 ≤ p.arg 2)) ∧
    (let s : State := ws id; let p : Packet := wp 0x309 true []; let c : Core := s.dev.c.arrive p;
     s.dev.begins (Cmd.plain 0x309 true []) p c ∧
     (∀ g q, g ∈ c.engines → g.2.pass = some q → q.ctx = p.ctxNum → q.parked = none)) ∧
    (let s : State := ws (fun c => { c with engines := [((1, 0), gPass ({ wPass wDesc with parked := some 1 }))] });
     let p : Packet := wp 0x309 true []; let c : Core := s.dev.c.arrive p; let k := (1, 0);
     let g := gPass ({ wPass wDesc with parked := some 1 }); let q := { wPass wDesc with parked := some 1 };
     s.dev.begins (Cmd.plain 0x309 true []) p c ∧ c.engines = [(k, g)] ∧ g.pass = some q ∧ q.ctx = p.ctxNum ∧
     q.parked.isSome = true) ∧
    (let s : State := ws id; let p : Packet := wp 0x30A true [1, 1]; let c : Core := s.dev.c.arrive p;
     s.dev.begins (Cmd.plain 0x30A true [64, 64]) p c ∧ 1 ≤ p.arg 0 ∧ p.arg 0 ≤ 65535 ∧ 1 ≤ p.arg 1 ∧ p.arg 1 ≤ 4294967295) ∧
    (let s : State := ws id; let p : Packet := wp 0x30A true [0, 1]; let c : Core := s.dev.c.arrive p;
     s.dev.begins (Cmd.plain 0x30A true [64, 64]) p c ∧
     (p.arg 0 = 0 ∨ 65535 < p.arg 0 ∨ p.arg 1 = 0 ∨ 4294967295 < p.arg 1)) := by
  refine ⟨?_, ?_, ?_, ?_, ?_, ?_, ?_, ?_, ?_⟩
  · dsimp only; exact ⟨begins_of (by decide +kernel),
      ⟨xLoad, zeros 128, rfl, by decide +kernel, ok_is (by decide +kernel), by decide +kernel, below_one (by decide +kernel) (ok_is (by decide +kernel)), some_of (needTable_one (by decide +kernel) rfl (by decide +kernel))⟩⟩
  · dsimp only; exact ⟨begins_of (by decide +kernel),
      ⟨xLoad, zeros 16, rfl, by decide +kernel, ok_is (by decide +kernel), by decide +kernel, below_one (by decide +kernel) (ok_is (by decide +kernel)), some_of (needTable_one (by decide +kernel) rfl (by decide +kernel))⟩⟩
  · dsimp only; exact ⟨begins_of (by decide +kernel), by decide +kernel, by decide +kernel⟩
  · dsimp only; exact ⟨begins_of (by decide +kernel), by decide +kernel, by decide +kernel, by decide +kernel,
      by decide +kernel⟩
  · dsimp only; exact ⟨begins_of (by decide +kernel), by decide +kernel⟩
  · dsimp only; exact ⟨begins_of (by decide +kernel), fun g q h => nomatch h⟩
  · dsimp only; exact ⟨begins_of (by decide +kernel), by decide +kernel, by decide +kernel, by decide +kernel,
      by decide +kernel⟩
  · dsimp only; exact ⟨begins_of (by decide +kernel), by decide +kernel, by decide +kernel, by decide +kernel,
      by decide +kernel⟩
  · dsimp only; exact ⟨begins_of (by decide +kernel), by decide +kernel⟩

/-- Premises of UpdateActions met, clause by clause. -/
theorem witness_updateActions :
    (let s : State := sUpd (wRa 0x71) (wPlan) (none) (id); let d : Nat := 10; let r : RunAct := wRa 0x71;
     let l : List Nat := [wEntry]; let c := s.dev.c; let n := r.a.ctx; let pe := aEntry r.a.bits;
     let plan := c.entry n tPlan pe; let rd := c.unitReads (.uu d) n [(uList plan, 128 * uCount plan)];
     let good : Prop := c.active (.uu d) 0x71 = some r ∧ r.started = false ∧ plan ≠ 0 ∧ (∃ x, c.ctx? n = some x ∧ x.inFloor (uList plan) (128 * uCount plan) = true) ∧ rd.2 = false ∧ rd.1.shardList n plan = .ok l ∧ ∀ i, i < l.length → rd.1.sweepEntryOk n d plan (l.getD i 0) = true;
     isPort d = true ∧ good ∧ (rd.1.stepSt n).verdict = none) ∧
    (let s : State := sUpd (wRa 0x71) (wPlan) (some (wVerdict 1)) (id); let d : Nat := 10; let r : RunAct := wRa 0x71;
     let l : List Nat := [wEntry]; let c := s.dev.c; let n := r.a.ctx; let pe := aEntry r.a.bits;
     let plan := c.entry n tPlan pe; let rd := c.unitReads (.uu d) n [(uList plan, 128 * uCount plan)];
     let good : Prop := c.active (.uu d) 0x71 = some r ∧ r.started = false ∧ plan ≠ 0 ∧ (∃ x, c.ctx? n = some x ∧ x.inFloor (uList plan) (128 * uCount plan) = true) ∧ rd.2 = false ∧ rd.1.shardList n plan = .ok l ∧ ∀ i, i < l.length → rd.1.sweepEntryOk n d plan (l.getD i 0) = true;
     let v := (wVerdict 1);
     isPort d = true ∧ good ∧ (rd.1.stepSt n).verdict = some v ∧ v.decision ≠ 0) ∧
    (let s : State := sUpd (wRa 0x71) (wPlan) (some (wVerdict 0)) (id); let d : Nat := 10; let r : RunAct := wRa 0x71;
     let l : List Nat := [wEntry]; let c := s.dev.c; let n := r.a.ctx; let pe := aEntry r.a.bits;
     let plan := c.entry n tPlan pe; let rd := c.unitReads (.uu d) n [(uList plan, 128 * uCount plan)];
     let good : Prop := c.active (.uu d) 0x71 = some r ∧ r.started = false ∧ plan ≠ 0 ∧ (∃ x, c.ctx? n = some x ∧ x.inFloor (uList plan) (128 * uCount plan) = true) ∧ rd.2 = false ∧ rd.1.shardList n plan = .ok l ∧ ∀ i, i < l.length → rd.1.sweepEntryOk n d plan (l.getD i 0) = true;
     let v := (wVerdict 0);
     isPort d = true ∧ good ∧ (rd.1.stepSt n).verdict = some v ∧ v.decision = 0) ∧
    (let s : State := sUpd (wRa 0x71) (0) (none) (id); let d : Nat := 10; let r : RunAct := wRa 0x71; let c := s.dev.c;
     let n := r.a.ctx; let pe := aEntry r.a.bits; let plan := c.entry n tPlan pe;
     isPort d = true ∧ c.active (.uu d) 0x71 = some r ∧ r.started = false ∧ plan = 0) ∧
    (let s : State := sUpd (wRa 0x71) (wPlan) (none) (fun c => { c with sweeps := [(10, wSweep)] }); let d : Nat := 10;
     let r : RunAct := wRa 0x71; let l : List Nat := [wEntry]; let c := s.dev.c; let w : SweepSt := wSweep;
     let pl := c.entry w.ctx tPlan w.plan; let e := l.getD (w.order.getD w.pos 0) 0;
     let rs := c.unitReads (.uu d) w.ctx (c.shardReads w.ctx pl e);
     let x : ShardIn := okOr (rs.1.readShard w.ctx pl e) ⟨0, 0, 0, [], [], [], [], [], [], []⟩;
     isPort d = true ∧ c.active (.uu d) 0x71 = some r ∧ kget c.sweeps d = some w ∧ c.recordsWait w.ctx d = false ∧
     w.pos < w.order.length ∧ c.shardList w.ctx pl = .ok l ∧
     (∀ q, q ∈ c.shardPlots w.ctx pl e → c.plotSt w.ctx q = some .resident) ∧ rs.2 = false ∧
     rs.1.readShard w.ctx pl e = .ok x ∧ rs.1.unarmed (.sub d 8 0)) ∧
    (let s : State := sUpd (wRa 0x72) (wPlan) (some (wVerdict 0)) (id); let d : Nat := 10; let r : RunAct := wRa 0x72;
     let l : List Nat := [wEntry]; let c := s.dev.c; let n := r.a.ctx; let pe := aEntry r.a.bits;
     let plan := c.entry n tPlan pe; let rd := c.unitReads (.uu d) n [(uList plan, 128 * uCount plan)];
     let v := (wVerdict 0);
     let rp := rd.1.unitReads (.uu d) n ((l.filter (fun e => slNpush e ≠ 0)).flatMap (fun e => [(slPush e, 2 * slNpush e), (shPub (rd.1.entry n tShard (slReg e)), rd.1.pubBytes n (rd.1.entry n tShard (slReg e)))]));
     let c1 := (okOr (rp.1.pushAll n d l) (c, [])).1; let ts := (okOr (rp.1.pushAll n d l) (c, [])).2;
     isPort d = true ∧ c.active (.uu d) 0x72 = some r ∧ r.started = false ∧ plan ≠ 0 ∧ (c.stepSt n).verdict = some v ∧
     v.decision = 0 ∧ rd.2 = false ∧ rd.1.shardList n plan = .ok l ∧ rp.2 = false ∧ rp.1.pushAll n d l = .ok (c1, ts)) ∧
    (let s : State := sUpd (wRa 0x72) (wPlan) (some (wVerdict 1)) (id); let d : Nat := 10; let r : RunAct := wRa 0x72;
     let c := s.dev.c; let n := r.a.ctx; let pe := aEntry r.a.bits; let plan := c.entry n tPlan pe; let v := (wVerdict 1);
     isPort d = true ∧ c.active (.uu d) 0x72 = some r ∧ r.started = false ∧ plan ≠ 0 ∧ (c.stepSt n).verdict = some v ∧
     v.decision ≠ 0) ∧
    (let s : State := ws (fun c => { c with ctxs := [(0, { wCtx with exports := [(0, wExport)] })] }); let d : Nat := 10;
     let c := s.dev.c; let k := 0; let entry := 0; let consumer := 0; let x := { wCtx with exports := [(0, wExport)] };
     let q := wExport;
     isPort d = true ∧ k < 16 ∧ entry < 16 ∧ consumer < 2 ^ 64 ∧ c.ctx? k = some x ∧ kget x.exports entry = some q) ∧
    (let s : State := ws (fun c => { c with ctxs := [(0, { wCtx with exports := [(0, wExport)] })] }); let d : Nat := 10;
     let c := s.dev.c; let k := 0; let entry := 0; let x := { wCtx with exports := [(0, wExport)] }; let q := wExport;
     let a := 0; let die := 10; let rest := [];
     isPort d = true ∧ k < 16 ∧ entry < 16 ∧ c.ctx? k = some x ∧ kget x.exports entry = some q ∧
     q.waiting = (a, die, rest) :: [] ∧ (c.active (.uu die) 0x71) = none) := by
  refine ⟨?_, ?_, ?_, by decide +kernel, ?_, ?_, by decide +kernel, by decide +kernel, by decide +kernel⟩
  · dsimp only; exact ⟨by decide +kernel,
      ⟨by decide +kernel, by decide +kernel, by decide +kernel, ⟨_, rfl, by decide +kernel⟩, by decide +kernel, ok_is (by decide +kernel), below_one (by decide +kernel) (by decide +kernel)⟩, by decide +kernel⟩
  · dsimp only; exact ⟨by decide +kernel,
      ⟨by decide +kernel, by decide +kernel, by decide +kernel, ⟨_, rfl, by decide +kernel⟩, by decide +kernel, ok_is (by decide +kernel), below_one (by decide +kernel) (by decide +kernel)⟩, by decide +kernel, by decide +kernel⟩
  · dsimp only; exact ⟨by decide +kernel,
      ⟨by decide +kernel, by decide +kernel, by decide +kernel, ⟨_, rfl, by decide +kernel⟩, by decide +kernel, ok_is (by decide +kernel), below_one (by decide +kernel) (by decide +kernel)⟩, by decide +kernel, by decide +kernel⟩
  · dsimp only; exact ⟨by decide +kernel, by decide +kernel, by decide +kernel, by decide +kernel, by decide +kernel,
      ok_is (by decide +kernel), by decide +kernel, by decide +kernel, ok_of (by decide +kernel),
      unarmed_of (by decide +kernel)⟩
  · dsimp only; exact ⟨by decide +kernel, by decide +kernel, by decide +kernel, by decide +kernel, by decide +kernel,
      by decide +kernel, by decide +kernel, ok_is (by decide +kernel), by decide +kernel, pair_of (by decide +kernel)⟩

/-- Premises of Reductions met, clause by clause. -/
theorem witness_reductions :
    (let s : State := sTree 1 none; let c := s.dev.c; let die := 13; let r := wRa 0x81; let ts := [wTree];
     let e := c.entry r.a.ctx tTree (aEntry r.a.bits);
     let rd := c.actionReads (.ru die) r.a.ctx [(tsList e, 128 * tsCount e)];
     isLinkDie die = true ∧ c.active (.ru die) 0x81 = some r ∧ r.started = false ∧
     c.entry r.a.ctx tTree (aEntry r.a.bits) ≠ 0 ∧ rd.2 = false ∧
     (∀ i, i < tsCount e → ∃ o, rd.1.treeAt r.a.ctx (aEntry r.a.bits) i = .ok o) ∧
     ts = ((List.range (tsCount e)).map (fun i => rd.1.treeAt r.a.ctx (aEntry r.a.bits) i)).filterMap (fun q => match q with | .ok o => o | .error _ => none) ∧
     rd.1.treeSetOk r.a.ctx e = .ok true ∧ (∀ q, q ∈ ts → rd.1.treeAreas r.a.ctx q = true)) ∧
    (let s : State := sTree 0 none; let c := s.dev.c; let die := 13; let r := wRa 0x81;
     isLinkDie die = true ∧ c.active (.ru die) 0x81 = some r ∧ r.started = false ∧
     c.entry r.a.ctx tTree (aEntry r.a.bits) = 0) ∧
    (let s : State := sTree 1 none; let n : Nat := 0; let tset : Nat := 0; let idx : Nat := 0; let t : Nat := wTree;
     let c := s.dev.c; let src := 5; let job := 3; let step := 1; let sid := 0; let pslot := 0;
     c.jobCtx job = some n ∧ c.slotTree n sid pslot src = .ok (tset, idx, t) ∧ c.takesStep n step = true) ∧
    (let s : State := sTree 1 none; let n : Nat := 0; let tset : Nat := 0; let idx : Nat := 0; let t : Nat := wTree;
     let c := s.dev.c; let src := 5; let job := 3; let step := 2; let sid := 0; let pslot := 0;
     c.jobCtx job = some n ∧ c.slotTree n sid pslot src = .ok (tset, idx, t) ∧ c.takesStep n step = false) ∧
    (let s : State := sTree 1 none; let c := s.dev.c; let job := 9;
     c.jobCtx job = none) ∧
    (let s : State := sTree 1 none; let n : Nat := 0; let tset : Nat := 0; let idx : Nat := 0; let t : Nat := wTree;
     let c := s.dev.c; let src := 5; let job := 3; let step := 1; let sid := 0; let pslot := 0;
     c.jobCtx job = some n ∧ (c.hear n src).slotTree n sid pslot src = .ok (tset, idx, t) ∧ c.takesStep n step = true) ∧
    (let s : State := sTree 1 (some 100); let n : Nat := 0; let tset : Nat := 0; let idx : Nat := 0; let t : Nat := wTree;
     let c := s.dev.c; let at_ := 100; let die := 13;
     c.treeAt n tset idx = .ok (some t) ∧ (c.node n tset idx t).deadline = some at_ ∧ c.treeDie t = some die ∧
     c.now (dieRegion die) < at_) ∧
    (let s : State := sTree 1 (some 0); let n : Nat := 0; let tset : Nat := 0; let idx : Nat := 0; let t : Nat := wTree;
     let c := s.dev.c; let at_ := 0; let die := 13;
     c.treeAt n tset idx = .ok (some t) ∧ (c.node n tset idx t).deadline = some at_ ∧ c.treeDie t = some die ∧
     (c.node n tset idx t).expired = false ∧ at_ ≤ c.now (dieRegion die)) := by
  refine ⟨?_, by decide +kernel, ?_, ?_, by decide +kernel, ?_, ?_, ?_⟩
  · dsimp only; exact ⟨by decide +kernel, by decide +kernel, by decide +kernel, by decide +kernel, by decide +kernel,
      below_one (by decide +kernel) ⟨some wTree, ok_is (by decide +kernel)⟩, by decide +kernel, ok_is (by decide +kernel),
      by decide +kernel⟩
  · dsimp only; exact ⟨by decide +kernel, ok_is (by decide +kernel), by decide +kernel⟩
  · dsimp only; exact ⟨by decide +kernel, ok_is (by decide +kernel), by decide +kernel⟩
  · dsimp only; exact ⟨by decide +kernel, ok_is (by decide +kernel), by decide +kernel⟩
  · dsimp only; exact ⟨ok_is (by decide +kernel), by decide +kernel, by decide +kernel, by decide +kernel⟩
  · dsimp only; exact ⟨ok_is (by decide +kernel), by decide +kernel, by decide +kernel, by decide +kernel, by decide +kernel⟩

/-- Premises of VerdictAndLiveness met, clause by clause. -/
theorem witness_verdictAndLiveness :
    (let s : State := ws (fun c => { c with ctxs := [(0, { wCtx with job := some wJob, run := some { wRun with step := { StepSt.fresh with verdict := some (wVerdict 0) } } })], cols := [(.ru 13, { run := some (wRa 0x82), queue := [], dropped := false })] });
     let c := s.dev.c; let die := 13; let r := wRa 0x82;
     isLinkDie die = true ∧ c.active (.ru die) 0x82 = some r ∧ (c.stepSt r.a.ctx).verdict.isSome = true) ∧
    (let s : State := ws (fun c => { c with ctxs := [(0, { wCtx with job := some wJob, run := some wRun })], cols := [(.ru 13, { run := some (wRa 0x82), queue := [], dropped := false })] });
     let c := s.dev.c; let die := 13; let r := wRa 0x82;
     isLinkDie die = true ∧ c.active (.ru die) 0x82 = some r ∧ (c.stepSt r.a.ctx).verdict = none) ∧
    (let job : Nat := 3; let s : State := ws (fun c => { c with ctxs := [(0, { wCtx with job := some wJob })] });
     let n : Nat := 0; let c := s.dev.c;
     c.jobCtx job = some n) ∧
    (let job : Nat := 9; let s : State := ws (fun c => { c with ctxs := [(0, { wCtx with job := some wJob })] });
     let c := s.dev.c;
     c.jobCtx job = none) ∧
    (let job : Nat := 3;
     let s : State := ws (fun c => { c with ctxs := [(0, { wCtx with job := some ({ wJob with isRoot := false, actingRoot := false, root := 5, parent := 5 }) })] });
     let n : Nat := 0; let src : Nat := 5;
     let j : Job := { wJob with isRoot := false, actingRoot := false, root := 5, parent := 5, heard := [(5, 0)] };
     let c := s.dev.c; let v : VRecord := wVerdict 0;
     c.jobCtx job = some n ∧ (c.hear n src).job? n = some j ∧ ((c.hear n src).vnode n).polling = none ∧
     ((c.hear n src).vnode n).latest = none ∧ j.rootHere = false ∧ (c.hear n src).stepOf n ≤ v.step ∧ v.decision ≤ 2) ∧
    (let job : Nat := 3;
     let s : State := ws (fun c => { c with ctxs := [(0, { wCtx with job := some ({ wJob with isRoot := false, actingRoot := false, root := 5, parent := 5 }), vnode := { VNode.fresh with latest := some (wVerdict 0) } })] });
     let n : Nat := 0; let src : Nat := 5;
     let j : Job := { wJob with isRoot := false, actingRoot := false, root := 5, parent := 5, heard := [(5, 0)] };
     let c := s.dev.c; let v : VRecord := wVerdict 0; let l : VRecord := wVerdict 0;
     c.jobCtx job = some n ∧ (c.hear n src).job? n = some j ∧ ((c.hear n src).vnode n).polling = none ∧
     ((c.hear n src).vnode n).latest = some l ∧ v.step ≤ l.step) ∧
    (let job : Nat := 3; let s : State := ws (fun c => { c with ctxs := [(0, { wCtx with job := some wJob })] });
     let n : Nat := 0; let x : Ctx := { wCtx with job := some wJob }; let j : Job := wJob; let c := s.dev.c;
     c.ctx? n = some x ∧ x.job = some j ∧ (∀ r, x.run = some r → r.halted = false) ∧ x.stopped = false ∧
     c.devState ≠ .stopped) ∧
    (let job : Nat := 3; let s : State := ws (fun c => { c with ctxs := [(0, { wCtx with job := some wJob })] });
     let n : Nat := 0; let c := s.dev.c;
     c.jobCtx job = some n) ∧
    (let job : Nat := 3;
     let s : State := ws (fun c => { c with ctxs := [(0, { wCtx with job := some ({ wJob with children := [5], heard := [(5, 0)] }) })], timers := [(0, 2 ^ 40)] });
     let n : Nat := 0; let x : Ctx := { wCtx with job := some ({ wJob with children := [5], heard := [(5, 0)] }) };
     let j : Job := { wJob with children := [5], heard := [(5, 0)] }; let c := s.dev.c; let dev := 5;
     c.ctx? n = some x ∧ x.job = some j ∧ j.neighbour dev = true ∧ dev ∉ j.lost ∧
     kgetD j.heard dev 0 + 100000 * x.liveMs ≤ c.now 0) ∧
    (let job : Nat := 3;
     let s : State := ws (fun c => { c with ctxs := [(0, { wCtx with job := some ({ wJob with children := [5], heard := [(5, 2 ^ 40)] }) })] });
     let n : Nat := 0; let x : Ctx := { wCtx with job := some ({ wJob with children := [5], heard := [(5, 2 ^ 40)] }) };
     let j : Job := { wJob with children := [5], heard := [(5, 2 ^ 40)] }; let c := s.dev.c; let dev := 5;
     c.ctx? n = some x ∧ x.job = some j ∧ c.now 0 < kgetD j.heard dev 0 + 100000 * x.liveMs) ∧
    (let job : Nat := 3;
     let s : State := ws (fun c => { c with ctxs := [(0, { wCtx with job := some wJob })], dnValid := true, devNum := 5 });
     let n : Nat := 0; let src : Nat := 5; let j : Job := wJob; let c := s.dev.c; let dev := 5;
     c.jobCtx job = some n ∧ (c.hear n src).job? n = some j ∧ dev = (c.hear n src).devNum ∧ (c.hear n src).dnValid = true) ∧
    (let job : Nat := 3; let s : State := ws (fun c => { c with ctxs := [(0, { wCtx with job := some wJob })] });
     let n : Nat := 0; let src : Nat := 5; let j : Job := wJob; let c := s.dev.c; let dev := 5;
     c.jobCtx job = some n ∧ (c.hear n src).job? n = some j ∧ dev ≠ (c.hear n src).devNum ∧ dev ∉ j.lost) := by
  refine ⟨by decide +kernel, by decide +kernel, by decide +kernel, by decide +kernel, by decide +kernel, by decide +kernel,
      ?_, by decide +kernel, by decide +kernel, by decide +kernel, by decide +kernel, by decide +kernel⟩
  · dsimp only; exact ⟨by decide +kernel, by decide +kernel, by intro r h; exact absurd h (by decide +revert),
      by decide +kernel, by decide +kernel⟩

/-- Premises of PushesAndDispatch met, clause by clause. -/
theorem witness_pushesAndDispatch :
    (let s : State := sPush (2 ^ 49 + 0x1000 * 2 ^ 64 + 2 ^ 160) (rPush []) [] 0x91 id; let n : Nat := 0;
     let job : Nat := 3; let c := s.dev.c; let sid := 0; let x := xPush (2 ^ 49 + 0x1000 * 2 ^ 64 + 2 ^ 160) (rPush []) [];
     let e := 0; let sh := 2 ^ 49 + 0x1000 * 2 ^ 64 + 2 ^ 160;
     c.jobCtx job = some n ∧ c.ctx? n = some x ∧ x.replicaOf sid = some (e, sh)) ∧
    (let s : State := sPush (2 ^ 49 + 0x1000 * 2 ^ 64 + 2 ^ 160) (rPush []) [] 0x91 id; let n : Nat := 0;
     let job : Nat := 3; let c := s.dev.c; let sid := 7; let x := xPush (2 ^ 49 + 0x1000 * 2 ^ 64 + 2 ^ 160) (rPush []) [];
     c.jobCtx job = some n ∧ c.ctx? n = some x ∧ x.replicaOf sid = none) ∧
    (let s : State := sPush (2 ^ 49 + 0x1000 * 2 ^ 64 + 2 ^ 160) (rPush []) [] 0x91 id; let n : Nat := 0; let c := s.dev.c;
     let entry := 0; let v := wVerdict 0; let j := wJob;
     n < 16 ∧ entry < 65536 ∧ shRole (c.entry n tShard entry) = 2 ∧ (c.stepSt n).verdict = some v ∧ v.decision = 0 ∧
     c.job? n = some j ∧ shOwner (c.entry n tShard entry) ∉ j.lost ∧ entry ∉ (c.stepSt n).pushLanded) ∧
    (let s : State := sPush (2 ^ 49 + 0x1000 * 2 ^ 64 + 2 ^ 160) (rPush [0]) [] 0x91 id; let n : Nat := 0;
     let c := s.dev.c; let entry := 0;
     n < 16 ∧ entry < 65536 ∧ entry ∈ (c.stepSt n).pushLanded) ∧
    (let s : State := sPush (2 ^ 48 + 0x1000 * 2 ^ 64 + 2 ^ 160) (rPush []) [] 0x91 id; let n : Nat := 0;
     let src : Nat := 5; let job : Nat := 3; let c := s.dev.c; let sid := 0;
     let x := xPush (2 ^ 48 + 0x1000 * 2 ^ 64 + 2 ^ 160) (rPush []) []; let e := 0;
     let sh := 2 ^ 48 + 0x1000 * 2 ^ 64 + 2 ^ 160;
     let c1 := (((c.hear n src).touchAt n (shPub sh)).hbmRead n (shPub sh) ((c.hear n src).pubBytes n sh)).1;
     let b := okOr (c1.uuRead n (shPub sh) (c1.pubBytes n sh)) [];
     c.jobCtx job = some n ∧ (c.hear n src).ctx? n = some x ∧ x.ownedOf sid = some (e, sh) ∧
     c1.uuRead n (shPub sh) (c1.pubBytes n sh) = .ok b) ∧
    (let s : State := sPush (2 ^ 49 + 0x1000 * 2 ^ 64 + 2 ^ 160) (rPush []) [] 0x91 id; let c := s.dev.c; let die := 13;
     let r := wRa 0x91; let x := xPush (2 ^ 49 + 0x1000 * 2 ^ 64 + 2 ^ 160) (rPush []) []; let j := wJob;
     let e := c.entry r.a.ctx tDisp (aEntry r.a.bits);
     let rd := c.unitReads (.de die) r.a.ctx [(dpDevs e, 2 * dpDevN e), (dpEmap e, 8 * dpExperts e), (dpAssign e, 8 * dpAssigns e)];
     let p := okOr (rd.1.planLists 0 wDisp) ⟨0, 0, [], [], []⟩;
     isLinkDie die = true ∧ c.active (.de die) 0x91 = some r ∧ r.started = false ∧
     c.entry r.a.ctx tDisp (aEntry r.a.bits) ≠ 0 ∧ c.ctx? r.a.ctx = some x ∧ x.dispatchOk e = true ∧
     c.job? r.a.ctx = some j ∧ rd.2 = false ∧ rd.1.planLists r.a.ctx e = .ok p ∧ p.ok rd.1.devNum = true ∧
     rd.1.unarmed (.sub die 12 0)) ∧
    (let die := 13;
     let s : State := sPush (2 ^ 49 + 0x1000 * 2 ^ 64 + 2 ^ 160) (rPush []) [(0, { Disp.fresh with die := some 13, counted := true })] 0x92 id;
     let c := s.dev.c; let r := wRa 0x92; let c3 := okOr (c.combReturn die 0 0 (c.disp 0 0)) c;
     isLinkDie die = true ∧ c.active (.de die) 0x92 = some r ∧ r.started = false ∧
     c.entry r.a.ctx tDisp (aEntry r.a.bits) ≠ 0 ∧ (c.disp r.a.ctx (aEntry r.a.bits)).die.isSome = true ∧
     (c.disp r.a.ctx (aEntry r.a.bits)).counted = true ∧ c.unarmed (.sub die 12 0) ∧
     c.combReturn die r.a.ctx (aEntry r.a.bits) (c.disp r.a.ctx (aEntry r.a.bits)) = .ok c3) ∧
    (let s : State := sPush (2 ^ 49 + 0x1000 * 2 ^ 64 + 2 ^ 160) (rPush []) [] 0x91 id; let n : Nat := 0;
     let src : Nat := 5; let job : Nat := 3; let c := s.dev.c; let dplan := 0;
     c.dispCtx job src = some n ∧ (c.hear n src).entry n tDisp dplan ≠ 0 ∧
     kget ((c.hear n src).disp n dplan).counts src = none) ∧
    (let s : State := sPush (2 ^ 49 + 0x1000 * 2 ^ 64 + 2 ^ 160) (rPush []) [(0, { Disp.fresh with counts := [(5, [0])] })] 0x91 id;
     let n : Nat := 0; let src : Nat := 5; let job : Nat := 3; let c := s.dev.c; let dplan := 0;
     c.dispCtx job src = some n ∧ (kget ((c.hear n src).disp n dplan).counts src).isSome = true) ∧
    (let s : State := sPush (2 ^ 49 + 0x1000 * 2 ^ 64 + 2 ^ 160) (rPush []) [] 0x91 (fun c => { c with requests := [(1, wReq kDispCount 1 (.de 13) (leBytes 0 2 ++ leBytes 0 1))] });
     let n : Nat := 0; let src : Nat := 5; let job : Nat := 3; let c := s.dev.c; let dplan := 0; let k := 1;
     let q := wReq kDispCount 1 (.de 13) (leBytes 0 2 ++ leBytes 0 1);
     c.dispCtx job src = some n ∧ (c.hear n src).requests = [(k, q)] ∧ q.ctx = n ∧ q.msg.kind = kDispCount ∧
     q.msg.dst = src ∧ q.msg.payload.take 3 = leBytes dplan 2 ++ leBytes (b2n false) 1) ∧
    (let s : State := sPush (2 ^ 49 + 0x1000 * 2 ^ 64 + 2 ^ 160) (rPush []) [] 0x91 id; let n : Nat := 0;
     let src : Nat := 5; let job : Nat := 3; let c := s.dev.c;
     c.dispCtx job src = some n) ∧
    (let s : State := sPush (2 ^ 49 + 0x1000 * 2 ^ 64 + 2 ^ 160) (rPush []) [] 0x91 id; let n : Nat := 0;
     let src : Nat := 5; let job : Nat := 3; let c := s.dev.c;
     c.dispCtx job src = some n) := by
  refine ⟨by decide +kernel, by decide +kernel, by decide +kernel, by decide +kernel, ?_, ?_, ?_, by decide +kernel,
      by decide +kernel, by decide +kernel, by decide +kernel, by decide +kernel⟩
  · dsimp only; exact ⟨by decide +kernel, by decide +kernel, by decide +kernel, ok_of (by decide +kernel)⟩
  · dsimp only; exact ⟨by decide +kernel, by decide +kernel, by decide +kernel, by decide +kernel, by decide +kernel,
      by decide +kernel, by decide +kernel, by decide +kernel, ok_of (by decide +kernel), by decide +kernel,
      unarmed_of (by decide +kernel)⟩
  · dsimp only; exact ⟨by decide +kernel, by decide +kernel, by decide +kernel, by decide +kernel, by decide +kernel,
      by decide +kernel, unarmed_of (by decide +kernel), ok_of (by decide +kernel)⟩

/-- Premises of RemoteRequests met, clause by clause. -/
theorem witness_remoteRequests :
    (let s : State := ws (fun c => { c with ctxs := [(0, { xJob with run := none })], cur := some 0 }); let n : Nat := 0;
     let job : Nat := 3; let c := s.dev.c;
     c.jobCtx job = some n) ∧
    (let s : State := ws (fun c => { c with ctxs := [(0, { xJob with run := none })], cur := some 0 }); let job : Nat := 9;
     let c := s.dev.c;
     c.jobCtx job = none) ∧
    (let src : Nat := 5; let job : Nat := 3; let tag : Nat := 1;
     let s : State := ws (fun c => { c with ctxs := [(0, { xJob with run := none })], cur := some 0, reads := [{ src := 5, job := 3, tag := 1, addr := 0, len := 64 }] });
     let n : Nat := 0; let c := s.dev.c; let i := 0;
     let r := ({ src := 5, job := 3, tag := 1, addr := 0, len := 64 } : ReadWait); let j := wJob;
     let b := okOr (c.readBytes 0 0 64) []; let pl := readPayload 0 (c.versions n r.addr r.len) b;
     let flits := flitsOf (4 + pl.length + (if j.enc then 16 else 0));
     c.reads[i]? = some r ∧ c.jobCtx r.job = some n ∧ c.job? n = some j ∧ farRange r.addr r.len = true ∧
     c.readBytes n r.addr r.len = .ok b ∧ c.replyReady r.src flits j.enc = false) ∧
    (let src : Nat := 5; let job : Nat := 3; let tag : Nat := 1;
     let s : State := ws (fun c => { c with ctxs := [(0, { xJob with run := none })], cur := some 0, reads := [{ src := 5, job := 3, tag := 1, addr := 0, len := 64 }], routes := [(5, 0)], links := [(0, { Link.reset with st := .up, credReply := 8, credBulk := 8, credEscape := 8, far := some { isT1536 := true, dev := 5, mapped := true, link := 0, lanes := 8, stepping := 0, rtt := 10 } })] });
     let n : Nat := 0; let c := s.dev.c; let i := 0;
     let r := ({ src := 5, job := 3, tag := 1, addr := 0, len := 64 } : ReadWait); let j := wJob;
     let b := okOr (c.readBytes 0 0 64) []; let pl := readPayload 0 (c.versions n r.addr r.len) b;
     let flits := flitsOf (4 + pl.length + (if j.enc then 16 else 0)); let h := c.hbmRead n r.addr r.len;
     let b1 := okOr (h.1.readBytes 0 0 64) [];
     c.reads[i]? = some r ∧ c.jobCtx r.job = some n ∧ c.job? n = some j ∧ farRange r.addr r.len = true ∧
     c.readBytes n r.addr r.len = .ok b ∧ c.replyReady r.src flits j.enc = true ∧ h.2 = false ∧
     h.1.readBytes n r.addr r.len = .ok b1) ∧
    (let src : Nat := 5; let job : Nat := 3; let tag : Nat := 1;
     let s : State := ws (fun c => { c with ctxs := [(0, { xJob with run := none })], cur := some 0, reads := [{ src := 5, job := 3, tag := 1, addr := 0, len := 64 }], routes := [(5, 0)], links := [(0, { Link.reset with st := .up, credReply := 8, credBulk := 8, credEscape := 8, far := some { isT1536 := true, dev := 5, mapped := true, link := 0, lanes := 8, stepping := 0, rtt := 10 } })], reg := [(injAddr (.stack 0) 2, 2 ^ 63 + 2 ^ 48)] });
     let n : Nat := 0; let c := s.dev.c; let i := 0;
     let r := ({ src := 5, job := 3, tag := 1, addr := 0, len := 64 } : ReadWait); let j := wJob;
     let b := okOr (c.readBytes 0 0 64) []; let pl := readPayload 0 (c.versions n r.addr r.len) b;
     let flits := flitsOf (4 + pl.length + (if j.enc then 16 else 0)); let h := c.hbmRead n r.addr r.len;
     c.reads[i]? = some r ∧ c.jobCtx r.job = some n ∧ c.job? n = some j ∧ farRange r.addr r.len = true ∧
     c.readBytes n r.addr r.len = .ok b ∧ c.replyReady r.src flits j.enc = true ∧ h.2 = true) ∧
    (let s : State := ws (fun c => { c with ctxs := [(0, { xJob with run := none })], cur := some 0 }); let n : Nat := 0;
     let job : Nat := 3; let c := s.dev.c;
     c.jobCtx job = some n) ∧
    (let s : State := ws (fun c => { c with ctxs := [(0, { xJob with run := none })], cur := some 0, requests := [(1, wReq kRead 1 (.se 1 0) [])] });
     let tag : Nat := 1; let c := s.dev.c; let q := wReq kRead 1 (.se 1 0) []; let d := 1; let e := 0;
     kget c.requests tag = some q ∧ q.msg.kind = kRead ∧ q.owner = .se d e) ∧
    (let s : State := ws (fun c => { c with ctxs := [(0, { xJob with run := none })], cur := some 0 }); let tag : Nat := 1;
     let c := s.dev.c;
     kget c.requests tag = none) ∧
    (let s : State := ws (fun c => { c with ctxs := [(0, { xJob with run := none })], cur := some 0, requests := [(1, wReq kWrite 1 (.se 1 0) [])] });
     let tag : Nat := 1; let c := s.dev.c; let q := wReq kWrite 1 (.se 1 0) []; let d := 1; let e := 0;
     kget c.requests tag = some q ∧ q.msg.kind = kWrite ∧ q.owner = .se d e) ∧
    (let s : State := ws (fun c => { c with ctxs := [(0, { xJob with run := none })], cur := some 0 }); let tag : Nat := 1;
     let c := s.dev.c;
     kget c.requests tag = none) ∧
    (let s : State := ws (fun c => { c with ctxs := [(0, { xJob with run := none })], cur := some 0, requests := [(1, wReq kPush 1 (.uu 10) [])] });
     let tag : Nat := 1; let c := s.dev.c; let q := wReq kPush 1 (.uu 10) [];
     kget c.requests tag = some q ∧ c.orphan q = false ∧ q.sends < 8) ∧
    (let s : State := ws (fun c => { c with ctxs := [(0, { xJob with run := none })], cur := some 0, requests := [(1, wReq kPush 8 (.uu 10) [])], cols := [(.uu 10, { run := some (wRa 0x72), queue := [], dropped := false })] });
     let tag : Nat := 1; let c := s.dev.c; let q := wReq kPush 8 (.uu 10) []; let r := wRa 0x72;
     kget c.requests tag = some q ∧ c.orphan q = false ∧ 8 ≤ q.sends ∧ c.running q.owner = some r ∧ r.a.ctx = q.ctx ∧
     r.done = false) := by
  refine ⟨by decide +kernel, by decide +kernel, ?_, ?_, ?_, by decide +kernel, by decide +kernel, by decide +kernel,
      by decide +kernel, by decide +kernel, by decide +kernel, by decide +kernel⟩
  · dsimp only; exact ⟨by decide +kernel, by decide +kernel, by decide +kernel, by decide +kernel, ok_of (by decide +kernel),
      by decide +kernel⟩
  · dsimp only; exact ⟨by decide +kernel, by decide +kernel, by decide +kernel, by decide +kernel, ok_of (by decide +kernel),
      by decide +kernel, by decide +kernel, ok_of (by decide +kernel)⟩
  · dsimp only; exact ⟨by decide +kernel, by decide +kernel, by decide +kernel, by decide +kernel, ok_of (by decide +kernel),
      by decide +kernel, by decide +kernel⟩

/-- Premises of LinkFlits met, clause by clause. -/
theorem witness_linkFlits :
    (let s : State := ws (fun c => { c with links := [(0, { Link.reset with st := .up })] }); let l : Nat := 0;
     let c := s.dev.c; let k := c.link l; let c1 := c.bump (linkBase l + 0x418) 64 1;
     let f : Flit := ({ crcOk := true, tagOk := true, lseq := 0, mtag := 0, job := 3, kind := 2, cls := 1, enc := false, idx := 0, last := true, src := 5, dst := 0, payload := [] } : Flit);
     l < 36 ∧ k.st = .up ∧ c1.unarmed (.link l) ∧ c1.unarmed (.die (linkDie l)) ∧ f.crcOk = true ∧ f.kind ≠ 1 ∧
     f.lseq = k.rxSeq) ∧
    (let s : State := ws (fun c => { c with links := [(0, { Link.reset with st := .up })] }); let l : Nat := 0;
     let c := s.dev.c; let k := c.link l; let c1 := c.bump (linkBase l + 0x418) 64 1;
     let f : Flit := ({ crcOk := true, tagOk := true, lseq := 4095, mtag := 0, job := 3, kind := 2, cls := 1, enc := false, idx := 0, last := true, src := 5, dst := 0, payload := [] } : Flit);
     l < 36 ∧ k.st = .up ∧ c1.unarmed (.link l) ∧ c1.unarmed (.die (linkDie l)) ∧ f.crcOk = true ∧ f.kind ≠ 1 ∧
     f.lseq ≠ k.rxSeq ∧ (k.rxSeq + 4096 - f.lseq) % 4096 ≤ 2048) ∧
    (let s : State := ws (fun c => { c with links := [(0, { Link.reset with st := .up })] }); let l : Nat := 0;
     let c := s.dev.c; let k := c.link l; let c1 := c.bump (linkBase l + 0x418) 64 1;
     let f : Flit := ({ crcOk := true, tagOk := true, lseq := 1, mtag := 0, job := 3, kind := 2, cls := 1, enc := false, idx := 0, last := true, src := 5, dst := 0, payload := [] } : Flit);
     l < 36 ∧ k.st = .up ∧ c1.unarmed (.link l) ∧ c1.unarmed (.die (linkDie l)) ∧ f.crcOk = true ∧
     (f.kind = 1 ∨ (f.lseq ≠ k.rxSeq ∧ 2048 < (k.rxSeq + 4096 - f.lseq) % 4096))) ∧
    (let s : State := ws (fun c => { c with links := [(0, { Link.reset with st := .up })] }); let l : Nat := 0;
     let c := s.dev.c; let k := c.link l; let c1 := c.bump (linkBase l + 0x418) 64 1;
     let f : Flit := ({ crcOk := false, tagOk := true, lseq := 0, mtag := 0, job := 3, kind := 2, cls := 1, enc := false, idx := 0, last := true, src := 5, dst := 0, payload := [] } : Flit);
     l < 36 ∧ k.st = .up ∧ c1.unarmed (.link l) ∧ c1.unarmed (.die (linkDie l)) ∧ f.crcOk = false) ∧
    (let l : Nat := 0;
     let f : Flit := ({ crcOk := true, tagOk := false, lseq := 0, mtag := 0, job := 3, kind := 2, cls := 1, enc := true, idx := 0, last := true, src := 5, dst := 0, payload := [] } : Flit);
     let m : RxMsg := ({ first := 0, count := 1, enc := true, parts := [(0, 1, [])] } : RxMsg);
     l < 36 ∧ f.last = true ∧ m.enc = true ∧ f.tagOk = false) ∧
    (let s : State := ws (fun c => { c with links := [(0, { Link.reset with st := .down })] }); let l : Nat := 0;
     let c := s.dev.c; let k := c.link l; let cls := 1;
     l < 36 ∧ k.st ≠ .up ∧ 1 ≤ cls ∧ cls ≤ 3) ∧
    (let s : State := ws (fun c => { c with links := [(0, { Link.reset with st := .up, replay := [{ lseq := 0, replays := 0, kind := 1, tag := 0, bytes := [] }] })] });
     let l : Nat := 0; let c := s.dev.c; let k := c.link l; let n := 0;
     let f := ({ lseq := 0, replays := 0, kind := 1, tag := 0, bytes := [] } : TxFlit);
     l < 36 ∧ k.st = .up ∧ f ∈ k.replay ∧ f.lseq = n) ∧
    (let l : Nat := 0;
     l < 36) ∧
    (let s : State := ws (fun c => { c with links := [(0, { Link.reset with st := .up, replay := [{ lseq := 0, replays := 0, kind := 1, tag := 0, bytes := [] }] })] });
     let l : Nat := 0; let c := s.dev.c; let k := c.link l;
     l < 36 ∧ k.st = .up ∧ k.replay ≠ [] ∧ (∀ f, f ∈ k.replay → f.replays < 2)) ∧
    (let s : State := ws (fun c => { c with links := [(0, { Link.reset with st := .up })] }); let l : Nat := 0;
     let c := s.dev.c; let k := c.link l;
     l < 36 ∧ k.st = .up) ∧
    (let s : State := ws (fun c => { c with links := [(0, { Link.reset with st := .up })] }); let l : Nat := 0;
     let c := s.dev.c; let k := c.link l; let src := 5; let tag := 1;
     l < 36 ∧ kget k.rx (src, tag) = none) ∧
    (let s : State := ws (fun c => { c with links := [(0, { Link.reset with st := .up, rx := [((5, 1), { first := 0, count := 1, enc := false, parts := [(0, 1, [])] })] })] });
     let l : Nat := 0; let c := s.dev.c; let k := c.link l; let src := 5; let tag := 1;
     let m : RxMsg := ({ first := 0, count := 1, enc := false, parts := [(0, 1, [])] } : RxMsg);
     l < 36 ∧ kget k.rx (src, tag) = some m) ∧
    (let s : State := ws (fun c => { c with links := [(0, { Link.reset with st := .up })], transit := [{ wMsg 1 [] with cls := 1, arrived := none }] });
     let l : Nat := 0; let c := s.dev.c; let n := 0; let t := { wMsg 1 [] with cls := 1, arrived := none };
     l < 36 ∧ c.transit[n]? = some t ∧ (t.cls = 1 ∨ t.cls = 2) ∧ c.waitsAt t = some l) ∧
    (let s : State := ws (fun c => { c with links := [(0, { Link.reset with st := .up })], transit := [{ wMsg 1 [] with cls := 3, arrived := some 0 }] });
     let l : Nat := 0; let c := s.dev.c; let n := 0; let t := { wMsg 1 [] with cls := 3, arrived := some 0 };
     l < 36 ∧ c.transit[n]? = some t ∧ t.cls = 3 ∧ t.arrived = some l ∧
     (∀ m, m ∈ c.outLinks (kgetD c.routes t.dst 0) 3 → c.linkUsable m 3 t.enc = false)) := by
  refine ⟨?_, ?_, ?_, ?_, by decide +kernel, by decide +kernel, by decide +kernel, by decide +kernel, by decide +kernel,
      by decide +kernel, by decide +kernel, by decide +kernel, by decide +kernel, by decide +kernel⟩
  · dsimp only; exact ⟨by decide +kernel, by decide +kernel, unarmed_of (by decide +kernel), unarmed_of (by decide +kernel),
      by decide +kernel, by decide +kernel, by decide +kernel⟩
  · dsimp only; exact ⟨by decide +kernel, by decide +kernel, unarmed_of (by decide +kernel), unarmed_of (by decide +kernel),
      by decide +kernel, by decide +kernel, by decide +kernel, by decide +kernel⟩
  · dsimp only; exact ⟨by decide +kernel, by decide +kernel, unarmed_of (by decide +kernel), unarmed_of (by decide +kernel),
      by decide +kernel, by decide +kernel⟩
  · dsimp only; exact ⟨by decide +kernel, by decide +kernel, unarmed_of (by decide +kernel), unarmed_of (by decide +kernel),
      by decide +kernel⟩

/-- Premises of LinkTraining met, clause by clause. Clauses 10 and 11 turn on an opaque signature check. -/
theorem witness_linkTraining :
    (let s : State := ws (fun c => { c with links := [(0, { Link.reset with st := .training })] }); let l : Nat := 0;
     let c := s.dev.c; let k := c.link l;
     let far : FarEnd := ({ isT1536 := true, dev := 5, mapped := true, link := 0, lanes := 8, stepping := 0, rtt := 10 } : FarEnd);
     l < 36 ∧ k.st = .training ∧ k.enabled = true ∧ c.usable (.link l) = true ∧ c.unarmed (.link l) ∧ far.isT1536 = true ∧
     far.lanes = 8 ∧ far.rtt ≤ 1000) ∧
    (let s : State := ws (fun c => { c with links := [(0, { Link.reset with st := .training })] }); let l : Nat := 0;
     let c := s.dev.c; let k := c.link l;
     let far : FarEnd := ({ isT1536 := true, dev := 5, mapped := true, link := 0, lanes := 4, stepping := 0, rtt := 10 } : FarEnd);
     l < 36 ∧ k.st = .training ∧ k.enabled = true ∧ c.usable (.link l) = true ∧ c.unarmed (.link l) ∧
     (far.isT1536 = false ∨ far.lanes ≠ 8 ∨ 1000 < far.rtt)) ∧
    (let s : State := ws (fun c => { c with links := [(0, { Link.reset with st := .down })] }); let l : Nat := 0;
     let c := s.dev.c; let k := c.link l;
     l < 36 ∧ (k.st ≠ .training ∨ k.enabled = false ∨ c.usable (.link l) = false)) ∧
    (let s : State := ws (fun c => { c with links := [(0, { Link.reset with st := .down })] }); let l : Nat := 0;
     let c := s.dev.c; let k := c.link l;
     l < 36 ∧ k.st = .down ∧ k.enabled = true ∧ c.usable (.link l) = true ∧ 5 ≤ c.stage ∧ s.dev.pw.linkRef = true ∧
     c.devState ≠ .stopped) ∧
    (let s : State := ws (fun c => { c with links := [(0, { Link.reset with st := .training })] }); let l : Nat := 0;
     let c := s.dev.c; let k := c.link l;
     l < 36 ∧ k.st = .training) ∧
    (let s : State := ws (fun c => { c with links := [(0, { Link.reset with st := .retraining })] }); let l : Nat := 0;
     let c := s.dev.c; let k := c.link l;
     let far : FarEnd := ({ isT1536 := true, dev := 5, mapped := true, link := 0, lanes := 8, stepping := 0, rtt := 10 } : FarEnd);
     l < 36 ∧ k.st = .retraining ∧ c.unarmed (.link l) ∧ far.isT1536 = true ∧ far.lanes = 8 ∧ far.rtt ≤ 1000) ∧
    (let s : State := ws (fun c => { c with links := [(0, { Link.reset with st := .retraining })] }); let l : Nat := 0;
     let c := s.dev.c; let k := c.link l;
     let far : FarEnd := ({ isT1536 := true, dev := 5, mapped := true, link := 0, lanes := 4, stepping := 0, rtt := 10 } : FarEnd);
     l < 36 ∧ k.st = .retraining ∧ c.unarmed (.link l) ∧ (far.isT1536 = false ∨ far.lanes ≠ 8 ∨ 1000 < far.rtt)) ∧
    (let s : State := ws (fun c => { c with links := [(0, { Link.reset with st := .retraining })] }); let l : Nat := 0;
     let c := s.dev.c; let k := c.link l;
     l < 36 ∧ k.st = .retraining) ∧
    (let s : State := ws (fun c => { c with links := [(0, { Link.reset with st := .up })] }); let l : Nat := 0;
     let c := s.dev.c; let k := c.link l;
     l < 36 ∧ k.st ≠ .retraining) ∧
    (let s : State := ws (fun c => { c with links := [(0, { Link.reset with st := .up, keyMsgs := 2 ^ 32, key := some [] })] });
     let l : Nat := 0; let c := s.dev.c; let k := c.link l;
     l < 36 ∧ 2 ^ 32 ≤ k.keyMsgs ∧ k.key.isSome = true) ∧
    (let s : State := ws (fun c => { c with links := [(0, { Link.reset with st := .up })] }); let l : Nat := 0;
     let c := s.dev.c; let k := c.link l;
     l < 36 ∧ k.keyMsgs < 2 ^ 32) := by
  refine ⟨?_, ?_, by decide +kernel, by decide +kernel, by decide +kernel, ?_, ?_, by decide +kernel, by decide +kernel,
      by decide +kernel, by decide +kernel⟩
  · dsimp only; exact ⟨by decide +kernel, by decide +kernel, by decide +kernel, by decide +kernel,
      unarmed_of (by decide +kernel), by decide +kernel, by decide +kernel, by decide +kernel⟩
  · dsimp only; exact ⟨by decide +kernel, by decide +kernel, by decide +kernel, by decide +kernel,
      unarmed_of (by decide +kernel), by decide +kernel⟩
  · dsimp only; exact ⟨by decide +kernel, by decide +kernel, unarmed_of (by decide +kernel), by decide +kernel,
      by decide +kernel, by decide +kernel⟩
  · dsimp only; exact ⟨by decide +kernel, by decide +kernel, unarmed_of (by decide +kernel), by decide +kernel⟩

/-- Premises of LinkCommands met, clause by clause. -/
theorem witness_linkCommands :
    (let s : State := ws (fun c => { c with links := [(0, { Link.reset with st := .up })] });
     let p : Packet := wp 0x401 false [1, 10]; let c : Core := s.dev.c.arrive p;
     s.dev.begins (Cmd.plain 0x401 false [64, 64]) p c ∧ 1 ≤ p.arg 0 ∧ p.arg 0 ≤ 65535 ∧ 10 ≤ p.arg 1 ∧ p.arg 1 ≤ 65535) ∧
    (let s : State := ws (fun c => { c with links := [(0, { Link.reset with st := .up })] });
     let p : Packet := wp 0x401 false [0, 9]; let c : Core := s.dev.c.arrive p;
     s.dev.begins (Cmd.plain 0x401 false [64, 64]) p c ∧ (p.arg 0 < 1 ∨ 65535 < p.arg 0 ∨ p.arg 1 < 10 ∨ 65535 < p.arg 1)) ∧
    (let s : State := ws (fun c => { c with links := [(0, { Link.reset with st := .up })] });
     let p : Packet := wp 0x402 false [32768, 1]; let c : Core := s.dev.c.arrive p;
     s.dev.begins (Cmd.plain 0x402 false [64, 64]) p c ∧ 2 ^ 15 ≤ p.arg 0) ∧
    (let s : State := ws (fun c => { c with ctxs := [(0, { wCtx with job := some wJob })] });
     let p : Packet := wp 0x402 false [0, 1]; let c : Core := s.dev.c.arrive p;
     s.dev.begins (Cmd.plain 0x402 false [64, 64]) p c ∧ p.arg 0 < 2 ^ 15 ∧ c.allRecover = false) ∧
    (let s : State := ws (fun c => { c with ctxs := [(0, xLoad)] }); let p : Packet := wp 0x402 false [0, 1];
     let c : Core := s.dev.c.arrive p; let b := zeros 131072; let c0 := c.checkObj (p.arg 1 / 2 ^ 28) (p.arg 1) 0 131072;
     let es := (List.range 32768).map (fun i => fieldAt b (4 * i) 4);
     s.dev.begins (Cmd.plain 0x402 false [64, 64]) p c ∧ p.arg 0 < 2 ^ 15 ∧ c.allRecover = true ∧
     c0.byHandle (p.arg 1 / 2 ^ 28) (p.arg 1) 0 131072 0x481 = .ok b ∧
     (∀ i, i < 32768 → routeEntryOk (p.arg 0) i (es.getD i 0) = true)) ∧
    (let s : State := ws (fun c => { c with links := [(0, { Link.reset with st := .up })] });
     let p : Packet := wp 0x408 false [36, 0]; let c : Core := s.dev.c.arrive p;
     s.dev.begins (Cmd.plain 0x408 false [64, 64]) p c ∧ 36 ≤ p.arg 0 ∧ p.arg 1 = 0) ∧
    (let s : State := ws (fun c => { c with links := [(0, { Link.reset with st := .up })] });
     let p : Packet := wp 0x408 false [36, 1]; let c : Core := s.dev.c.arrive p;
     s.dev.begins (Cmd.plain 0x408 false [64, 64]) p c ∧ 36 ≤ p.arg 0 ∧ p.arg 1 = 1) ∧
    (let s : State := ws (fun c => { c with links := [(0, { Link.reset with st := .up })] });
     let p : Packet := wp 0x408 false [36, 2]; let c : Core := s.dev.c.arrive p;
     s.dev.begins (Cmd.plain 0x408 false [64, 64]) p c ∧ 36 ≤ p.arg 0 ∧ p.arg 1 = 2) ∧
    (let s : State := ws (fun c => { c with links := [(0, { Link.reset with st := .up })] });
     let p : Packet := wp 0x408 false [0, 0]; let c : Core := s.dev.c.arrive p;
     s.dev.begins (Cmd.plain 0x408 false [64, 64]) p c ∧ p.arg 0 < 36 ∧ p.arg 1 = 0 ∧ c.usable (.link (p.arg 0)) = true) ∧
    (let s : State := ws (fun c => { c with links := [(0, { Link.reset with st := .up })] });
     let p : Packet := wp 0x408 false [0, 1]; let c : Core := s.dev.c.arrive p;
     s.dev.begins (Cmd.plain 0x408 false [64, 64]) p c ∧ p.arg 0 < 36 ∧ p.arg 1 = 1 ∧ (c.link (p.arg 0)).st = .up) ∧
    (let s : State := ws (fun c => { c with links := [(0, { Link.reset with st := .up })] });
     let p : Packet := wp 0x408 false [1, 1]; let c : Core := s.dev.c.arrive p;
     s.dev.begins (Cmd.plain 0x408 false [64, 64]) p c ∧ p.arg 0 < 36 ∧ p.arg 1 = 1 ∧ (c.link (p.arg 0)).st ≠ .up ∧
     (c.link (p.arg 0)).st ≠ .retraining) ∧
    (let s : State := ws (fun c => { c with links := [(0, { Link.reset with st := .up })] });
     let p : Packet := wp 0x408 false [0, 2]; let c : Core := s.dev.c.arrive p;
     s.dev.begins (Cmd.plain 0x408 false [64, 64]) p c ∧ p.arg 0 < 36 ∧ p.arg 1 = 2) := by
  refine ⟨?_, ?_, ?_, ?_, ?_, ?_, ?_, ?_, ?_, ?_, ?_, ?_⟩
  · dsimp only; exact ⟨begins_of (by decide +kernel), by decide +kernel, by decide +kernel, by decide +kernel,
      by decide +kernel⟩
  · dsimp only; exact ⟨begins_of (by decide +kernel), by decide +kernel⟩
  · dsimp only; exact ⟨begins_of (by decide +kernel), by decide +kernel⟩
  · dsimp only; exact ⟨begins_of (by decide +kernel), by decide +kernel, by decide +kernel⟩
  · dsimp only; exact ⟨begins_of (by decide +kernel), by decide +kernel, by decide +kernel,
      byHandle_zeros (by decide +kernel) (by decide +kernel) (by decide +kernel) (by decide +kernel), routes_zeros _⟩
  · dsimp only; exact ⟨begins_of (by decide +kernel), by decide +kernel, by decide +kernel⟩
  · dsimp only; exact ⟨begins_of (by decide +kernel), by decide +kernel, by decide +kernel⟩
  · dsimp only; exact ⟨begins_of (by decide +kernel), by decide +kernel, by decide +kernel⟩
  · dsimp only; exact ⟨begins_of (by decide +kernel), by decide +kernel, by decide +kernel, by decide +kernel⟩
  · dsimp only; exact ⟨begins_of (by decide +kernel), by decide +kernel, by decide +kernel, by decide +kernel⟩
  · dsimp only; exact ⟨begins_of (by decide +kernel), by decide +kernel, by decide +kernel, by decide +kernel,
      by decide +kernel⟩
  · dsimp only; exact ⟨begins_of (by decide +kernel), by decide +kernel, by decide +kernel⟩

/-- Premises of JobCommands met, clause by clause. -/
theorem witness_jobCommands :
    (let s : State := ws (fun c => { c with hbm := hb [0, 0, 0, 0, 1], ctxs := [(0, { wCtx with objs := [(1, { wObj with floor := true })] })] });
     let p : Packet := wp 0x403 true [1]; let c : Core := s.dev.c.arrive p; let n := p.ctxNum;
     let c0 := c.checkJob n (p.arg 0); let b := [0, 0, 0, 0, 1] ++ zeros 125;
     s.dev.begins (Cmd.plain 0x403 true [64]) p c ∧ c0.readJob n (p.arg 0) = .ok b ∧ c0.job? n = none ∧
     c0.jobCtx (fieldAt b 0 2) = none) ∧
    (let s : State := ws (fun c => { c with hbm := hb [0, 0, 0, 0, 1], ctxs := [(0, { wCtx with objs := [(1, { wObj with floor := true })], job := some { wJob with recovery := true } })] });
     let p : Packet := wp 0x403 true [1]; let c : Core := s.dev.c.arrive p; let n := p.ctxNum;
     let c0 := c.checkJob n (p.arg 0); let b := [0, 0, 0, 0, 1] ++ zeros 125;
     s.dev.begins (Cmd.plain 0x403 true [64]) p c ∧ c0.readJob n (p.arg 0) = .ok b ∧
     ((c0.job? n).isSome = true ∨ (c0.jobCtx (fieldAt b 0 2)).isSome = true)) ∧
    (let s : State := ws id; let p : Packet := wp 0x403 true [9]; let c : Core := s.dev.c.arrive p; let n := p.ctxNum;
     let c0 := c.checkJob n (p.arg 0); let e := 0x481;
     s.dev.begins (Cmd.plain 0x403 true [64]) p c ∧ c0.readJob n (p.arg 0) = .error e) ∧
    (let s : State := ws id; let p : Packet := wp 0x404 true []; let c : Core := s.dev.c.arrive p; let n := p.ctxNum;
     s.dev.begins (Cmd.plain 0x404 true []) p c ∧ c.job? n = none) ∧
    (let s : State := ws id; let p : Packet := wp 0x405 true [1]; let c : Core := s.dev.c.arrive p; let n := p.ctxNum;
     s.dev.begins (Cmd.plain 0x405 true [64]) p c ∧ c.job? n = none) ∧
    (let s : State := ws id; let p : Packet := wp 0x406 true [0, 1, 1]; let c : Core := s.dev.c.arrive p;
     let n := p.ctxNum;
     s.dev.begins (Cmd.plain 0x406 true [64, 64, 64]) p c ∧ c.job? n = none) ∧
    (let s : State := ws id; let p : Packet := wp 0x407 true [0, 1, 1]; let c : Core := s.dev.c.arrive p;
     let n := p.ctxNum;
     s.dev.begins (Cmd.plain 0x407 true [64, 64, 64]) p c ∧ c.job? n = none) ∧
    (let s : State := ws (fun c => { c with ctxs := [(0, { wCtx with job := some wJob })] });
     let p : Packet := wp 0x404 true []; let c : Core := s.dev.c.arrive p; let n := p.ctxNum; let j := wJob;
     s.dev.begins (Cmd.plain 0x404 true []) p c ∧ c.job? n = some j ∧ c.runStarted n = false) ∧
    (let s : State := ws (fun c => { c with ctxs := [(0, { wCtx with job := some wJob, run := some wRun })] });
     let p : Packet := wp 0x404 true []; let c : Core := s.dev.c.arrive p; let n := p.ctxNum; let j := wJob;
     s.dev.begins (Cmd.plain 0x404 true []) p c ∧ c.job? n = some j ∧ c.runStarted n = true) ∧
    (let s : State := ws (fun c => { c with ctxs := [(0, { wCtx with job := some wJob })] });
     let p : Packet := wp 0x405 true [1]; let c : Core := s.dev.c.arrive p; let n := p.ctxNum; let j := wJob;
     s.dev.begins (Cmd.plain 0x405 true [64]) p c ∧ c.job? n = some j ∧ c.allRecover = false) ∧
    (let s : State := ws (fun c => { c with hbm := hb [0, 0, 0, 0, 1], ctxs := [(0, { wCtx with objs := [(1, { wObj with floor := true })], job := some { wJob with recovery := true } })] });
     let p : Packet := wp 0x405 true [1]; let c : Core := s.dev.c.arrive p; let n := p.ctxNum;
     let c0 := c.checkJob n (p.arg 0); let j := { wJob with recovery := true }; let b := [0, 0, 0, 0, 1] ++ zeros 125;
     s.dev.begins (Cmd.plain 0x405 true [64]) p c ∧ c.job? n = some j ∧ c.allRecover = true ∧
     c0.readJob n (p.arg 0) = .ok b ∧ (∀ m, c0.jobCtx (fieldAt b 0 2) = some m → m = n)) ∧
    (let s : State := ws (fun c => { c with ctxs := [(0, xJob)] }); let p : Packet := wp 0x406 true [0, 1, 1];
     let c : Core := s.dev.c.arrive p; let n := p.ctxNum; let j := wJob; let c1 := (c.needTable p.ctxNum tTree 1).getD c;
     let es := [0];
     s.dev.begins (Cmd.plain 0x406 true [64, 64, 64]) p c ∧ c.job? n = some j ∧
     c.loads p tTree 16 4096 1 0x481 (fun _ _ e => c.treeSetOk n e) c1 es) ∧
    (let s : State := ws (fun c => { c with ctxs := [(0, xJob)] }); let p : Packet := wp 0x407 true [0, 1, 1];
     let c : Core := s.dev.c.arrive p; let n := p.ctxNum; let j := wJob; let c1 := (c.needTable p.ctxNum tDisp 1).getD c;
     let es := [0];
     s.dev.begins (Cmd.plain 0x407 true [64, 64, 64]) p c ∧ c.job? n = some j ∧
     c.loads p tDisp 128 4096 1 0x481 (fun x _ e => .ok (x.dispatchOk e)) c1 es) := by
  refine ⟨?_, ?_, ?_, ?_, ?_, ?_, ?_, ?_, ?_, ?_, ?_, ?_, ?_⟩
  · dsimp only; exact ⟨begins_of (by decide +kernel), ok_is (by decide +kernel), by decide +kernel, by decide +kernel⟩
  · dsimp only; exact ⟨begins_of (by decide +kernel), ok_is (by decide +kernel), by decide +kernel⟩
  · dsimp only; exact ⟨begins_of (by decide +kernel), err_of (by decide +kernel)⟩
  · dsimp only; exact ⟨begins_of (by decide +kernel), by decide +kernel⟩
  · dsimp only; exact ⟨begins_of (by decide +kernel), by decide +kernel⟩
  · dsimp only; exact ⟨begins_of (by decide +kernel), by decide +kernel⟩
  · dsimp only; exact ⟨begins_of (by decide +kernel), by decide +kernel⟩
  · dsimp only; exact ⟨begins_of (by decide +kernel), by decide +kernel, by decide +kernel⟩
  · dsimp only; exact ⟨begins_of (by decide +kernel), by decide +kernel, by decide +kernel⟩
  · dsimp only; exact ⟨begins_of (by decide +kernel), by decide +kernel, by decide +kernel⟩
  · dsimp only; exact ⟨begins_of (by decide +kernel), by decide +kernel, by decide +kernel, ok_is (by decide +kernel),
      all_jobs (by decide +kernel)⟩
  · dsimp only; exact ⟨begins_of (by decide +kernel), by decide +kernel,
      ⟨xJob, zeros 16, rfl, by decide +kernel, ok_is (by decide +kernel), by decide +kernel, below_one (by decide +kernel) (ok_is (by decide +kernel)), some_of (needTable_one (by decide +kernel) rfl (by decide +kernel))⟩⟩
  · dsimp only; exact ⟨begins_of (by decide +kernel), by decide +kernel,
      ⟨xJob, zeros 128, rfl, by decide +kernel, ok_is (by decide +kernel), by decide +kernel, below_one (by decide +kernel) (ok_is (by decide +kernel)), some_of (needTable_one (by decide +kernel) rfl (by decide +kernel))⟩⟩

/-- Premises of StepCommands met, clause by clause. -/
theorem witness_stepCommands :
    (let s : State := ws id; let p : Packet := wp 0x440 true [1, 1, 0, 0]; let c : Core := s.dev.c.arrive p;
     let x : Ctx := wCtx; let n := p.ctxNum;
     s.dev.begins (Cmd.plain 0x440 true [64, 64, 64, 64]) p c ∧ c.ctx? n = some x ∧ 1 ≤ p.arg 0 ∧ p.arg 0 ≤ 4294967295 ∧
     1 ≤ p.arg 1 ∧ p.arg 1 ≤ 65535 ∧ x.stashOk n (p.arg 2) (p.arg 3) = true) ∧
    (let s : State := ws id; let p : Packet := wp 0x440 true [0, 1, 0, 0]; let c : Core := s.dev.c.arrive p;
     let x : Ctx := wCtx; let n := p.ctxNum;
     s.dev.begins (Cmd.plain 0x440 true [64, 64, 64, 64]) p c ∧ c.ctx? n = some x ∧
     (p.arg 0 < 1 ∨ 4294967295 < p.arg 0 ∨ p.arg 1 < 1 ∨ 65535 < p.arg 1)) ∧
    (let s : State := ws id; let p : Packet := wp 0x440 true [1, 1, 9, 0]; let c : Core := s.dev.c.arrive p;
     let x : Ctx := wCtx; let n := p.ctxNum;
     s.dev.begins (Cmd.plain 0x440 true [64, 64, 64, 64]) p c ∧ c.ctx? n = some x ∧ 1 ≤ p.arg 0 ∧ p.arg 0 ≤ 4294967295 ∧
     1 ≤ p.arg 1 ∧ p.arg 1 ≤ 65535 ∧ x.stashOk n (p.arg 2) (p.arg 3) = false) ∧
    (let s : State := ws (fun c => { c with ctxs := [(0, xLoad)] }); let p : Packet := wp 0x441 true [0, 1, 1];
     let c : Core := s.dev.c.arrive p; let c1 := (c.needTable p.ctxNum tLayer 1).getD c; let es := [0];
     s.dev.begins (Cmd.plain 0x441 true [64, 64, 64]) p c ∧
     c.loads p tLayer 32 4096 1 0x463 (fun _ _ e => .ok (layerOk e)) c1 es) ∧
    (let s : State := ws id; let p : Packet := wp 0x441 true [4096, 1, 1]; let c : Core := s.dev.c.arrive p;
     let x : Ctx := wCtx; let n := p.ctxNum;
     s.dev.begins (Cmd.plain 0x441 true [64, 64, 64]) p c ∧ c.ctx? n = some x ∧ 4096 < p.arg 0 + p.arg 1) ∧
    (let s : State := ws (fun c => { c with ctxs := [(0, xTab)] }); let p : Packet := wp 0x442 true [0, 1, 1];
     let c : Core := s.dev.c.arrive p; let x : Ctx := wCtx; let c1 := c; let es := [0];
     s.dev.begins (Cmd.plain 0x442 true [64, 64, 64]) p c ∧
     c.loads p tShard 64 65536 2 0x463 (fun x _ e => .ok (shardOk (x.ahead tLayer) e)) c1 es) ∧
    (let s : State := ws id; let p : Packet := wp 0x442 true [65536, 1, 1]; let c : Core := s.dev.c.arrive p;
     let x : Ctx := wCtx; let n := p.ctxNum;
     s.dev.begins (Cmd.plain 0x442 true [64, 64, 64]) p c ∧ c.ctx? n = some x ∧ 65536 < p.arg 0 + p.arg 1) ∧
    (let s : State := ws (fun c => { c with ctxs := [(0, xTab)] }); let p : Packet := wp 0x443 true [1, 1];
     let c : Core := s.dev.c.arrive p; let x : Ctx := xTab; let n := p.ctxNum; let b := zeros 64; let c1 := c;
     let c0 := c.checkObj n (p.arg 1) 0 (64 * p.arg 0);
     let es := (List.range (p.arg 0)).map (fun i => ofLe ((b.drop (64 * i)).take 64));
     s.dev.begins (Cmd.plain 0x443 true [64, 64]) p c ∧ c.ctx? n = some x ∧ p.arg 0 ≤ 65536 ∧
     c0.byHandle n (p.arg 1) 0 (64 * p.arg 0) 0x463 = .ok b ∧
     (∀ i, i < p.arg 0 → shardOk (x.ahead tLayer) (es.getD i 0) = true) ∧ c0.needTable n tShard 2 = some c1) ∧
    (let s : State := ws id; let p : Packet := wp 0x443 true [65537, 1]; let c : Core := s.dev.c.arrive p;
     let x : Ctx := wCtx; let n := p.ctxNum;
     s.dev.begins (Cmd.plain 0x443 true [64, 64]) p c ∧ c.ctx? n = some x ∧ 65536 < p.arg 0) ∧
    (let s : State := ws id; let p : Packet := wp 0x444 true [64, 16, 1]; let c : Core := s.dev.c.arrive p;
     s.dev.begins (Cmd.plain 0x444 true [64, 64, 64]) p c ∧ p.arg 0 % 64 = 0 ∧ isPow2 (p.arg 1) = true ∧ p.arg 1 ≤ 65536 ∧
     p.arg 2 < 2) ∧
    (let s : State := ws id; let p : Packet := wp 0x444 true [64, 3, 1]; let c : Core := s.dev.c.arrive p;
     s.dev.begins (Cmd.plain 0x444 true [64, 64, 64]) p c ∧
     (p.arg 0 % 64 ≠ 0 ∨ isPow2 (p.arg 1) = false ∨ 65536 < p.arg 1 ∨ 2 ≤ p.arg 2)) := by
  refine ⟨?_, ?_, ?_, ?_, ?_, ?_, ?_, ?_, ?_, ?_, ?_⟩
  · dsimp only; exact ⟨begins_of (by decide +kernel), by decide +kernel, by decide +kernel, by decide +kernel,
      by decide +kernel, by decide +kernel, by decide +kernel⟩
  · dsimp only; exact ⟨begins_of (by decide +kernel), by decide +kernel, by decide +kernel⟩
  · dsimp only; exact ⟨begins_of (by decide +kernel), by decide +kernel, by decide +kernel, by decide +kernel,
      by decide +kernel, by decide +kernel, by decide +kernel⟩
  · dsimp only; exact ⟨begins_of (by decide +kernel),
      ⟨xLoad, zeros 32, rfl, by decide +kernel, ok_is (by decide +kernel), by decide +kernel, below_one (by decide +kernel) (ok_is (by decide +kernel)), some_of (needTable_one (by decide +kernel) rfl (by decide +kernel))⟩⟩
  · dsimp only; exact ⟨begins_of (by decide +kernel), by decide +kernel, by decide +kernel⟩
  · dsimp only; exact ⟨begins_of (by decide +kernel),
      ⟨xTab, zeros 64, rfl, by decide +kernel, ok_is (by decide +kernel), by decide +kernel, below_one (by decide +kernel) (ok_is (by decide +kernel)), rfl⟩⟩
  · dsimp only; exact ⟨begins_of (by decide +kernel), by decide +kernel, by decide +kernel⟩
  · dsimp only; exact ⟨begins_of (by decide +kernel), by decide +kernel, by decide +kernel,
      byHandle_zeros (by decide +kernel) (by decide +kernel) (by decide +kernel) (by decide +kernel),
      below_one (by decide +kernel) (by decide +kernel), rfl⟩
  · dsimp only; exact ⟨begins_of (by decide +kernel), by decide +kernel, by decide +kernel⟩
  · dsimp only; exact ⟨begins_of (by decide +kernel), by decide +kernel, by decide +kernel, by decide +kernel,
      by decide +kernel⟩
  · dsimp only; exact ⟨begins_of (by decide +kernel), by decide +kernel⟩

/-- Premises of CensusCommands met, clause by clause. -/
theorem witness_censusCommands :
    (let s : State := ws id; let p : Packet := wp 0x501 true [0, 12]; let c : Core := s.dev.c.arrive p;
     let x : Ctx := wCtx; let n := p.ctxNum;
     s.dev.begins (Cmd.plain 0x501 true [64, 64]) p c ∧ c.ctx? n = some x ∧ x.progs = [] ∧ p.arg 0 < 2 ∧ 10 ≤ p.arg 1 ∧
     p.arg 1 ≤ 16) ∧
    (let s : State := ws (fun c => { c with ctxs := [(0, { wCtx with progs := [(0, wProg 5)] })] });
     let p : Packet := wp 0x501 true [0, 12]; let c : Core := s.dev.c.arrive p;
     let x : Ctx := { wCtx with progs := [(0, wProg 5)] }; let n := p.ctxNum;
     s.dev.begins (Cmd.plain 0x501 true [64, 64]) p c ∧ c.ctx? n = some x ∧ x.progs ≠ []) ∧
    (let s : State := ws id; let p : Packet := wp 0x501 true [2, 9]; let c : Core := s.dev.c.arrive p; let x : Ctx := wCtx;
     let n := p.ctxNum;
     s.dev.begins (Cmd.plain 0x501 true [64, 64]) p c ∧ c.ctx? n = some x ∧ x.progs = [] ∧
     (2 ≤ p.arg 0 ∨ p.arg 1 < 10 ∨ 16 < p.arg 1)) ∧
    (let s : State := ws (fun c => { c with ctxs := [(0, { wCtx with snapshot := some [1] })] });
     let p : Packet := wp 0x502 true [64]; let c : Core := s.dev.c.arrive p;
     let x : Ctx := { wCtx with snapshot := some [1] }; let n := p.ctxNum; let b := [1];
     let c1 := (c.hostRecord (p.arg 0) [1]).getD c;
     s.dev.begins (Cmd.plain 0x502 true [64]) p c ∧ c.ctx? n = some x ∧ x.run = none ∧ x.snapshot = some b ∧
     p.arg 0 % 64 = 0 ∧ c.hostRecord (p.arg 0) b = some c1) ∧
    (let s : State := ws (fun c => { c with ctxs := [(0, { wCtx with run := some { wRun with halted := true } })] });
     let p : Packet := wp 0x502 true [64]; let c : Core := s.dev.c.arrive p;
     let x : Ctx := { wCtx with run := some { wRun with halted := true } }; let n := p.ctxNum;
     let r := { wRun with halted := true };
     let c1 := (c.hostRecord (p.arg 0) (x.census' n (c.stepOf n) true (c.stepSt n).abandon.isSome)).getD c;
     s.dev.begins (Cmd.plain 0x502 true [64]) p c ∧ c.ctx? n = some x ∧ x.run = some r ∧ r.halted = true ∧
     p.arg 0 % 64 = 0 ∧ c.hostRecord (p.arg 0) (x.census' n (c.stepOf n) true (c.stepSt n).abandon.isSome) = some c1) ∧
    (let s : State := ws id; let p : Packet := wp 0x502 true [1]; let c : Core := s.dev.c.arrive p; let x : Ctx := wCtx;
     let n := p.ctxNum;
     s.dev.begins (Cmd.plain 0x502 true [64]) p c ∧ c.ctx? n = some x ∧ p.arg 0 % 64 ≠ 0) ∧
    (let s : State := ws id; let p : Packet := wp 0x503 true [64, 16, 1]; let c : Core := s.dev.c.arrive p;
     s.dev.begins (Cmd.plain 0x503 true [64, 64, 64]) p c ∧ p.arg 0 % 64 = 0 ∧ isPow2 (p.arg 1) = true ∧ p.arg 1 ≤ 65536 ∧
     p.arg 2 < 2) ∧
    (let s : State := ws id; let p : Packet := wp 0x503 true [64, 16, 2]; let c : Core := s.dev.c.arrive p;
     s.dev.begins (Cmd.plain 0x503 true [64, 64, 64]) p c ∧
     (p.arg 0 % 64 ≠ 0 ∨ isPow2 (p.arg 1) = false ∨ 65536 < p.arg 1 ∨ 2 ≤ p.arg 2)) ∧
    (let s : State := ws id; let p : Packet := wp 0x504 true [1]; let c : Core := s.dev.c.arrive p;
     s.dev.begins (Cmd.plain 0x504 true [64]) p c ∧ p.arg 0 < 2) ∧
    (let s : State := ws id; let p : Packet := wp 0x504 true [2]; let c : Core := s.dev.c.arrive p;
     s.dev.begins (Cmd.plain 0x504 true [64]) p c ∧ 2 ≤ p.arg 0) ∧
    (let s : State := ws (fun c => { c with ctxs := [(0, { wCtx with run := some { wRun with halted := true } })] });
     let p : Packet := wp 0x505 true [0]; let c : Core := s.dev.c.arrive p; let n := p.ctxNum;
     let r := { wRun with halted := true };
     s.dev.begins (Cmd.plain 0x505 true [64]) p c ∧ c.run? n = some r ∧ r.halted = true ∧ p.arg 0 = 0) ∧
    (let s : State := ws (fun c => { c with ctxs := [(0, { wCtx with run := some { wRun with halted := true } })] });
     let p : Packet := wp 0x505 true [1]; let c : Core := s.dev.c.arrive p; let n := p.ctxNum;
     let r := { wRun with halted := true };
     s.dev.begins (Cmd.plain 0x505 true [64]) p c ∧ c.run? n = some r ∧ r.halted = true ∧ p.arg 0 = 1) ∧
    (let s : State := ws id; let p : Packet := wp 0x505 true [0]; let c : Core := s.dev.c.arrive p; let n := p.ctxNum;
     s.dev.begins (Cmd.plain 0x505 true [64]) p c ∧ c.run? n = none) := by
  refine ⟨?_, ?_, ?_, ?_, ?_, ?_, ?_, ?_, ?_, ?_, ?_, ?_, ?_⟩
  · dsimp only; exact ⟨begins_of (by decide +kernel), by decide +kernel, by decide +kernel, by decide +kernel,
      by decide +kernel, by decide +kernel⟩
  · dsimp only; exact ⟨begins_of (by decide +kernel), by decide +kernel, by decide +kernel⟩
  · dsimp only; exact ⟨begins_of (by decide +kernel), by decide +kernel, by decide +kernel, by decide +kernel⟩
  · dsimp only; exact ⟨begins_of (by decide +kernel), by decide +kernel, by decide +kernel, by decide +kernel,
      by decide +kernel, some_of (by decide +kernel)⟩
  · dsimp only; exact ⟨begins_of (by decide +kernel), by decide +kernel, by decide +kernel, by decide +kernel,
      by decide +kernel, some_of (by decide +kernel)⟩
  · dsimp only; exact ⟨begins_of (by decide +kernel), by decide +kernel, by decide +kernel⟩
  · dsimp only; exact ⟨begins_of (by decide +kernel), by decide +kernel, by decide +kernel, by decide +kernel,
      by decide +kernel⟩
  · dsimp only; exact ⟨begins_of (by decide +kernel), by decide +kernel⟩
  · dsimp only; exact ⟨begins_of (by decide +kernel), by decide +kernel⟩
  · dsimp only; exact ⟨begins_of (by decide +kernel), by decide +kernel⟩
  · dsimp only; exact ⟨begins_of (by decide +kernel), by decide +kernel, by decide +kernel, by decide +kernel⟩
  · dsimp only; exact ⟨begins_of (by decide +kernel), by decide +kernel, by decide +kernel, by decide +kernel⟩
  · dsimp only; exact ⟨begins_of (by decide +kernel), by decide +kernel⟩

/-- Premises of UpdateCommands met, clause by clause. -/
theorem witness_updateCommands :
    (let s : State := ws (fun c => { c with ctxs := [(0, xLoad)] }); let p : Packet := wp 0x510 true [0, 1, 1];
     let c : Core := s.dev.c.arrive p; let n := p.ctxNum; let b := zeros 128; let c1 := (c.needTable n tPlan 1).getD c;
     let c0 := c.checkObj n (p.arg 2) 0 (128 * p.arg 1);
     let es := (List.range (p.arg 1)).map (fun i => ofLe ((b.drop (128 * i)).take 128));
     let cr := es.foldl (fun c e => (c.hbmRead n (uList e) (128 * uCount e)).1) c0;
     s.dev.begins (Cmd.plain 0x510 true [64, 64, 64]) p c ∧ p.arg 0 + p.arg 1 ≤ 4096 ∧
     c0.byHandle n (p.arg 2) 0 (128 * p.arg 1) 0x554 = .ok b ∧
     (∀ i, i < p.arg 1 → (cr.tablesAhead n).planFault n (p.arg 0 + i) (es.getD i 0) = none) ∧
     cr.needTable n tPlan 1 = some c1) ∧
    (let s : State := ws (fun c => { c with ctxs := [(0, xLoad)] }); let p : Packet := wp 0x510 true [4096, 1, 1];
     let c : Core := s.dev.c.arrive p;
     s.dev.begins (Cmd.plain 0x510 true [64, 64, 64]) p c ∧ 4096 < p.arg 0 + p.arg 1) ∧
    (let s : State := ws (fun c => { c with hbm := hb (leBytes 0 32 ++ (List.range 15).flatMap (fun _ => leBytes (15 * 2 ^ 40) 32)), ctxs := [(0, xLoad)] });
     let p : Packet := wp 0x511 true [0, 1]; let c : Core := s.dev.c.arrive p; let n := p.ctxNum;
     let b := (leBytes 0 32 ++ (List.range 15).flatMap (fun _ => leBytes (15 * 2 ^ 40) 32));
     let c1 := (c.needTable n tPlan 1).getD c;
     s.dev.begins (Cmd.plain 0x511 true [64, 64]) p c ∧ p.arg 0 < 16 ∧
     (c.checkObj n (p.arg 1) 0 512).byHandle n (p.arg 1) 0 512 0x554 = .ok b ∧ schedOk (ofLe b) = true ∧
     (c.checkObj n (p.arg 1) 0 512).needTable n tPlan 1 = some c1) ∧
    (let s : State := ws (fun c => { c with ctxs := [(0, xLoad)] }); let p : Packet := wp 0x511 true [16, 1];
     let c : Core := s.dev.c.arrive p;
     s.dev.begins (Cmd.plain 0x511 true [64, 64]) p c ∧ 16 ≤ p.arg 0) ∧
    (let s : State := ws (fun c => { c with ctxs := [(0, xLoad)] }); let p : Packet := wp 0x511 true [0, 1];
     let c : Core := s.dev.c.arrive p; let n := p.ctxNum; let b := zeros 512;
     s.dev.begins (Cmd.plain 0x511 true [64, 64]) p c ∧ p.arg 0 < 16 ∧
     (c.checkObj n (p.arg 1) 0 512).byHandle n (p.arg 1) 0 512 0x554 = .ok b ∧ schedOk (ofLe b) = false) ∧
    (let s : State := ws (fun c => { c with ctxs := [(0, xLoad)] }); let p : Packet := wp 0x512 true [0, 1, 1, 0, 8, 1];
     let c : Core := s.dev.c.arrive p;
     s.dev.begins (Cmd.plain 0x512 true [64, 64, 64, 64, 64, 16]) p c ∧ -24 ≤ sext 64 (p.arg 0) ∧ sext 64 (p.arg 0) ≤ 24 ∧
     p.arg 1 ≤ 65535 ∧ p.arg 2 ≤ 65535 ∧ p.arg 3 < 2 ^ 48 ∧ p.arg 4 % 8 = 0 ∧ p.arg 4 < hbmEnd ∧ p.arg 5 % 256 < 2) ∧
    (let s : State := ws (fun c => { c with ctxs := [(0, xLoad)] }); let p : Packet := wp 0x512 true [25, 1, 1, 0, 8, 1];
     let c : Core := s.dev.c.arrive p;
     s.dev.begins (Cmd.plain 0x512 true [64, 64, 64, 64, 64, 16]) p c ∧ (sext 64 (p.arg 0) < -24 ∨ 24 < sext 64 (p.arg 0))) ∧
    (let s : State := ws (fun c => { c with ctxs := [(0, xLoad)] }); let p : Packet := wp 0x513 true [64];
     let c : Core := s.dev.c.arrive p; let n := p.ctxNum; let x := xLoad;
     s.dev.begins (Cmd.plain 0x513 true [64]) p c ∧ c.ctx? n = some x ∧ p.arg 0 % 64 = 0) ∧
    (let s : State := ws (fun c => { c with ctxs := [(0, xLoad)] }); let p : Packet := wp 0x513 true [1];
     let c : Core := s.dev.c.arrive p; let n := p.ctxNum; let x := xLoad;
     s.dev.begins (Cmd.plain 0x513 true [64]) p c ∧ c.ctx? n = some x ∧ p.arg 0 % 64 ≠ 0) ∧
    (let s : State := ws (fun c => { c with ctxs := [(0, xLoad)] }); let p : Packet := wp 0x514 true [0, 0, 0, 0, 0, 0];
     let c : Core := s.dev.c.arrive p; let n := p.ctxNum;
     let q : Export := { kind := p.arg 1, base := p.arg 2, bytes := p.arg 3, stride := p.arg 4, interval := p.arg 5, producer := 0, consumer := 0, waiting := [], dropping := [], sets := 0, tags := [], emitted := [] };
     s.dev.begins (Cmd.plain 0x514 true [64, 64, 64, 64, 64, 64]) p c ∧
     q = { kind := p.arg 1, base := p.arg 2, bytes := p.arg 3, stride := p.arg 4, interval := p.arg 5, producer := 0, consumer := 0, waiting := [], dropping := [], sets := 0, tags := [], emitted := [] } ∧
     c.exportRefusal n (p.arg 0) q = none) ∧
    (let s : State := ws (fun c => { c with ctxs := [(0, xLoad)] }); let p : Packet := wp 0x514 true [0, 3, 0, 0, 0, 0];
     let c : Core := s.dev.c.arrive p; let n := p.ctxNum;
     let q : Export := { kind := p.arg 1, base := p.arg 2, bytes := p.arg 3, stride := p.arg 4, interval := p.arg 5, producer := 0, consumer := 0, waiting := [], dropping := [], sets := 0, tags := [], emitted := [] };
     let st := 0x550;
     s.dev.begins (Cmd.plain 0x514 true [64, 64, 64, 64, 64, 64]) p c ∧
     q = { kind := p.arg 1, base := p.arg 2, bytes := p.arg 3, stride := p.arg 4, interval := p.arg 5, producer := 0, consumer := 0, waiting := [], dropping := [], sets := 0, tags := [], emitted := [] } ∧
     c.exportRefusal n (p.arg 0) q = some st) ∧
    (let s : State := ws (fun c => { c with ctxs := [(0, xLoad)] }); let p : Packet := wp 0x515 true [4095];
     let c : Core := s.dev.c.arrive p;
     s.dev.begins (Cmd.plain 0x515 true [64]) p c ∧ p.arg 0 < 4096) ∧
    (let s : State := ws (fun c => { c with ctxs := [(0, xLoad)] }); let p : Packet := wp 0x515 true [4096];
     let c : Core := s.dev.c.arrive p;
     s.dev.begins (Cmd.plain 0x515 true [64]) p c ∧ 4096 ≤ p.arg 0) := by
  refine ⟨?_, ?_, ?_, ?_, ?_, ?_, ?_, ?_, ?_, ?_, ?_, ?_, ?_⟩
  · dsimp only; exact ⟨begins_of (by decide +kernel), by decide +kernel,
      byHandle_zeros (by decide +kernel) (by decide +kernel) (by decide +kernel) (by decide +kernel),
      below_one (by decide +kernel) (by decide +kernel), some_of (needTable_one (by decide +kernel) rfl (by decide +kernel))⟩
  · dsimp only; exact ⟨begins_of (by decide +kernel), by decide +kernel⟩
  · dsimp only; exact ⟨begins_of (by decide +kernel), by decide +kernel, ok_is (by decide +kernel), by decide +kernel,
      some_of (needTable_one (by decide +kernel) rfl (by decide +kernel))⟩
  · dsimp only; exact ⟨begins_of (by decide +kernel), by decide +kernel⟩
  · dsimp only; exact ⟨begins_of (by decide +kernel), by decide +kernel,
      byHandle_zeros (by decide +kernel) (by decide +kernel) (by decide +kernel) (by decide +kernel), by decide +kernel⟩
  · dsimp only; exact ⟨begins_of (by decide +kernel), by decide +kernel, by decide +kernel, by decide +kernel,
      by decide +kernel, by decide +kernel, by decide +kernel, by decide +kernel, by decide +kernel⟩
  · dsimp only; exact ⟨begins_of (by decide +kernel), by decide +kernel⟩
  · dsimp only; exact ⟨begins_of (by decide +kernel), by decide +kernel, by decide +kernel⟩
  · dsimp only; exact ⟨begins_of (by decide +kernel), by decide +kernel, by decide +kernel⟩
  · dsimp only; exact ⟨begins_of (by decide +kernel), by decide +kernel, by decide +kernel⟩
  · dsimp only; exact ⟨begins_of (by decide +kernel), by decide +kernel, by decide +kernel⟩
  · dsimp only; exact ⟨begins_of (by decide +kernel), by decide +kernel⟩
  · dsimp only; exact ⟨begins_of (by decide +kernel), by decide +kernel⟩

/-- Premises of GovernorDecision met, clause by clause. -/
theorem witness_governorDecision :
    (let s : State := ws id;
     s.dev.gov.active = true) := by
  decide +kernel

/-- Premises of GovernorEvents met, clause by clause. -/
theorem witness_governorEvents :
    (let s : State := ws id; let d := s.dev;
     let r := { dieT := List.replicate 64 (List.replicate 8 80), stackT := List.replicate 24 80, current := [1, 1, 1, 1], power := 2000 };
     readingsWhole r = true ∧ d.pw.auxUp = true) ∧
    (let q : Dev := wDev;
     q.c.stage ≠ 2) ∧
    (let s : State := ws id; let d := s.dev;
     d.gov.active = true ∧ (∀ t, d.gov.cutAt = some t → t + 10000 ≤ d.c.now 0)) ∧
    (let s : State := wd (fun d => { d with gov := { d.gov with cutAt := some 0 } }); let d := s.dev; let t := 0;
     d.gov.cutAt = some t ∧ d.c.now 0 < t + 10000) ∧
    (let stack : Bool := true; let unit := 23; let temp := 210;
     unit < (if stack then 24 else 64) ∧ 210 ≤ temp ∧ temp < 256) ∧
    (let stack : Bool := true; let unit := 23; let temp := 209;
     unit < (if stack then 24 else 64) ∧ temp < 210) ∧
    (let s : State := ws id; let d := s.dev; let p := wp 0x701 false [800, 0, 1]; let c := s.dev.c.arrive p;
     d.begins (Cmd.plain 0x701 false [64, 64, 64]) p c ∧ 800 ≤ p.arg 0 ∧ p.arg 0 ≤ 3000 ∧ p.arg 1 ≤ 4294967295 ∧
     1 ≤ p.arg 2 ∧ p.arg 2 ≤ 65536) ∧
    (let s : State := ws id; let d := s.dev; let p := wp 0x701 false [799, 0, 1]; let c := s.dev.c.arrive p;
     d.begins (Cmd.plain 0x701 false [64, 64, 64]) p c ∧
     (p.arg 0 < 800 ∨ 3000 < p.arg 0 ∨ 4294967295 < p.arg 1 ∨ p.arg 2 < 1 ∨ 65536 < p.arg 2)) ∧
    (let s : State := ws id; let d := s.dev; let p := wp 0x702 false [0, 7]; let c := s.dev.c.arrive p;
     d.begins (Cmd.plain 0x702 false [64, 64]) p c ∧ p.arg 0 ≤ p.arg 1 ∧ p.arg 1 ≤ 7) ∧
    (let s : State := ws id; let d := s.dev; let p := wp 0x702 false [7, 6]; let c := s.dev.c.arrive p;
     d.begins (Cmd.plain 0x702 false [64, 64]) p c ∧ (7 < p.arg 0 ∨ 7 < p.arg 1 ∨ p.arg 1 < p.arg 0)) ∧
    (let s : State := ws id; let d := s.dev; let p := wp 0x703 false [7]; let c := s.dev.c.arrive p;
     d.begins (Cmd.plain 0x703 false [64]) p c ∧ p.arg 0 ≤ 7 ∧ c.anyJob = false) ∧
    (let s : State := ws id; let d := s.dev; let p := wp 0x703 false [0xFF]; let c := s.dev.c.arrive p;
     d.begins (Cmd.plain 0x703 false [64]) p c ∧ p.arg 0 = 0xFF ∧ c.anyJob = false) ∧
    (let s : State := ws id; let d := s.dev; let p := wp 0x703 false [8]; let c := s.dev.c.arrive p;
     d.begins (Cmd.plain 0x703 false [64]) p c ∧ 7 < p.arg 0 ∧ p.arg 0 ≠ 0xFF) ∧
    (let s : State := ws (fun c => { c with ctxs := [(0, { wCtx with job := some wJob })] }); let d := s.dev;
     let p := wp 0x703 false [7]; let c := s.dev.c.arrive p;
     d.begins (Cmd.plain 0x703 false [64]) p c ∧ (p.arg 0 ≤ 7 ∨ p.arg 0 = 0xFF) ∧ c.anyJob = true) := by
  refine ⟨by decide +kernel, by decide +kernel, ?_, by decide +kernel, by decide +kernel, by decide +kernel, ?_, ?_, ?_, ?_,
      ?_, ?_, ?_, ?_⟩
  · dsimp only; exact ⟨by decide +kernel, by intro t h; cases h⟩
  · dsimp only; exact ⟨begins_of (by decide +kernel), by decide +kernel, by decide +kernel, by decide +kernel,
      by decide +kernel, by decide +kernel⟩
  · dsimp only; exact ⟨begins_of (by decide +kernel), by decide +kernel⟩
  · dsimp only; exact ⟨begins_of (by decide +kernel), by decide +kernel, by decide +kernel⟩
  · dsimp only; exact ⟨begins_of (by decide +kernel), by decide +kernel⟩
  · dsimp only; exact ⟨begins_of (by decide +kernel), by decide +kernel, by decide +kernel⟩
  · dsimp only; exact ⟨begins_of (by decide +kernel), by decide +kernel, by decide +kernel⟩
  · dsimp only; exact ⟨begins_of (by decide +kernel), by decide +kernel, by decide +kernel⟩
  · dsimp only; exact ⟨begins_of (by decide +kernel), by decide +kernel, by decide +kernel⟩

/-- Premises of AttestationAndKeys met, clause by clause. Clause 1 needs the length of the opaque certificate chain, clauses
16 and 18 turn on an opaque key unwrap. -/
theorem witness_attestationAndKeys :
    (let s : State := ws id; let p : Packet := wp 0x801 false [64, 0]; let c : Core := s.dev.c.arrive p; let d := s.dev;
     let need := 8 + Config.certChain.length;
     d.begins (Cmd.plain 0x801 false [64, 64]) p c ∧ p.arg 0 % 64 = 0 ∧ p.arg 1 < need) ∧
    (let s : State := ws id; let p : Packet := wp 0x801 false [1, 0]; let c : Core := s.dev.c.arrive p; let d := s.dev;
     d.begins (Cmd.plain 0x801 false [64, 64]) p c ∧ p.arg 0 % 64 ≠ 0) ∧
    (let s : State := ws id; let p : Packet := wp 0x802 false [64, 0, 0, 0, 0, 0, 0]; let c : Core := s.dev.c.arrive p;
     let d := s.dev;
     d.begins { op := 0x802, ctxv := false, widths := [64], list := some (6, 6) } p c) ∧
    (let s : State := ws id; let p : Packet := wp 0x803 true [64, 0, 0, 0, 0, 0, 0]; let c : Core := s.dev.c.arrive p;
     let d := s.dev;
     d.begins { op := 0x803, ctxv := true, widths := [64], list := some (6, 6) } p c) ∧
    (let s : State := ws id; let d := s.dev;
     d.spdmUp = true) ∧
    (let s : State := ws id; let d := s.dev; let k := 1;
     d.spdmUp = true ∧ 0 < k) ∧
    (let s : State := ws id; let d := s.dev;
     d.spdmUp = true) ∧
    (let s : State := wd (fun d => { d with pw := { d.pw with perstHigh := false } }); let d := s.dev;
     d.spdmUp = false) ∧
    (let s : State := ws id; let d := s.dev; let k := 0;
     d.spdmUp = true ∧ ((kget d.tr.ide k).isSome = true ∨ d.tr.ide.length < 2) ∧
     (∀ q, kget d.tr.ide k = some q → q.secure = false)) ∧
    (let s : State := wd (fun d => { d with tr := { d.tr with ide := [(0, { key := [], secure := true, covers := false }), (1, { key := [], secure := true, covers := false })] } });
     let d := s.dev; let k := 2;
     kget d.tr.ide k = none ∧ 2 ≤ d.tr.ide.length) ∧
    (let s : State := wd (fun d => { d with tr := { d.tr with ide := [(0, { key := [], secure := true, covers := false })] } });
     let d := s.dev; let k := 0; let q := ({ key := [], secure := true, covers := false } : IdeStream);
     kget d.tr.ide k = some q ∧ q.secure = true) ∧
    (let s : State := wd (fun d => { d with tr := { d.tr with ide := [(0, { key := [], secure := false, covers := false })] } });
     let d := s.dev; let k := 0; let q := ({ key := [], secure := false, covers := false } : IdeStream);
     kget d.tr.ide k = some q ∧ q.secure = false) ∧
    (let s : State := ws id; let p : Packet := wp 0x804 false [0, 0, 0, 0, 0, 0, 0]; let c : Core := s.dev.c.arrive p;
     let d := s.dev; let t := (if p.arg 0 = 1 then d.tr.peerKeys else []) ++ fingerprints (payloadBytes p 1);
     d.begins { op := 0x804, ctxv := false, widths := [64], list := some (0, 510) } p c ∧ (p.payload.length - 1) % 6 = 0 ∧
     p.arg 0 < 2 ∧ t.length ≤ 32768) ∧
    (let s : State := wd (fun d => { d with tr := { d.tr with peerKeys := List.replicate 32768 [] } });
     let p : Packet := wp 0x804 false [1, 0, 0, 0, 0, 0, 0]; let c : Core := s.dev.c.arrive p; let d := s.dev;
     let t := (if p.arg 0 = 1 then d.tr.peerKeys else []) ++ fingerprints (payloadBytes p 1);
     d.begins { op := 0x804, ctxv := false, widths := [64], list := some (0, 510) } p c ∧ (p.payload.length - 1) % 6 = 0 ∧
     p.arg 0 < 2 ∧ 32768 < t.length) ∧
    (let s : State := ws id; let p : Packet := wp 0x810 true [0, 0, 0, 0, 0, 0, 0, 0, 0, 0, 0, 0, 0, 0, 0, 0, 0, 0, 0];
     let c : Core := s.dev.c.arrive p; let x : Ctx := wCtx; let d := s.dev;
     d.begins { op := 0x810, ctxv := true, widths := [64], list := some (18, 18) } p c ∧ c.ctx? p.ctxNum = some x ∧
     (x.conf = false ∨ x.run.isSome = true ∨ x.spilled = true)) ∧
    (let s : State := ws id; let p : Packet := wp 0x811 true []; let c : Core := s.dev.c.arrive p; let d := s.dev;
     d.begins (Cmd.plain 0x811 true []) p c) ∧
    (let s : State := ws (fun c => { c with frames := [(5, { ctx := 0, spill := true, addr := 0, holds := true })] });
     let p : Packet := wp 0x812 true [5, 1, 4096]; let c : Core := s.dev.c.arrive p; let d := s.dev;
     d.begins (Cmd.plain 0x812 true [64, 64, 64]) p c ∧ 1 ≤ p.arg 1 ∧ p.arg 1 ≤ 256 ∧ p.arg 2 % 4096 = 0 ∧
     p.arg 2 + 0x4000 * p.arg 1 ≤ 2 ^ 64 ∧ (∀ i, i < p.arg 1 → ∃ f, kget c.frames (p.arg 0 + i) = some f ∧
     f.ctx = p.ctxNum)) ∧
    (let s : State := ws id; let p : Packet := wp 0x812 true [5, 0, 4096]; let c : Core := s.dev.c.arrive p;
     let d := s.dev;
     d.begins (Cmd.plain 0x812 true [64, 64, 64]) p c ∧ (p.arg 1 < 1 ∨ 256 < p.arg 1 ∨ p.arg 2 % 4096 ≠ 0)) := by
  refine ⟨?_, ?_, ?_, ?_, by decide +kernel, by decide +kernel, by decide +kernel, by decide +kernel, ?_, by decide +kernel,
      by decide +kernel, by decide +kernel, ?_, ?_, ?_, ?_, ?_, ?_⟩
  · dsimp only; exact ⟨begins_of (by decide +kernel), by decide +kernel,
      Nat.lt_of_lt_of_le (m := 8) (by decide +kernel) (Nat.le_add_right 8 _)⟩
  · dsimp only; exact ⟨begins_of (by decide +kernel), by decide +kernel⟩
  · dsimp only; exact begins_of (by decide +kernel)
  · dsimp only; exact begins_of (by decide +kernel)
  · dsimp only; exact ⟨by decide +kernel, .inr (by decide +kernel), by intro q h; cases h⟩
  · dsimp only; exact ⟨begins_of (by decide +kernel), by decide +kernel, by decide +kernel, by decide +kernel⟩
  · dsimp only; exact ⟨begins_of (by decide +kernel), by decide +kernel, by decide +kernel, by decide +kernel⟩
  · dsimp only; exact ⟨begins_of (by decide +kernel), by decide +kernel, by decide +kernel⟩
  · dsimp only; exact begins_of (by decide +kernel)
  · dsimp only; exact ⟨begins_of (by decide +kernel), by decide +kernel, by decide +kernel, by decide +kernel,
      by decide +kernel, below_one (by decide +kernel) ⟨_, rfl, by decide +kernel⟩⟩
  · dsimp only; exact ⟨begins_of (by decide +kernel), by decide +kernel⟩

/-- Premises of OwnershipAndFirmware met, clause by clause. Clauses 4 to 7 and 9 need a signature that the opaque check
accepts, 13 and 14 turn on an opaque hash. -/
theorem witness_ownershipAndFirmware :
    (let s : State := wd (fun d => { d with pw := { d.pw with holdup := 0 } });
     let p : Packet := wp 0x820 false [0, 0, 0, 0, 0, 0, 0, 0, 0, 0, 0, 0]; let c : Core := s.dev.c.arrive p;
     let d := s.dev; let claim : Cmd := { op := 0x820, ctxv := false, widths := [], list := some (12, 12) };
     d.begins claim p c ∧ d.pw.holdup < 80) ∧
    (let s : State := ws id; let p : Packet := wp 0x820 false [0, 0, 0, 0, 0, 0, 0, 0, 0, 0, 0, 0];
     let c : Core := s.dev.c.arrive p; let d := s.dev;
     let claim : Cmd := { op := 0x820, ctxv := false, widths := [], list := some (12, 12) };
     d.begins claim p c ∧ 80 ≤ d.pw.holdup ∧ d.tr.owner = none) ∧
    (let s : State := wd (fun d => { d with tr := { d.tr with owner := some [] } });
     let p : Packet := wp 0x820 false [0, 0, 0, 0, 0, 0, 0, 0, 0, 0, 0, 0]; let c : Core := s.dev.c.arrive p;
     let d := s.dev; let claim : Cmd := { op := 0x820, ctxv := false, widths := [], list := some (12, 12) };
     d.begins claim p c ∧ 80 ≤ d.pw.holdup ∧ d.tr.owner.isSome = true) ∧
    (let owner : Cmd := { op := 0x821, ctxv := false, widths := [64, 64], list := some (24, 24) };
     let s : State := wd (fun d => { d with tr := { d.tr with owner := some [] } });
     let p : Packet := wp 0x821 false [3, 0, 0, 0, 0, 0, 0, 0, 0, 0, 0, 0, 0, 0, 0, 0, 0, 0, 0, 0, 0, 0, 0, 0, 0, 0];
     let c : Core := s.dev.c.arrive p; let d := s.dev; let k := [];
     d.begins owner p c ∧ p.arg 0 = 3 ∧ 80 ≤ d.pw.holdup ∧ d.tr.owner = some k ∧
     (p.arg 1 ≤ d.tr.ownerCtr ∨ Config.ecdsaVerify k (ownerMessage Config.serial p) ((payloadBytes p 2).drop 96) = false)) ∧
    (let s : State := ws id;
     let p : Packet := wp 0x830 false [0, 0, 0, 0, 0, 0, 0, 0, 0, 0, 0, 0, 0, 0, 0, 0, 0, 0, 0, 0, 0, 0, 0, 0, 0, 0, 0, 0, 0, 0, 0, 0, 0, 0, 0, 0, 0, 0, 0, 0, 0, 0, 0, 0, 0, 0, 0, 0, 0, 0, 0, 0, 0, 0, 0, 0, 0, 0, 0, 0, 0, 0, 0, 0];
     let c : Core := s.dev.c.arrive p; let d := s.dev;
     let begin_ : Cmd := { op := 0x830, ctxv := false, widths := [], list := some (64, 64) };
     d.begins begin_ p c ∧ (d.setC c).fwRefusal = none ∧ d.tr.headerOk (payloadBytes p 0) = false) ∧
    (let s : State := wd (fun d => { d with tr := { d.tr with upd := .receiving, stage := { hdr := zeros 8 ++ [8], body := [] } } });
     let p : Packet := wp 0x831 false [0, 0]; let c : Core := s.dev.c.arrive p; let d := s.dev;
     let block : Cmd := { op := 0x831, ctxv := false, widths := [64], list := some (1, 511) };
     d.begins block p c ∧ (d.setC c).fwRefusal = none ∧ d.tr.upd = .receiving ∧ p.arg 0 % 8 = 0 ∧
     p.arg 0 + (payloadBytes p 1).length ≤ d.tr.stage.ilen ∧
     (∀ e, e ∈ d.tr.stage.body → e.1 < p.arg 0 ∨ p.arg 0 + (payloadBytes p 1).length ≤ e.1)) ∧
    (let s : State := wd (fun d => { d with tr := { d.tr with upd := .receiving } });
     let p : Packet := wp 0x831 false [1, 0]; let c : Core := s.dev.c.arrive p; let d := s.dev;
     let block : Cmd := { op := 0x831, ctxv := false, widths := [64], list := some (1, 511) };
     d.begins block p c ∧ (d.setC c).fwRefusal = none ∧ d.tr.upd = .receiving ∧
     (p.arg 0 % 8 ≠ 0 ∨ d.tr.stage.ilen < p.arg 0 + (payloadBytes p 1).length)) ∧
    (let s : State := ws id; let p : Packet := wp 0x832 false []; let c : Core := s.dev.c.arrive p; let d := s.dev;
     d.begins (Cmd.plain 0x832 false []) p c ∧ (d.setC c).fwRefusal = none ∧ d.tr.upd ≠ .receiving) ∧
    (let s : State := wd (fun d => { d with tr := { d.tr with upd := .staged } }); let p : Packet := wp 0x833 false [];
     let c : Core := s.dev.c.arrive p; let d := s.dev;
     d.begins (Cmd.plain 0x833 false []) p c ∧ d.tr.upd ≠ .idle) ∧
    (let s : State := ws id; let p : Packet := wp 0x833 false []; let c : Core := s.dev.c.arrive p; let d := s.dev;
     d.begins (Cmd.plain 0x833 false []) p c ∧ d.tr.upd = .idle) ∧
    (let s : State := ws (fun c => { c with ctxs := [(0, { wCtx with job := some wJob })] });
     let p : Packet := wp 0x830 false [0, 0, 0, 0, 0, 0, 0, 0, 0, 0, 0, 0, 0, 0, 0, 0, 0, 0, 0, 0, 0, 0, 0, 0, 0, 0, 0, 0, 0, 0, 0, 0, 0, 0, 0, 0, 0, 0, 0, 0, 0, 0, 0, 0, 0, 0, 0, 0, 0, 0, 0, 0, 0, 0, 0, 0, 0, 0, 0, 0, 0, 0, 0, 0];
     let c : Core := s.dev.c.arrive p; let d := s.dev;
     let begin_ : Cmd := { op := 0x830, ctxv := false, widths := [], list := some (64, 64) }; let e := 0x810;
     (d.setC c).fwRefusal = some e ∧ d.begins begin_ p c) ∧
    (let s : State := ws (fun c => { c with ctxs := [(0, { wCtx with job := some wJob })] });
     let p : Packet := wp 0x831 false [0, 0]; let c : Core := s.dev.c.arrive p; let d := s.dev;
     let block : Cmd := { op := 0x831, ctxv := false, widths := [64], list := some (1, 511) }; let e := 0x810;
     (d.setC c).fwRefusal = some e ∧ d.begins block p c) ∧
    (let s : State := ws (fun c => { c with ctxs := [(0, { wCtx with job := some wJob })] });
     let p : Packet := wp 0x832 false []; let c : Core := s.dev.c.arrive p; let d := s.dev; let e := 0x810;
     (d.setC c).fwRefusal = some e ∧ d.begins (Cmd.plain 0x832 false []) p c) := by
  refine ⟨?_, ?_, ?_, ?_, ?_, ?_, ?_, ?_, ?_, ?_, ?_, ?_, ?_⟩
  · dsimp only; exact ⟨begins_of (by decide +kernel), by decide +kernel⟩
  · dsimp only; exact ⟨begins_of (by decide +kernel), by decide +kernel, by decide +kernel⟩
  · dsimp only; exact ⟨begins_of (by decide +kernel), by decide +kernel, by decide +kernel⟩
  · dsimp only; exact ⟨begins_of (by decide +kernel), by decide +kernel, by decide +kernel, by decide +kernel,
      by decide +kernel⟩
  · dsimp only; exact ⟨begins_of (by decide +kernel), by decide +kernel, by decide +kernel⟩
  · dsimp only; exact ⟨begins_of (by decide +kernel), by decide +kernel, by decide +kernel, by decide +kernel,
      by decide +kernel, by decide +kernel⟩
  · dsimp only; exact ⟨begins_of (by decide +kernel), by decide +kernel, by decide +kernel, by decide +kernel⟩
  · dsimp only; exact ⟨begins_of (by decide +kernel), by decide +kernel, by decide +kernel⟩
  · dsimp only; exact ⟨begins_of (by decide +kernel), by decide +kernel⟩
  · dsimp only; exact ⟨begins_of (by decide +kernel), by decide +kernel⟩
  · dsimp only; exact ⟨by decide +kernel, begins_of (by decide +kernel)⟩
  · dsimp only; exact ⟨by decide +kernel, begins_of (by decide +kernel)⟩
  · dsimp only; exact ⟨by decide +kernel, begins_of (by decide +kernel)⟩

/-- Premises of TestsAndService met, clause by clause. -/
theorem witness_testsAndService :
    (let s : State := ws id; let p : Packet := wp 0x602 false [0]; let c : Core := s.dev.c.arrive p;
     let u : SUnit := .cell 0; let d := s.dev;
     d.begins (Cmd.plain 0x602 false [64]) p c ∧ unitReserved (p.arg 0) = false ∧ unitParam (p.arg 0) = some u) ∧
    (let s : State := ws id; let p : Packet := wp 0x602 false [600]; let c : Core := s.dev.c.arrive p; let d := s.dev;
     d.begins (Cmd.plain 0x602 false [64]) p c ∧ unitReserved (p.arg 0) = false ∧ unitParam (p.arg 0) = none) ∧
    (let s : State := ws (fun c => { c with owed := [⟨.cell 0, 0, none⟩] }); let u : SUnit := .cell 0; let d := s.dev;
     u.valid = true ∧ d.c.owes u = true ∧ d.c.testable = true) ∧
    (let s : State := ws id; let u : SUnit := .cell 0; let d := s.dev;
     u.valid = true ∧ (d.c.owes u = false ∨ d.c.testable = false)) ∧
    (let s : State := ws id; let p : Packet := wp 0x603 false [0, 0]; let c : Core := s.dev.c.arrive p;
     let u : SUnit := .cell 0; let d := s.dev;
     d.begins (Cmd.plain 0x603 false [64, 64]) p c ∧ unitReserved (p.arg 0) = false ∧ unitParam (p.arg 0) = some u ∧
     p.arg 1 < 2 ∧ canDisable u = true ∧ c.usable u = true ∧ c.anyRun = false) ∧
    (let s : State := sRun wRun 5; let p : Packet := wp 0x603 false [0, 0]; let c : Core := s.dev.c.arrive p;
     let u : SUnit := .cell 0; let d := s.dev;
     d.begins (Cmd.plain 0x603 false [64, 64]) p c ∧ unitReserved (p.arg 0) = false ∧ unitParam (p.arg 0) = some u ∧
     p.arg 1 = 0 ∧ canDisable u = true ∧ c.usable u = true ∧ c.anyRun = true) ∧
    (let s : State := sRun wRun 5; let p : Packet := wp 0x603 false [0, 1]; let c : Core := s.dev.c.arrive p;
     let u : SUnit := .cell 0; let d := s.dev;
     d.begins (Cmd.plain 0x603 false [64, 64]) p c ∧ unitReserved (p.arg 0) = false ∧ unitParam (p.arg 0) = some u ∧
     p.arg 1 = 1 ∧ canDisable u = true ∧ c.usable u = true ∧ c.anyRun = true) ∧
    (let s : State := ws id; let p : Packet := wp 0x603 false [2 ^ 28, 0]; let c : Core := s.dev.c.arrive p;
     let u : SUnit := .die 0; let d := s.dev;
     d.begins (Cmd.plain 0x603 false [64, 64]) p c ∧ unitReserved (p.arg 0) = false ∧ unitParam (p.arg 0) = some u ∧
     p.arg 1 < 2 ∧ canDisable u = false) ∧
    (let s : State := ws (fun c => { c with disabled := [.cell 0] }); let p : Packet := wp 0x603 false [0, 1];
     let c : Core := s.dev.c.arrive p; let u : SUnit := .cell 0; let d := s.dev;
     d.begins (Cmd.plain 0x603 false [64, 64]) p c ∧ unitReserved (p.arg 0) = false ∧ unitParam (p.arg 0) = some u ∧
     p.arg 1 < 2 ∧ canDisable u = true ∧ c.usable u = false) ∧
    (let s : State := ws (fun c => { c with disabled := [.cell 0] }); let p : Packet := wp 0x604 false [0];
     let c : Core := s.dev.c.arrive p; let u : SUnit := .cell 0; let d := s.dev;
     d.begins (Cmd.plain 0x604 false [64]) p c ∧ unitReserved (p.arg 0) = false ∧ unitParam (p.arg 0) = some u ∧
     u ∈ c.disabled) ∧
    (let s : State := ws id; let p : Packet := wp 0x604 false [0]; let c : Core := s.dev.c.arrive p;
     let u : SUnit := .cell 0; let d := s.dev;
     d.begins (Cmd.plain 0x604 false [64]) p c ∧ unitReserved (p.arg 0) = false ∧ unitParam (p.arg 0) = some u ∧
     u ∉ c.disabled) ∧
    (let s : State := ws id; let p : Packet := wp 0x601 false [3, 0, 0]; let c : Core := s.dev.c.arrive p; let d := s.dev;
     d.begins (Cmd.plain 0x601 false [64, 64, 64]) p c ∧ p.arg 0 = 3 ∧ p.arg 1 = 0 ∧ p.arg 2 = 0 ∧ c.quiet = true) ∧
    (let s : State := ws id; let p : Packet := wp 0x601 false [4, 0, 0]; let c : Core := s.dev.c.arrive p; let d := s.dev;
     d.begins (Cmd.plain 0x601 false [64, 64, 64]) p c ∧ (4 ≤ p.arg 0 ∨ 2 ≤ p.arg 2)) ∧
    (let s : State := ws (fun c => { c with ctxs := [(0, { wCtx with job := some wJob })] });
     let p : Packet := wp 0x601 false [3, 0, 1]; let c : Core := s.dev.c.arrive p; let d := s.dev;
     d.begins (Cmd.plain 0x601 false [64, 64, 64]) p c ∧ p.arg 0 = 3 ∧ p.arg 1 = 0 ∧ p.arg 2 < 2 ∧ c.quiet = false) ∧
    (let s : State := ws (fun c => { c with devState := .testing, waiting := [⟨wp 0x601 false [3, 0, 0], .bist 3 0 false⟩] });
     let d := s.dev; let failed := []; let sc := 3; let i := 0; let m := false;
     failed.all SUnit.valid = true ∧ d.c.devState = .testing ∧ d.c.bistNow = some (sc, i, m)) ∧
    (let s : State := ws id; let d := s.dev; let failed := [.cell 575];
     failed.all SUnit.valid = true ∧ d.c.devState ≠ .testing) ∧
    (let s : State := ws (fun c => { c with corrs := [((.cell 0, 0), List.replicate 1024 0)], ctxs := [(0, { wCtx with run := some wRun })] });
     let u : SUnit := .cell 0; let d := s.dev; let det := 0;
     u.valid = true ∧ detExists u det = true ∧ (kgetD d.c.corrs (u, det) []).length = 1024 ∧ d.c.anyRun = true) ∧
    (let s : State := ws id; let u : SUnit := .cell 0; let d := s.dev; let det := 0;
     u.valid = true ∧ detExists u det = true ∧ (kgetD d.c.corrs (u, det) []).length < 1024) ∧
    (let s : State := ws id; let p : Packet := wp 0x605 false [64]; let c : Core := s.dev.c.arrive p; let d := s.dev;
     let c1 := (c.hostRecord (p.arg 0) c.failRecord).getD c;
     d.begins (Cmd.plain 0x605 false [64]) p c ∧ p.arg 0 % 64 = 0 ∧ c.hostRecord (p.arg 0) c.failRecord = some c1) ∧
    (let s : State := ws id; let p : Packet := wp 0x605 false [1]; let c : Core := s.dev.c.arrive p; let d := s.dev;
     d.begins (Cmd.plain 0x605 false [64]) p c ∧ p.arg 0 % 64 ≠ 0) ∧
    (let s : State := ws id; let p : Packet := wp 0x606 false [2 ^ 64 - 1]; let c : Core := s.dev.c.arrive p;
     let d := s.dev;
     d.begins (Cmd.plain 0x606 false [64]) p c ∧ 80 ≤ d.pw.holdup ∧ p.arg 0 = 2 ^ 64 - 1) ∧
    (let s : State := ws id; let p : Packet := wp 0x606 false [0]; let c : Core := s.dev.c.arrive p;
     let u : SUnit := .cell 0; let d := s.dev;
     d.begins (Cmd.plain 0x606 false [64]) p c ∧ 80 ≤ d.pw.holdup ∧ p.arg 0 ≠ 2 ^ 64 - 1 ∧ unitReserved (p.arg 0) = false ∧
     unitParam (p.arg 0) = some u) ∧
    (let s : State := wd (fun d => { d with pw := { d.pw with holdup := 0 } }); let p : Packet := wp 0x606 false [0];
     let c : Core := s.dev.c.arrive p; let d := s.dev;
     d.begins (Cmd.plain 0x606 false [64]) p c ∧ d.pw.holdup < 80) ∧
    (let s : State := ws (fun c => { c with failDirty := true }); let d := s.dev;
     d.c.failDirty = true ∧ 80 ≤ d.pw.holdup) ∧
    (let s : State := ws id; let d := s.dev;
     d.c.failDirty = false) := by
  refine ⟨?_, ?_, by decide +kernel, by decide +kernel, ?_, ?_, ?_, ?_, ?_, ?_, ?_, ?_, ?_, ?_, by decide +kernel,
      by decide +kernel, by decide +kernel, by decide +kernel, ?_, ?_, ?_, ?_, ?_, by decide +kernel, by decide +kernel⟩
  · dsimp only; exact ⟨begins_of (by decide +kernel), by decide +kernel, by decide +kernel⟩
  · dsimp only; exact ⟨begins_of (by decide +kernel), by decide +kernel, by decide +kernel⟩
  · dsimp only; exact ⟨begins_of (by decide +kernel), by decide +kernel, by decide +kernel, by decide +kernel,
      by decide +kernel, by decide +kernel, by decide +kernel⟩
  · dsimp only; exact ⟨begins_of (by decide +kernel), by decide +kernel, by decide +kernel, by decide +kernel,
      by decide +kernel, by decide +kernel, by decide +kernel⟩
  · dsimp only; exact ⟨begins_of (by decide +kernel), by decide +kernel, by decide +kernel, by decide +kernel,
      by decide +kernel, by decide +kernel, by decide +kernel⟩
  · dsimp only; exact ⟨begins_of (by decide +kernel), by decide +kernel, by decide +kernel, by decide +kernel,
      by decide +kernel⟩
  · dsimp only; exact ⟨begins_of (by decide +kernel), by decide +kernel, by decide +kernel, by decide +kernel,
      by decide +kernel, by decide +kernel⟩
  · dsimp only; exact ⟨begins_of (by decide +kernel), by decide +kernel, by decide +kernel, by decide +kernel⟩
  · dsimp only; exact ⟨begins_of (by decide +kernel), by decide +kernel, by decide +kernel, by decide +kernel⟩
  · dsimp only; exact ⟨begins_of (by decide +kernel), by decide +kernel, by decide +kernel, by decide +kernel,
      by decide +kernel⟩
  · dsimp only; exact ⟨begins_of (by decide +kernel), by decide +kernel⟩
  · dsimp only; exact ⟨begins_of (by decide +kernel), by decide +kernel, by decide +kernel, by decide +kernel,
      by decide +kernel⟩
  · dsimp only; exact ⟨begins_of (by decide +kernel), by decide +kernel, some_of (by decide +kernel)⟩
  · dsimp only; exact ⟨begins_of (by decide +kernel), by decide +kernel⟩
  · dsimp only; exact ⟨begins_of (by decide +kernel), by decide +kernel, by decide +kernel⟩
  · dsimp only; exact ⟨begins_of (by decide +kernel), by decide +kernel, by decide +kernel, by decide +kernel,
      by decide +kernel⟩
  · dsimp only; exact ⟨begins_of (by decide +kernel), by decide +kernel⟩

/-- Premises of RegisterAccess met, clause by clause. -/
theorem witness_registerAccess :
    (let s : State := wd (fun d => { d with pw := { d.pw with perstHigh := false } }); let u : SUnit := .chip;
     let o : Nat := 384; let off : Nat := 384; let r : RegDef := ⟨384, 64, .inj⟩; let d := s.dev;
     unitAt off = some (u, o) ∧ regAt u o = some r ∧ inMsix off = false ∧ d.portUp = false) ∧
    (let s : State := ws id; let u : SUnit := .chip; let o : Nat := 384; let off : Nat := 384;
     let r : RegDef := ⟨384, 64, .inj⟩; let d := s.dev; let c := d.c;
     unitAt off = some (u, o) ∧ regAt u o = some r ∧ inMsix off = false ∧ d.portUp = true ∧ c.unarmed (.sub 0 6 0) ∧
     r.acc = .inj ∧ off % 8 = 0 ∧ c.drops u o = false) ∧
    (let s : State := ws id; let u : SUnit := .chip; let o : Nat := 288; let off : Nat := 288;
     let r : RegDef := ⟨288, 64, .rws⟩; let d := s.dev; let c := d.c;
     unitAt off = some (u, o) ∧ regAt u o = some r ∧ inMsix off = false ∧ d.portUp = true ∧ c.unarmed (.sub 0 6 0) ∧
     r.off = 0x120 ∧ o = 0x120 ∧ off % 8 = 0 ∧ c.drops u o = false) ∧
    (let s : State := ws id; let u : SUnit := .chip; let o : Nat := 320; let off : Nat := 320;
     let r : RegDef := ⟨320, 64, .rws⟩; let d := s.dev; let c := d.c;
     unitAt off = some (u, o) ∧ regAt u o = some r ∧ inMsix off = false ∧ d.portUp = true ∧ c.unarmed (.sub 0 6 0) ∧
     r.off = 0x140 ∧ o = 0x140 ∧ off % 8 = 0 ∧ c.drops u o = false) ∧
    (let s : State := ws id; let u : SUnit := .chip; let o : Nat := 1168; let off : Nat := 1168;
     let r : RegDef := ⟨1168, 32, .w1c⟩; let d := s.dev; let c := d.c;
     unitAt off = some (u, o) ∧ regAt u o = some r ∧ inMsix off = false ∧ d.portUp = true ∧ c.unarmed (.sub 0 6 0) ∧
     c.drops .chip 0x490 = false) ∧
    (let s : State := ws id; let u : SUnit := .chip; let o : Nat := 0; let off : Nat := 0; let r : RegDef := ⟨0, 32, .ro⟩;
     let d := s.dev; let c := d.c;
     unitAt off = some (u, o) ∧ regAt u o = some r ∧ inMsix off = false ∧ d.portUp = true ∧ c.unarmed (.sub 0 6 0) ∧
     r.acc = .ro ∧ off % 4 = 0) ∧
    (let s : State := ws (fun c => { c with ctxs := [(0, { wCtx with job := some wJob })] }); let u : SUnit := .chip;
     let o : Nat := 1344; let off : Nat := 1344; let r : RegDef := ⟨1344, 64, .rc⟩; let d := s.dev; let c := d.c;
     unitAt off = some (u, o) ∧ regAt u o = some r ∧ inMsix off = false ∧ d.portUp = true ∧ c.unarmed (.sub 0 6 0) ∧
     r.acc ≠ .ro ∧ off % 4 = 0 ∧ c.drops u o = true) ∧
    (let s : State := ws id; let u : SUnit := .chip; let o : Nat := 1376; let off : Nat := 1376;
     let r : RegDef := ⟨1376, 64, .ro⟩; let d := s.dev; let c := d.c;
     unitAt off = some (u, o) ∧ regAt u o = some r ∧ inMsix off = false ∧ d.portUp = true ∧ c.unarmed (.sub 0 6 0) ∧
     r.width = 64 ∧ r.acc ≠ .rc ∧ o = r.off ∧ off % 4 = 0) ∧
    (let s : State := ws (fun c => { c with latch := [(1380, 7)] }); let u : SUnit := .chip; let o : Nat := 1380;
     let off : Nat := 1380; let r : RegDef := ⟨1376, 64, .ro⟩; let d := s.dev; let c := d.c; let h := 7;
     unitAt off = some (u, o) ∧ regAt u o = some r ∧ inMsix off = false ∧ d.portUp = true ∧ c.unarmed (.sub 0 6 0) ∧
     r.width = 64 ∧ o ≠ r.off ∧ off % 4 = 0 ∧ kget c.latch off = some h) ∧
    (let s : State := ws id; let u : SUnit := .chip; let o : Nat := 1380; let off : Nat := 1380;
     let r : RegDef := ⟨1376, 64, .ro⟩; let d := s.dev; let c := d.c;
     unitAt off = some (u, o) ∧ regAt u o = some r ∧ inMsix off = false ∧ d.portUp = true ∧ c.unarmed (.sub 0 6 0) ∧
     r.width = 64 ∧ o ≠ r.off ∧ off % 4 = 0 ∧ kget c.latch off = none) := by
  refine ⟨by decide +kernel, ?_, ?_, ?_, ?_, ?_, ?_, ?_, ?_, ?_⟩
  · dsimp only; exact ⟨by decide +kernel, by decide +kernel, by decide +kernel, by decide +kernel,
      unarmed_of (by decide +kernel), by decide +kernel, by decide +kernel, by decide +kernel⟩
  · dsimp only; exact ⟨by decide +kernel, by decide +kernel, by decide +kernel, by decide +kernel,
      unarmed_of (by decide +kernel), by decide +kernel, by decide +kernel, by decide +kernel, by decide +kernel⟩
  · dsimp only; exact ⟨by decide +kernel, by decide +kernel, by decide +kernel, by decide +kernel,
      unarmed_of (by decide +kernel), by decide +kernel, by decide +kernel, by decide +kernel, by decide +kernel⟩
  · dsimp only; exact ⟨by decide +kernel, by decide +kernel, by decide +kernel, by decide +kernel,
      unarmed_of (by decide +kernel), by decide +kernel⟩
  · dsimp only; exact ⟨by decide +kernel, by decide +kernel, by decide +kernel, by decide +kernel,
      unarmed_of (by decide +kernel), by decide +kernel, by decide +kernel⟩
  · dsimp only; exact ⟨by decide +kernel, by decide +kernel, by decide +kernel, by decide +kernel,
      unarmed_of (by decide +kernel), by decide +kernel, by decide +kernel, by decide +kernel⟩
  · dsimp only; exact ⟨by decide +kernel, by decide +kernel, by decide +kernel, by decide +kernel,
      unarmed_of (by decide +kernel), by decide +kernel, by decide +kernel, by decide +kernel, by decide +kernel⟩
  · dsimp only; exact ⟨by decide +kernel, by decide +kernel, by decide +kernel, by decide +kernel,
      unarmed_of (by decide +kernel), by decide +kernel, by decide +kernel, by decide +kernel, by decide +kernel⟩
  · dsimp only; exact ⟨by decide +kernel, by decide +kernel, by decide +kernel, by decide +kernel,
      unarmed_of (by decide +kernel), by decide +kernel, by decide +kernel, by decide +kernel, by decide +kernel⟩

/-- Premises of W1cBitSetMeanwhileStays met, clause by clause. -/
theorem witness_w1cBitSetMeanwhileStays :
    (let s : State := ws id; let u : SUnit := .chip; let o : Nat := 256; let off : Nat := 256;
     let r : RegDef := ⟨256, 32, .w1c⟩;
     unitAt off = some (u, o) ∧ inMsix off = false ∧ regAt u o = some r ∧ r.acc = .w1c ∧ off % 4 = 0 ∧
     s.dev.portUp = true ∧ s.dev.c.unarmed (.sub 0 6 0) ∧ s.dev.c.drops u o = false) := by
  dsimp only; exact ⟨by decide +kernel, by decide +kernel, by decide +kernel, by decide +kernel, by decide +kernel,
      by decide +kernel, unarmed_of (by decide +kernel), by decide +kernel⟩

/-- Premises of CountDuringReadIsNotLost met, clause by clause. -/
theorem witness_countDuringReadIsNotLost :
    (let s : State := ws id; let u : SUnit := .chip; let o : Nat := 264; let off : Nat := 264; let size : Nat := 8;
     let r : RegDef := ⟨264, 64, .rc⟩;
     unitAt off = some (u, o) ∧ inMsix off = false ∧ regAt u o = some r ∧ r.acc = .rc ∧ o = r.off ∧ ¬ (u = .chip ∧
     (o = 0x558 ∨ o = 0x568)) ∧ accessOk off size = true ∧ 8 * size ≤ r.width ∧ s.dev.portUp = true ∧
     s.dev.c.unarmed (.sub 0 6 0) ∧ s.dev.c.silent u = false ∧ s.dev.c.shut u o = false) := by
  dsimp only; exact ⟨by decide +kernel, by decide +kernel, by decide +kernel, by decide +kernel, by decide +kernel,
      by decide +kernel, by decide +kernel, by decide +kernel, by decide +kernel, unarmed_of (by decide +kernel),
      by decide +kernel, by decide +kernel⟩

/-- Premises of OddAccessesCompleteNormally met, clause by clause. -/
theorem witness_oddAccessesCompleteNormally :
    (let s : State := ws id;
     s.dev.portUp = true ∧ s.dev.c.unarmed (.sub 0 6 0)) ∧
    (let s : State := ws id; let c := s.dev.c;
     s.dev.portUp = true ∧ s.dev.c.unarmed (.sub 0 6 0) ∧ c.rget 0x490 = 0) ∧
    (let s : State := ws id; let off : Nat := 1; let size : Nat := 4;
     s.dev.portUp = true ∧ s.dev.c.unarmed (.sub 0 6 0) ∧ accessOk off size = false) ∧
    (let s : State := ws id; let off : Nat := 0x1200000; let size : Nat := 8;
     s.dev.portUp = true ∧ s.dev.c.unarmed (.sub 0 6 0) ∧ accessOk off size = true ∧ inMsix off = false ∧ unitAt off = none) ∧
    (let s : State := ws id; let off : Nat := 0x14; let size : Nat := 4; let u := .chip; let o := 0x14;
     s.dev.portUp = true ∧ s.dev.c.unarmed (.sub 0 6 0) ∧ accessOk off size = true ∧ inMsix off = false ∧ size = 4 ∧
     unitAt off = some (u, o) ∧ regAt u o = none) ∧
    (let s : State := ws id; let off : Nat := 0x18; let size : Nat := 8; let u := .chip; let o := 0x18;
     s.dev.portUp = true ∧ s.dev.c.unarmed (.sub 0 6 0) ∧ accessOk off size = true ∧ inMsix off = false ∧ size = 8 ∧
     unitAt off = some (u, o) ∧ regAt u o = none ∧ regAt u (o + 4) = none) := by
  refine ⟨?_, ?_, ?_, ?_, ?_, ?_⟩
  · dsimp only; exact ⟨by decide +kernel, unarmed_of (by decide +kernel)⟩
  · dsimp only; exact ⟨by decide +kernel, unarmed_of (by decide +kernel), by decide +kernel⟩
  · dsimp only; exact ⟨by decide +kernel, unarmed_of (by decide +kernel), by decide +kernel⟩
  · dsimp only; exact ⟨by decide +kernel, unarmed_of (by decide +kernel), by decide +kernel, by decide +kernel,
      by decide +kernel⟩
  · dsimp only; exact ⟨by decide +kernel, unarmed_of (by decide +kernel), by decide +kernel, by decide +kernel,
      by decide +kernel, by decide +kernel, by decide +kernel⟩
  · dsimp only; exact ⟨by decide +kernel, unarmed_of (by decide +kernel), by decide +kernel, by decide +kernel,
      by decide +kernel, by decide +kernel, by decide +kernel, by decide +kernel⟩

/-- Premises of Bar2AndSideband met, clause by clause. -/
theorem witness_bar2AndSideband :
    (let s : State := ws (fun c => { c with window := some (0, 0), ctxs := [(0, xLoad)] }); let d := s.dev; let c := d.c;
     let off := 0; let len := 64; let n := 0; let b := 0; let ps0 := (c.bar2Parts 0 64).getD [];
     let c1 := (c.hbmRead n (b + off) len).1; let ps := (c1.bar2Parts 0 64).getD [];
     d.portUp = true ∧ c.unarmed (.sub 0 6 0) ∧ off + len ≤ 2 ^ c.cfg.bar2 ∧ c.window = some (n, b) ∧
     c.bar2Parts off len = some ps0 ∧ c1.bar2Parts off len = some ps ∧ (∀ q, q ∈ ps → q.2.2 = false)) ∧
    (let s : State := ws id; let d := s.dev; let c := d.c; let off := 2 ^ 36; let len := 64; let data := zeros 64;
     2 ^ c.cfg.bar2 < off + len ∧ 2 ^ c.cfg.bar2 < off + data.length) ∧
    (let s : State := ws id; let d := s.dev; let c := d.c; let off := 0; let len := 64;
     d.portUp = true ∧ c.unarmed (.sub 0 6 0) ∧ off + len ≤ 2 ^ c.cfg.bar2 ∧ c.bar2Parts off len = none) ∧
    (let s : State := ws (fun c => { c with window := some (0, 0), ctxs := [(0, xLoad)] }); let d := s.dev; let c := d.c;
     let off := 0; let data := zeros 64; let a := 16 * plotBytes;
     d.portUp = true ∧ c.unarmed (.sub 0 6 0) ∧ off + data.length ≤ 2 ^ c.cfg.bar2 ∧
     c.bar2Parts off data.length = some [(a, data.length, false)] ∧ 64 ≤ data.length) ∧
    (let s : State := ws (fun c => { c with window := some (0, 0), ctxs := [(0, xLoad)] }); let d := s.dev; let c := d.c;
     let off := 0; let data := [1]; let n := 0; let b := 0; let a := 16 * plotBytes;
     let q := (((c.bar2Parts 0 1).getD []).headD (0, 0, false)).2.2; let c1 := (c.hbmRead n (b + off) data.length).1;
     d.portUp = true ∧ c.unarmed (.sub 0 6 0) ∧ off + data.length ≤ 2 ^ c.cfg.bar2 ∧ c.window = some (n, b) ∧
     c.bar2Parts off data.length = some [(a, data.length, q)] ∧ data.length < 64 ∧
     c1.bar2Parts off data.length = some [(a, data.length, false)]) ∧
    (let s : State := ws id; let d := s.dev; let c := d.c; let off := 0; let data := zeros 64;
     d.portUp = true ∧ c.unarmed (.sub 0 6 0) ∧ off + data.length ≤ 2 ^ c.cfg.bar2 ∧ c.bar2Parts off data.length = none) ∧
    (let s : State := ws id; let d := s.dev;
     d.pw.auxUp = true) ∧
    (let s : State := ws id; let d := s.dev; let code := 0x20; let write := false;
     d.pw.auxUp = true ∧ (write = true ∨ code ∉ [0x00, 0x01, 0x02, 0x03, 0x04, 0x05, 0x10, 0x11])) := by
  refine ⟨?_, by decide +kernel, ?_, ?_, ?_, ?_, by decide +kernel, by decide +kernel⟩
  · dsimp only; exact ⟨by decide +kernel, unarmed_of (by decide +kernel), by decide +kernel, by decide +kernel,
      by decide +kernel, by decide +kernel, by decide +kernel⟩
  · dsimp only; exact ⟨by decide +kernel, unarmed_of (by decide +kernel), by decide +kernel, by decide +kernel⟩
  · dsimp only; exact ⟨by decide +kernel, unarmed_of (by decide +kernel), by decide +kernel, by decide +kernel,
      by decide +kernel⟩
  · dsimp only; exact ⟨by decide +kernel, unarmed_of (by decide +kernel), by decide +kernel, by decide +kernel,
      by decide +kernel, by decide +kernel, by decide +kernel⟩
  · dsimp only; exact ⟨by decide +kernel, unarmed_of (by decide +kernel), by decide +kernel, by decide +kernel⟩

end Sys2Proof.Tests
end

section
/-!
SUPPORT. The register map inverted: an offset that lies in a block is its base plus the offset within it, and the block exists
(R13, R22, R23).
-/
namespace Sys2Proof.Machine
open Sys2Proof

theorem isHub_iff {d : Nat} : isHub d = true ↔ d < 64 ∧ d % 16 = 0 := by
  simp only [isHub, Bool.and_eq_true, decide_eq_true_eq]; rfl
theorem isTensor_iff {d : Nat} : isTensor d = true ↔ d < 64 ∧ 1 ≤ d % 16 ∧ d % 16 ≤ 9 := by
  simp only [isTensor, Bool.and_eq_true, decide_eq_true_eq, and_assoc]; rfl
theorem isPort_iff {d : Nat} : isPort d = true ↔ d < 64 ∧ 10 ≤ d % 16 ∧ d % 16 ≤ 12 := by
  simp only [isPort, Bool.and_eq_true, decide_eq_true_eq, and_assoc]; rfl
theorem isLinkDie_iff {d : Nat} : isLinkDie d = true ↔ d < 64 ∧ 13 ≤ d % 16 := by
  simp only [isLinkDie, Bool.and_eq_true, decide_eq_true_eq]; rfl

/-- The cells of a tensor die are its own (R57). -/
theorem cellDie_tensorIdx {d j : Nat} (h : isTensor d = true) (hj : j < 16) : cellDie (16 * tensorIdx d + j) = d := by
  obtain ⟨-, h1, h9⟩ := isTensor_iff.mp h
  unfold cellDie tensorDie tensorIdx
  omega

theorem tensorIdx_lt {d : Nat} (h : isTensor d = true) : tensorIdx d < 36 := by
  obtain ⟨hd, h1, h9⟩ := isTensor_iff.mp h
  unfold tensorIdx
  omega

/-- A die that is no hub, tensor or port die is a link die. -/
theorem isLinkDie_of_not {d : Nat} (hd : d < 64) (hh : ¬ isHub d = true) (ht : ¬ isTensor d = true) (hp : ¬ isPort d = true) :
    isLinkDie d = true := by
  rw [isHub_iff] at hh
  rw [isTensor_iff] at ht
  rw [isPort_iff] at hp
  rw [isLinkDie_iff]
  omega

/-- What lies at an offset of a die block is a unit that exists, at its base. -/
theorem windowAt_spec {d x o : Nat} {u : SUnit} (hd : d < 64) (h : windowAt d x = some (u, o)) :
    u.valid = true ∧ u.base + o = dieBase d + x := by
  unfold windowAt at h
  split at h
  · obtain ⟨rfl, rfl⟩ := by simpa using h
    exact ⟨by simpa [SUnit.valid] using hd, rfl⟩
  split at h
  · obtain ⟨rfl, rfl⟩ := by simpa using h
    cases hh : isHub d
    all_goals exact ⟨by simp [SUnit.valid, subExists, hd, hh], by simp [SUnit.base, subBase]; omega⟩
  split at h
  case isTrue hh =>
    (repeat' split at h) <;> cases h
    all_goals exact ⟨by simp [SUnit.valid, subExists, hd, hh], by simp only [SUnit.base, subBase]; omega⟩
  split at h
  case isTrue ht =>
    (repeat' split at h) <;> cases h
    · have hj : (x - 0x4000) / 0x400 < 16 := by omega
      have hi := tensorIdx_lt ht
      refine ⟨?_, ?_⟩
      · simp only [SUnit.valid, decide_eq_true_eq]; omega
      · simp only [SUnit.base, cellBase, cellDie_tensorIdx ht hj]; omega
    · exact ⟨by simp [SUnit.valid, subExists, hd, ht]; omega, by simp only [SUnit.base, subBase]; omega⟩
  split at h
  case isTrue hp =>
    (repeat' split at h) <;> cases h
    · exact ⟨by simp [SUnit.valid, subExists, hd, hp]; omega, by simp only [SUnit.base, subBase]; omega⟩
    all_goals exact ⟨by simp [SUnit.valid, subExists, hd, hp], by simp only [SUnit.base, subBase]; omega⟩
  case isFalse hh ht hp =>
    have hl := isLinkDie_of_not hd hh ht hp
    (repeat' split at h) <;> cases h
    all_goals exact ⟨by simp [SUnit.valid, subExists, hd, hl], by simp only [SUnit.base, subBase]; omega⟩

/-- What lies at an offset of BAR0 is a unit that exists, at its base. -/
theorem unitAt_spec {a o : Nat} {u : SUnit} (h : unitAt a = some (u, o)) : u.valid = true ∧ u.base + o = a := by
  unfold unitAt at h
  split at h
  · obtain ⟨rfl, rfl⟩ := by simpa using h
    exact ⟨rfl, Nat.zero_add _⟩
  split at h
  · dsimp only at h
    split at h
    · obtain ⟨rfl, rfl⟩ := by simpa using h
      exact ⟨by simp only [SUnit.valid, decide_eq_true_eq]; omega, by simp only [SUnit.base, regionBase]; omega⟩
    split at h
    case isFalse => cases h
    · obtain ⟨hv, hb⟩ := windowAt_spec (by omega) h
      refine ⟨hv, ?_⟩
      simp only [dieBase, regionBase, dieRegion, dieLocal] at hb
      omega
  split at h
  · obtain ⟨rfl, rfl⟩ := by simpa using h
    exact ⟨by simp only [SUnit.valid, decide_eq_true_eq]; omega, by simp only [SUnit.base, linkBase]; omega⟩
  split at h
  · obtain ⟨rfl, rfl⟩ := by simpa using h
    exact ⟨by simp only [SUnit.valid, decide_eq_true_eq]; omega, by simp only [SUnit.base, stackBase]; omega⟩
  · cases h

end Sys2Proof.Machine
end

section
/-!
SUPPORT. What the registers of a block are, and what an access of BAR0 does that reaches one (R7, R8, R9, R28 to R33).
-/
namespace Sys2Proof.Machine
open Sys2Proof

/-! ### The tables of registers -/

theorem forall_mem_r32 {acc : Access} {l : List Nat} {P : RegDef → Prop} : (∀ r ∈ r32 acc l, P r) ↔ ∀ o ∈ l, P ⟨o, 32, acc⟩ := by
  simp only [r32, List.forall_mem_map]

theorem forall_mem_r64 {acc : Access} {l : List Nat} {P : RegDef → Prop} : (∀ r ∈ r64 acc l, P r) ↔ ∀ o ∈ l, P ⟨o, 64, acc⟩ := by
  simp only [r64, List.forall_mem_map]

theorem regAt_mem {u : SUnit} {o : Nat} {r : RegDef} (h : regAt u o = some r) : r ∈ regsOf u := List.mem_of_find?_eq_some h

/-- A register is 32 or 64 bits wide. -/
theorem regsOf_width (u : SUnit) : ∀ r ∈ regsOf u, r.width = 32 ∨ r.width = 64 := by
  unfold regsOf commonRegs
  simp only [List.forall_mem_append, forall_mem_r32, forall_mem_r64, implies_true, true_or, or_true, and_self, true_and]
  cases u with
  | chip =>
    simp only [chipRegs, List.forall_mem_append, forall_mem_r32, forall_mem_r64, implies_true, true_or, or_true, and_self]
  | link _ =>
    simp only [linkRegs, List.forall_mem_append, forall_mem_r32, forall_mem_r64, implies_true, true_or, or_true, and_self]
  | sub _ k _ =>
    dsimp only
    unfold subRegs
    split <;> simp only [List.forall_mem_append, forall_mem_r32, forall_mem_r64, implies_true, true_or, or_true, and_self,
      List.not_mem_nil, false_implies]
  | cell _ | die _ | region _ | stack _ => exact List.forall_mem_nil _

/-! ### Where the read-to-clear registers are kept (R390) -/

/-- The two counters that are one each for the chip stand in the governor's windows alone. -/
theorem rcAddr_common (u : SUnit) {off : Nat} (h : off < 0x400) : rcAddr u off = u.base + off := by
  unfold rcAddr
  split
  · rw [if_neg (by omega), if_neg (by omega)]
  · rfl

theorem rcAddr_cases (u : SUnit) (off : Nat) : rcAddr u off = u.base + off ∨ rcAddr u off = govChanges ∨ rcAddr u off = govHolds := by
  unfold rcAddr
  split
  · split
    · exact .inr (.inl rfl)
    · split
      · exact .inr (.inr rfl)
      · exact .inl rfl
  · exact .inl rfl

section
variable (d : Dev)

/-- A read-to-clear register of the common part (R24) shows what is kept at its address. -/
theorem Dev.regVal_rc_common (u : SUnit) : ∀ r ∈ commonRegs u, r.acc = .rc → d.regVal u r.off = d.c.rget (rcAddr u r.off) := by
  simp only [commonRegs, List.forall_mem_append, forall_mem_r32, forall_mem_r64, reduceCtorEq, false_implies, implies_true, true_and,
    and_true]
  simp [Dev.regVal, rcAddr_common]

theorem Dev.regVal_rc_chip : ∀ r ∈ chipRegs, r.acc = .rc → r.off ≠ 0x558 →
    d.regVal .chip r.off = d.c.rget (rcAddr .chip r.off) := by
  simp only [chipRegs, List.forall_mem_append, forall_mem_r32, forall_mem_r64, reduceCtorEq, false_implies, implies_true, true_and,
    and_true, List.forall_mem_cons, List.not_mem_nil, true_implies, ne_eq, not_true_eq_false]
  and_intros <;> intros <;> rfl

theorem Dev.regVal_rc_link (l : Nat) : ∀ r ∈ linkRegs, r.acc = .rc →
    d.regVal (.link l) r.off = d.c.rget (rcAddr (.link l) r.off) := by
  simp only [linkRegs, List.forall_mem_append, forall_mem_r32, forall_mem_r64, reduceCtorEq, false_implies, implies_true, true_and,
    and_true, List.forall_mem_cons, List.not_mem_nil, true_implies]
  and_intros <;> rfl

/-- So does one of a window, where the security engines of D16, D32 and D48 are in standby and count nothing (R14). -/
theorem Dev.regVal_rc_sub (h k i : Nat) (hd : k = 5 → h = 0) : ∀ r ∈ subRegs k, r.acc = .rc →
    d.regVal (.sub h k i) r.off = d.c.rget (rcAddr (.sub h k i) r.off) := by
  unfold subRegs
  split <;> simp only [List.forall_mem_append, forall_mem_r32, forall_mem_r64, reduceCtorEq, false_implies, implies_true, true_and,
    and_true, List.forall_mem_cons, List.not_mem_nil, true_implies]
  case h_4 => obtain rfl := hd rfl; exact ⟨rfl, rfl⟩
  all_goals and_intros <;> rfl

end

/-- Of the security engines only that of D00 answers past its common part: the others are in standby (R14, R28). -/
theorem Core.dieZero_of_not_shut {c : Core} {h i : Nat} {r : RegDef} (hv : (SUnit.sub h 5 i).valid = true) (hr : r ∈ subRegs 5)
    (hs : c.shut (.sub h 5 i) r.off = false) : h = 0 := by
  have ho : 0x200 ≤ r.off := (by decide : ∀ r ∈ subRegs 5, 0x200 ≤ r.off) r hr
  obtain ⟨-, hh, -⟩ := by simpa [SUnit.valid, subExists] using hv
  obtain ⟨-, h0⟩ := by simpa [Core.shut, SUnit.standby, ho, hh] using hs
  exact h0

/-- A read-to-clear counter of a block that answers shows what is kept at its address. -/
theorem Dev.regVal_rc (d : Dev) {u : SUnit} {r : RegDef} (hv : u.valid = true) (hr : r ∈ regsOf u) (ha : r.acc = .rc)
    (he : ¬ (u = .chip ∧ r.off = 0x558)) (hs : d.c.shut u r.off = false) : d.regVal u r.off = d.c.rget (rcAddr u r.off) := by
  rcases List.mem_append.mp hr with hr | hr
  · exact d.regVal_rc_common u r hr ha
  · cases u with
    | chip => exact d.regVal_rc_chip r hr ha (fun h => he ⟨rfl, h⟩)
    | link l => exact d.regVal_rc_link l r hr ha
    | sub h k i => exact d.regVal_rc_sub h k i (fun hk => by subst hk; exact Core.dieZero_of_not_shut hv hr hs) r hr ha
    | cell _ | die _ | region _ | stack _ => cases hr

/-! ### An access that reaches a register -/

/-- The port's parity control (R457, R464), not armed, takes no access. -/
theorem Core.portCheck_quiet {c : Core} (h : bit (c.rget (injAddr (.sub 0 6 0) 0)) 63 = false) : c.portCheck = (false, c) := by
  simp [Core.portCheck, Core.inject, h]

section
variable {d : Dev} {u : SUnit} {o off size v during : Nat} {r : RegDef}

/-- At a working port with its parity control not armed, a write of a supported size is done (R31). -/
theorem Dev.bar0Write_done (hp : d.portUp = true) (ha : bit (d.c.rget (injAddr (.sub 0 6 0) 0)) 63 = false)
    (hs : accessOk off size = true) : d.bar0Write off size v during = d.writeAt off size v during := by
  simp [Dev.bar0Write, hp, Core.portCheck_quiet ha, hs]

/-- A read likewise; its data leave as a completion. -/
theorem Dev.bar0Read_done (hp : d.portUp = true) (ha : bit (d.c.rget (injAddr (.sub 0 6 0) 0)) 63 = false)
    (hs : accessOk off size = true) : d.bar0Read off size during =
      { (d.readAt off size during).2 with
        out := (d.readAt off size during).2.out ++ [.completion (leBytes (d.readAt off size during).1 size) false] } := by
  simp [Dev.bar0Read, hp, Core.portCheck_quiet ha, hs]

/-- A four-byte write that a register accepts acts by its access code (R28, R32). -/
theorem Dev.writeAt_accepted (hu : unitAt off = some (u, o)) (hm : inMsix off = false) (hr : regAt u o = some r) (ha : r.acc ≠ .ro)
    (hd : d.c.drops u o = false) : d.writeAt off 4 v during = d.writeReg u r o 4 v during := by
  simp [Dev.writeAt, Dev.writePart, hu, hm, hr, ha, hd]

theorem Dev.readVal_lt : d.readVal u r < 2 ^ r.width := by
  unfold Dev.readVal
  split
  · exact Nat.two_pow_pos _
  · exact Nat.mod_lt _ (Nat.two_pow_pos _)

@[simp] theorem Dev.readReg_fst : (d.readReg u r during).1 = d.readVal u r := rfl

theorem Dev.readPart_word (hr : regAt u o = some r) (h : r.width = 32) : d.readPart u o off during = d.readReg u r during := by
  simp [Dev.readPart, hr, h]

/-- A read of the low half of a register of 64 bits latches the high half (R33). -/
theorem Dev.readPart_lowHalf (hr : regAt u o = some r) (h : r.width = 64) (ho : o = r.off) : d.readPart u o off during =
    (d.readVal u r % 2 ^ 32, { (d.readReg u r during).2 with
      latch := kset (d.readReg u r during).2.latch (off + 4) (d.readVal u r / 2 ^ 32) }) := by
  have hne : ¬ r.width = 32 := by omega
  simp only [Dev.readPart, hr, if_neg hne, if_pos ho, Dev.readReg_fst]

/-- A read of a register from its first byte, no longer than it, is a read of the register; it may latch the high half (R33). -/
theorem Dev.readAt_register (hu : unitAt off = some (u, o)) (hm : inMsix off = false) (hr : regAt u o = some r) (ho : o = r.off)
    (hs : accessOk off size = true) (hw : 8 * size ≤ r.width) :
    ∃ l, d.readAt off size during = (d.readVal u r % 2 ^ (8 * size), { (d.readReg u r during).2 with latch := l }) := by
  have whole (hv : r.width = 8 * size) : d.readReg u r during =
      (d.readVal u r % 2 ^ (8 * size), { (d.readReg u r during).2 with latch := (d.readReg u r during).2.latch }) := by
    rw [← hv, Nat.mod_eq_of_lt Dev.readVal_lt]; rfl
  have hsize : size = 4 ∨ size = 8 := by
    simp only [accessOk, Bool.and_eq_true, Bool.or_eq_true, decide_eq_true_eq] at hs
    exact hs.1
  rcases hsize with rfl | rfl
  · have hpart : d.readAt off 4 during = d.readPart u o off during := by simp [Dev.readAt, hm, hu]
    rw [hpart]
    rcases regsOf_width u r (regAt_mem hr) with h | h
    · exact ⟨_, (Dev.readPart_word hr h).trans (whole h)⟩
    · exact ⟨_, Dev.readPart_lowHalf hr h ho⟩
  · have h : r.width = 64 := by have := regsOf_width u r (regAt_mem hr); omega
    have hreg : d.readAt off 8 during = d.readReg u r during := by simp [Dev.readAt, hm, hu, hr, h]
    exact ⟨_, hreg.trans (whole h)⟩

end

end Sys2Proof.Machine
end

section
/-!
Obligation O57: a write-one-to-clear register (R8).
-/
namespace Sys2Proof.Machine
open Sys2Proof

theorem bit_eq_testBit (w i : Nat) : bit w i = w.testBit i := Nat.testBit_eq_decide_div_mod_eq.symm

/-- What a write-one-to-clear register holds after a write of `v`: its old bits but those written as one, and the bits set in the
same access, reserved ones apart. -/
def w1cAfter (defined old v during : Nat) : Nat := ((old &&& (0xFFFFFFFF ^^^ v % 2 ^ 32)) ||| during) &&& defined

theorem bit_w1cAfter (defined old v during : Nat) {i : Nat} (hi : i < 32) :
    bit (w1cAfter defined old v during) i = (bit defined i && (bit during i || (bit old i && !(bit v i)))) := by
  have hones : (0xFFFFFFFF : Nat).testBit i = true := by
    rw [show (0xFFFFFFFF : Nat) = 2 ^ 32 - 1 from rfl, Nat.testBit_two_pow_sub_one]
    exact decide_eq_true hi
  simp only [bit_eq_testBit, w1cAfter, Nat.testBit_and, Nat.testBit_or, Nat.testBit_xor, Nat.testBit_mod_two_pow, hones, hi,
    decide_true, Bool.true_and, Bool.true_xor]
  rw [Bool.and_comm, Bool.or_comm]

theorem Dev.writeReg_w1c (d : Dev) (u : SUnit) {r : RegDef} (o size v during : Nat) (ha : r.acc = .w1c) :
    d.writeReg u r o size v during =
      d.setC (d.c.rset (u.base + r.off) (w1cAfter (w1cBits u r.off) (d.c.rget (u.base + r.off)) v during)) := by
  simp only [Dev.writeReg, ha]
  rfl

/-- Settles O57: the write is accepted, and what it leaves is `w1cAfter`, bit by bit. -/
theorem w1cBitSetMeanwhileStays : Obligations.W1cBitSetMeanwhileStays := by
  intro s u o off v during r hu hm hr ha hal hp hq hd
  have hok : accessOk off 4 = true := by simp [accessOk, hal]
  refine ⟨_, ?_, fun i hi => bit_w1cAfter _ _ _ _ hi⟩
  calc exec (.errFlagsClear off v during) s
      = .next (s.setD (s.dev.bar0Write off 4 v during)) := rfl
    _ = .next (s.setD (s.dev.writeAt off 4 v during)) := by rw [Dev.bar0Write_done hp (hq 0) hok]
    _ = .next (s.setD (s.dev.writeReg u r o 4 v during)) := by rw [Dev.writeAt_accepted hu hm hr (by simp [ha]) hd]
    _ = _ := by rw [Dev.writeReg_w1c _ _ _ _ _ _ ha]; rfl

end Sys2Proof.Machine
end

section
/-!
Obligation O58: a counter cleared by its read (R9).
-/
namespace Sys2Proof.Machine
open Sys2Proof

/-- A read-to-clear counter of a block that answers reads what is kept at its address. -/
theorem Dev.readVal_rc (d : Dev) {u : SUnit} {r : RegDef} (hv : u.valid = true) (hr : r ∈ regsOf u) (ha : r.acc = .rc)
    (he : ¬ (u = .chip ∧ r.off = 0x558)) (hl : d.c.silent u = false) (hs : d.c.shut u r.off = false) :
    d.readVal u r = d.c.rget (rcAddr u r.off) % 2 ^ r.width := by
  simp [Dev.readVal, hl, hs, d.regVal_rc hv hr ha he hs]

/-- A counter is left with what it counted during the read that clears it. -/
theorem Core.clearRc_counter (c : Core) {u : SUnit} {r : RegDef} (during : Nat)
    (hc : ¬ (u = .chip ∧ (r.off = 0x558 ∨ r.off = 0x568))) :
    c.clearRc u r during = c.rset (rcAddr u r.off) (during % 2 ^ r.width) := by
  have h1 : ¬ (u = .chip ∧ r.off = 0x558) := fun h => hc ⟨h.1, .inl h.2⟩
  have h2 : ¬ (u = .chip ∧ r.off = 0x568) := fun h => hc ⟨h.1, .inr h.2⟩
  rw [Core.clearRc, if_neg h1, rcBits, if_neg h2, Nat.and_two_pow_sub_one_eq_mod]

/-- No counter is kept at the address of the port's parity control, so no read of one arms it. -/
theorem rcAddr_ne_portControl {u : SUnit} {o off : Nat} {r : RegDef} (hu : unitAt off = some (u, o)) (hr : regAt u o = some r)
    (ha : r.acc = .rc) (ho : o = r.off) : injAddr (.sub 0 6 0) 0 ≠ rcAddr u r.off := by
  intro h
  rcases rcAddr_cases u r.off with hb | hg | hg
  · have hoff : off = injAddr (.sub 0 6 0) 0 := by rw [h, hb, ← ho]; exact (unitAt_spec hu).2.symm
    have hport : unitAt (injAddr (.sub 0 6 0) 0) = some (.sub 0 6 0, 0x180) := by decide
    have hinj : regAt (.sub 0 6 0) 0x180 = some ⟨0x180, 64, .inj⟩ := by decide
    rw [hoff, hport] at hu
    obtain ⟨rfl, rfl⟩ := by simpa using hu
    rw [hinj] at hr
    obtain rfl := Option.some.inj hr
    cases ha
  · rw [hg] at h; exact absurd h (by decide)
  · rw [hg] at h; exact absurd h (by decide)

/-- The whole effect of a host's read of a counter, whole or by its low half. -/
theorem Dev.bar0Read_counter {d : Dev} {u : SUnit} {o off size during : Nat} {r : RegDef} (hu : unitAt off = some (u, o))
    (hm : inMsix off = false) (hr : regAt u o = some r) (ha : r.acc = .rc) (ho : o = r.off)
    (hc : ¬ (u = .chip ∧ (r.off = 0x558 ∨ r.off = 0x568))) (hok : accessOk off size = true) (hw : 8 * size ≤ r.width)
    (hp : d.portUp = true) (hq : bit (d.c.rget (injAddr (.sub 0 6 0) 0)) 63 = false) (hl : d.c.silent u = false)
    (hs : d.c.shut u r.off = false) :
    ∃ l, d.bar0Read off size during = { d.c.rset (rcAddr u r.off) (during % 2 ^ r.width) with
      latch := l, out := d.c.out ++ [.completion (leBytes (d.readVal u r % 2 ^ (8 * size)) size) false] } := by
  obtain ⟨l, hl'⟩ := Dev.readAt_register (d := d) (during := during) hu hm hr ho hok hw
  have hreg : d.readReg u r during = (d.readVal u r, d.c.rset (rcAddr u r.off) (during % 2 ^ r.width)) := by
    simp [Dev.readReg, ha, hl, hs, Core.clearRc_counter d.c during hc]
  exact ⟨l, by rw [Dev.bar0Read_done hp hq hok, hl', hreg]; rfl⟩

/-- Settles O58: the first read leaves what was counted during it, and leaves the port and the block as they were for the second. -/
theorem countDuringReadIsNotLost : Obligations.CountDuringReadIsNotLost := by
  intro s u o off size during r hu hm hr ha ho hc hok hw hp hq hl hs
  subst ho
  have he : ¬ (u = .chip ∧ r.off = 0x558) := fun h => hc ⟨h.1, .inl h.2⟩
  obtain ⟨l, h1⟩ := Dev.bar0Read_counter (during := during) hu hm hr ha rfl hc hok hw hp (hq 0) hl hs
  let d1 := s.dev.setC (s.dev.bar0Read off size during)
  have hkept (a : Nat) : d1.c.rget a = (s.dev.c.rset (rcAddr u r.off) (during % 2 ^ r.width)).rget a := by
    simp only [d1, Dev.setC_c, h1]; rfl
  have hq1 : bit (d1.c.rget (injAddr (.sub 0 6 0) 0)) 63 = false := by
    rw [hkept, Core.rget_rset_ne _ _ (rcAddr_ne_portControl hu hr ha rfl)]
    exact hq 0
  have hl1 : d1.c.silent u = false := by simp only [d1, Dev.setC_c, h1]; exact hl
  have hs1 : d1.c.shut u r.off = false := by simp only [d1, Dev.setC_c, h1]; exact hs
  have hval : d1.readVal u r = during % 2 ^ r.width := by
    rw [d1.readVal_rc (unitAt_spec hu).1 (regAt_mem hr) ha he hl1 hs1, hkept, Core.rget_rset_self, Nat.mod_mod]
  refine ⟨s.setC d1.c, rfl, congrArg Core.out h1, hval, fun later => ?_⟩
  obtain ⟨l2, h2⟩ := Dev.bar0Read_counter (d := d1) (during := later) hu hm hr ha rfl hc hok hw hp hq1 hl1 hs1
  rw [hval] at h2
  exact ⟨s.setC (d1.bar0Read off size later), rfl, congrArg Core.out h2⟩

end Sys2Proof.Machine
end

section
/-!
Obligation O59: an access that BAR0 does not support, and one to reserved space (R30, R31, R33).
-/
namespace Sys2Proof.Machine
open Sys2Proof

@[simp] theorem leBytes_zero : ∀ len, leBytes 0 len = zeros len
  | 0 => rfl
  | len + 1 => by rw [leBytes, Nat.zero_div, leBytes_zero len]; rfl

/-! ### What BAR0_FAULT and BAR0_FAULT_ADDR hold after a record -/

section
variable (c : Core) (b off : Nat)

@[simp] theorem Core.barFault_out : (c.barFault b off).out = c.out := by
  unfold Core.barFault
  split <;> rfl

theorem Core.barFault_records : bit ((c.barFault b off).rget 0x490) b = true := by
  simp [Core.barFault, bit_eq_testBit]

theorem Core.barFault_addr_of_clear (h : c.rget 0x490 = 0) : (c.barFault b off).rget 0x498 = off := by
  simp only [Core.barFault, if_pos h]
  rw [Core.rget_rset_ne _ _ (by decide), Core.rget_rset_self]

end

/-! ### The access done as one to reserved space -/

/-- Every host access of this size at this offset completes normally and leaves the core `c`: a read answers zeros by its
completion, a write sends nothing and changes nothing else (R31). -/
structure Dev.ReservedAccess (d : Dev) (off size : Nat) (c : Core) : Prop where
  read : ∀ during, d.bar0Read off size during = { c with out := d.c.out ++ [.completion (zeros size) false] }
  write : ∀ v during, d.bar0Write off size v during = d.setC c

section
variable (s : State) (off size v during : Nat)

theorem exec_bar0ReservedAccess_read :
    exec (.bar0ReservedAccess off size false) s = .next (s.setC (s.dev.bar0Read off size 0)) := rfl
theorem exec_bar0ReservedAccess_write :
    exec (.bar0ReservedAccess off size true) s = .next (s.setD (s.dev.bar0Write off size 0 0)) := rfl
theorem exec_rcRegisterRead : exec (.rcRegisterRead off size during) s = .next (s.setC (s.dev.bar0Read off size during)) := rfl
theorem exec_registerWrite : exec (.registerWrite off size v) s = .next (s.setD (s.dev.bar0Write off size v 0)) := rfl

end

/-- Such an access at each of the rows that make one. -/
theorem Dev.ReservedAccess.exec_eq {s : State} {off size : Nat} {c : Core} (h : s.dev.ReservedAccess off size c) (v during : Nat) :
    let answered := s.setC { c with out := s.dev.c.out ++ [.completion (zeros size) false] }
    exec (.bar0ReservedAccess off size false) s = .next answered ∧ exec (.rcRegisterRead off size during) s = .next answered ∧
    exec (.bar0ReservedAccess off size true) s = .next (s.setC c) ∧ exec (.registerWrite off size v) s = .next (s.setC c) := by
  refine ⟨?_, ?_, ?_, ?_⟩
  · rw [exec_bar0ReservedAccess_read, h.read]
  · rw [exec_rcRegisterRead, h.read]
  · rw [exec_bar0ReservedAccess_write, h.write]; rfl
  · rw [exec_registerWrite, h.write]; rfl

section
variable {d : Dev} {u : SUnit} {o off size v during : Nat}

theorem Dev.readPart_reserved (hr : regAt u o = none) : d.readPart u o off during = (0, d.c.barFault 0 off) := by
  simp [Dev.readPart, hr]

theorem Dev.writePart_reserved (hr : regAt u o = none) : d.writePart u o off size v during = d.setC (d.c.barFault 0 off) := by
  simp [Dev.writePart, hr, Dev.setC]

section
variable (hp : d.portUp = true) (ha : bit (d.c.rget (injAddr (.sub 0 6 0) 0)) 63 = false)
include hp ha

/-- A size or an alignment that BAR0 does not support: the access reaches no block. -/
theorem Dev.reservedAccess_of_unsupported (hs : accessOk off size = false) : d.ReservedAccess off size (d.c.barFault 1 off) where
  read _ := by simp [Dev.bar0Read, hp, Core.portCheck_quiet ha, hs]
  write _ _ := by simp [Dev.bar0Write, hp, Core.portCheck_quiet ha, hs, Dev.setC]

/-- A supported access is one to reserved space where it reads zero and drops its write, and either leaves the same core. -/
theorem Dev.reservedAccess_of_supported {c : Core} (hs : accessOk off size = true) (hout : c.out = d.c.out)
    (hr : ∀ during, d.readAt off size during = (0, c)) (hw : ∀ v during, d.writeAt off size v during = d.setC c) :
    d.ReservedAccess off size c where
  read during := by rw [Dev.bar0Read_done hp ha hs, hr, leBytes_zero, hout]
  write v during := (Dev.bar0Write_done hp ha hs).trans (hw v during)

variable (hs : accessOk off size = true) (hm : inMsix off = false)
include hs hm

/-- An offset in no block. -/
theorem Dev.reservedAccess_of_noUnit (hu : unitAt off = none) : d.ReservedAccess off size (d.c.barFault 0 off) :=
  Dev.reservedAccess_of_supported hp ha hs (d.c.barFault_out 0 off)
    (fun _ => by simp [Dev.readAt, hm, hu])
    (fun _ _ => by simp [Dev.writeAt, hm, hu, Dev.setC])

variable (hu : unitAt off = some (u, o)) (hlo : regAt u o = none)
include hu hlo

/-- Four bytes of a block that hold no register. -/
theorem Dev.reservedAccess_of_noRegister (h4 : size = 4) : d.ReservedAccess off size (d.c.barFault 0 off) := by
  subst h4
  exact Dev.reservedAccess_of_supported hp ha hs (d.c.barFault_out 0 off)
    (fun _ => by simp [Dev.readAt, hm, hu, Dev.readPart_reserved hlo])
    (fun _ _ => by simp [Dev.writeAt, hm, hu, Dev.writePart_reserved hlo])

/-- Eight bytes whose halves hold no register: two accesses, the lower half first (R33). -/
theorem Dev.reservedAccess_of_noRegisterPair (h8 : size = 8) (hhi : regAt u (o + 4) = none) :
    d.ReservedAccess off size ((d.c.barFault 0 off).barFault 0 (off + 4)) := by
  subst h8
  exact Dev.reservedAccess_of_supported hp ha hs (by simp)
    (fun _ => by simp [Dev.readAt, hm, hu, hlo, Dev.readPart_reserved hlo, Dev.readPart_reserved hhi])
    (fun _ _ => by simp [Dev.writeAt, hm, hu, hlo, Dev.writePart_reserved hlo, Dev.writePart_reserved hhi, Dev.setC])

end
end

/-- Settles O59: each of the four kinds of odd access is a `ReservedAccess`, with its own record in BAR0_FAULT. -/
theorem oddAccessesCompleteNormally : Obligations.OddAccessesCompleteNormally := by
  intro s off size v during hp hq
  refine ⟨?_, ?_, ?_, ?_, ?_⟩
  · exact fun b => ⟨Core.barFault_out _ b off, Core.barFault_records _ b off, Core.barFault_addr_of_clear _ b off⟩
  · intro hs
    exact (Dev.reservedAccess_of_unsupported hp (hq 0) hs).exec_eq v during
  · intro hs hm hu
    exact (Dev.reservedAccess_of_noUnit hp (hq 0) hs hm hu).exec_eq v during
  · intro u o hs hm h4 hu hlo
    exact (Dev.reservedAccess_of_noRegister hp (hq 0) hs hm hu hlo h4).exec_eq v during
  · intro u o hs hm h8 hu hlo hhi
    exact (Dev.reservedAccess_of_noRegisterPair hp (hq 0) hs hm hu hlo h8 hhi).exec_eq v during

end Sys2Proof.Machine
end

section
/-!
Obligation O15: a write into a busy aperture slot (R407).
-/
namespace Sys2Proof.Machine
open Sys2Proof

/-! ### Setting a bit of DEV_EVENT, and counting -/

theorem or_one_shiftLeft_of_getLsbD {w : Nat} {x : BitVec w} {i : Nat} (h : x.getLsbD i = true) : x ||| (1#w <<< i) = x := by
  ext j hj
  by_cases hji : j = i
  · subst hji
    simp [← BitVec.getLsbD_eq_getElem hj, h]
  · have hbit : (1#w <<< i)[j] = false := by
      rw [← BitVec.twoPow_eq, BitVec.getElem_twoPow, decide_eq_false hji]
    simp [hbit]

section
variable (c : Core) (i a : Nat)

theorem Core.devEvent_event : (c.devEvent i).event = c.event ||| (1#32 <<< i) := by
  unfold Core.devEvent
  split
  case isTrue h => exact (or_one_shiftLeft_of_getLsbD h).symm
  case isFalse =>
    obtain ⟨pe, ou, h⟩ := Core.msix_eq { c with event := c.event ||| (1#32 <<< i) } 0
    rw [h]

@[simp] theorem Core.devEvent_rget : (c.devEvent i).rget a = c.rget a := by
  obtain ⟨ev, pe, ou, h⟩ := Core.devEvent_eq c i
  rw [h]
  rfl

end

theorem Core.bump_rget_ne (c : Core) {a b : Nat} (w n : Nat) (h : b ≠ a) : (c.bump a w n).rget b = c.rget b :=
  Core.rget_rset_ne c _ h

/-! ### The write -/

/-- At a working port, a write into a busy slot is counted in CMD_DROPPED and sets DEV_EVENT[1]. -/
theorem exec_apertureWrite_busy {s : State} {off : Nat} {data : List Byte} (hw : (Instr.apertureWrite off data).wf = true)
    (hp : s.dev.portUp = true) (hb : (kget s.dev.c.busy (off / 0x2000)).isSome = true) :
    exec (.apertureWrite off data) s = .next (s.setC ((s.dev.c.bump 0x550 32 1).devEvent 1)) :=
  calc exec (.apertureWrite off data) s
      = execApertureWrite off data s := rfl
    _ = s.onCore _ := s.guard_true _ hw
    _ = _ := by simp [State.onCore_eq, State.setC, hp, hb]

/-- Settles O15: the core is left with the count raised and then the event set, and neither reaches further. -/
theorem busySlotDropsTheWrite : Obligations.BusySlotDropsTheWrite := by
  intro s off data hw hp hb
  obtain ⟨v, hbump⟩ := s.dev.c.bump_eq 0x550 32 1
  obtain ⟨ev, pe, ou, hevent⟩ := (s.dev.c.bump 0x550 32 1).devEvent_eq 1
  have hleft : (s.dev.c.bump 0x550 32 1).devEvent 1 =
      { s.dev.c with reg := kset s.dev.c.reg 0x550 v, event := ev, msixPend := pe, out := ou } := by
    rw [hevent, hbump]
    rfl
  refine ⟨_, exec_apertureWrite_busy hw hp hb, ?_, ?_, ?_, fun hfit => ?_, ?_, fun a ha => ?_⟩
  · rw [hleft]
  · rw [hleft]
  · rw [Core.devEvent_event]
    rfl
  · rw [Core.devEvent_rget, Core.bump_counts hfit]
  · rw [hleft]
  · rw [Core.devEvent_rget, Core.bump_rget_ne _ _ _ ha]

end Sys2Proof.Machine
end

section
/-!
SUPPORT. Every row runs its meaning by one of a few operations, each of which keeps the queue and faults only where the row names
nothing that exists (R13, R82, R409, R416). Obligations O1, O3, O4, O5 and O10.
-/
namespace Sys2Proof.Machine
open Sys2Proof

/-- What a row may answer: a next state with the same queue, of which only the core differs where `core` says so, or, only where the
command is not well-formed, a fault. -/
inductive Answers (s : State) (wf core : Bool) : Host.Outcome State Fault Refusal → Prop
  | next (d : Dev) (h : core = true → d = s.dev.setC d.c) : Answers s wf core (.next (s.setD d))
  | fault (f : Fault) (h : wf = false) : Answers s wf core (.fault f)

section
variable {s : State} {wf core ok : Bool} {k : Cmd} {p : Packet}

theorem onCore_answers (f : Dev → Core) : Answers s wf core (s.onCore f) := .next (s.dev.setC (f s.dev)) fun _ => rfl

theorem answer_answers (f : Dev → List Byte) : Answers s wf core (s.answer f) := onCore_answers _

theorem onDev_answers (f : Dev → Dev) : Answers s wf false (s.onDev f) := .next (f s.dev) nofun

theorem guard_answers {f : Dev → Core} (h : wf = true → ok = true) : Answers s wf core (s.guard ok f) := by
  unfold State.guard
  split
  · exact onCore_answers f
  · exact .fault _ (Bool.eq_false_iff.mpr fun hw => ‹¬ _› (h hw))

theorem guardDev_answers {f : Dev → Dev} (h : wf = true → ok = true) : Answers s wf false (s.guardDev ok f) := by
  unfold State.guardDev
  split
  · exact onDev_answers f
  · exact .fault _ (Bool.eq_false_iff.mpr fun hw => ‹¬ _› (h hw))

theorem hostCmd_answers {body : Dev → Core} (h : wf = true → p.opcode.toNat = k.op) : Answers s wf core (hostCmd k p s body) := by
  unfold hostCmd
  split
  · exact onCore_answers _
  · exact .fault _ (Bool.eq_false_iff.mpr fun hw => ‹¬ _› (h hw))

theorem hostCmdDev_answers {body : Dev → Dev} (h : wf = true → p.opcode.toNat = k.op) :
    Answers s wf false (hostCmdDev k p s body) := by
  unfold hostCmdDev
  split
  · exact onDev_answers _
  · exact .fault _ (Bool.eq_false_iff.mpr fun hw => ‹¬ _› (h hw))

/-- A well-formed packet has the opcode of its row. -/
theorem opcode_of_wf {op : Nat} (h : p.wf op = true) : p.opcode.toNat = op := by
  simp only [Packet.wf, Bool.and_eq_true, decide_eq_true_eq] at h
  exact h.1.1

theorem linkCtl_answers {a : Nat} {body : Dev → Core} (h : wf = true → (p.wf 0x408 && (p.arg 1 = a || 2 < p.arg 1)) = true) :
    Answers s wf core (linkCtl a p s body) := by
  unfold linkCtl
  split
  case isTrue hne =>
    refine .fault _ (Bool.eq_false_iff.mpr fun hw => ?_)
    have := h hw
    simp only [Bool.and_eq_true, Bool.or_eq_true, decide_eq_true_eq] at this
    omega
  case isFalse => exact hostCmd_answers fun hw => opcode_of_wf (Bool.and_eq_true_iff.mp (h hw)).1

theorem ownerCmd_answers {a : Nat} {e : Trust → Trust} (h : wf = true → (p.wf 0x821 && (p.arg 0 = a || 3 < p.arg 0)) = true) :
    Answers s wf false (ownerCmd a p s e) := by
  unfold ownerCmd
  split
  case isTrue hne =>
    refine .fault _ (Bool.eq_false_iff.mpr fun hw => ?_)
    have := h hw
    simp only [Bool.and_eq_true, Bool.or_eq_true, decide_eq_true_eq] at this
    omega
  case isFalse => exact hostCmdDev_answers fun hw => opcode_of_wf (Bool.and_eq_true_iff.mp (h hw)).1

theorem sbWriteNack_answers {code : Nat} {write : Bool} (h : wf = true → (write || !(sbCodes.contains code)) = true) :
    Answers s wf core (execSbWriteNack code write s) := by
  unfold execSbWriteNack
  split
  · exact onCore_answers _
  · exact .fault _ (Bool.eq_false_iff.mpr fun hw => ‹¬ _› (h hw))

end

/-- Every row answers so. -/
theorem exec_answers (i : Instr) (s : State) : Answers s i.wf (!beyondCore i) (exec i s) := by
  cases i <;> dsimp only [exec]
  case chainFetchDone | recordIssue | forkIssue | variantEnd | settleRecord | settlePoint | endRecord | siltPacketLand |
      contribArrive | nullContribArrive | reduceDeadline | verdContribArrive | verdRecordArrive | beatSend | beatArrive |
      livenessTimeout | lossArrive | pushArrive | pushReqArrive | dispCountArrive | dispGrantArrive | dispRowArrive |
      combRowArrive | readArrive | readServe | readDataArrive | writeArrive | writeDoneArrive | requestTimeout | escapeTimeout |
      escapeWaitTimeout | spdmGetCertificate | spdmGetMeasurements | failcountFlashWrite | rcRegisterRead | lowHalfRead |
      highHalfRead | bar2Read | bar2Write =>
    exact onCore_answers _
  case sbState | sbTdie | sbThbm | sbPower | sbCap | sbOp | sbInventory | sbFirmware =>
    exact answer_answers _
  case apertureWrite | slotCopyDone | plotEvictDone | plotPromoteDone | stashDemoteDone | scrubTick | plotRetireCopyDone |
      pageCopyDone | actionBegin | actionComplete | nop | setap | fProduct | bProduct | convert | survey | unary | binary |
      rowreduce | softmaxOnline | softmaxFinish | softmaxBackward | flagw | receive | send | silt | granuleLand | arm | rearm |
      disarm | tileDeliver | streamRetry | parkLimitExpire | stallLimitExpire | sweep | shardSweepDone | exportRingRoom |
      exportRecordDrop | push | reduce | verdict | dispatch | combine | pushReqTimer | messageAssemblyTimeout | ackArrive |
      nakArrive | replayTimeout | creditArrive | keyArrive | linkKeyExhaust | linkTrainDone | linkTrainRetry | linkRetrainDone |
      linkRetrainTimeout | bistDone | selftestDone | correctionLimit | flitReceive | initialTrainingTimeout =>
    exact guard_answers id
  case devInfo | devStatus | devReset | devEvents | ctxCreate | ctxDestroy | ctxList | windowSet | floorSet | objAlloc |
      objFree | objHint | objPromote | objEvict | objQuery | hostMap | hostUnmap | poolStatus | poolMarks | kvTable | pageAdd |
      pageMap | pageRef | pageUnref | pageDrop | pageRevive | pageRead | progLoad | progRun | progStop | progUnload |
      progFlag | descLoad | siltRoutes | faultRing | faultAbort | streamLimits | linkParams | fabricMap | jobBind | jobUnbind |
      jobRemap | treeLoad | dispatchLoad | stepParams | layerLoad | shardLoad | reshard | verdictRing | numMode | censusRead |
      censusRing | trapMode | trapResume | updPlan | updSched | lossScale | updRead | exportSet | exportBedrock | idCerts |
      attestDev | attestCtx | keyImport | keyErase | sealArea | bistRun | selftestRun | unitDisable | unitEnable | failRead |
      failForget =>
    exact hostCmd_answers opcode_of_wf
  case linkCtlEnable | linkCtlDisable | linkCtlRetrain =>
    exact linkCtl_answers id
  case sbWriteNack =>
    exact sbWriteNack_answers id
  case auxRailUp | auxRailLoss | mainInputAccept | corePowerGood | mainInputUvlo | mainInputRecover | perstDeassert |
      pcieConventionalReset | hotReset | functionLevelReset | stageBootRomDone | stageFwVerifyDone | fwStagedCopyDone |
      stageLocalMappingDone | devResetExec | govEvaluate | powerOverLimit | opRampDone | ideKm | ideStreamInsecure | injArm |
      errFlagsClear | errFirstClear | errActionClear | bar0FaultClear | bar0ReservedAccess | registerWrite =>
    exact onDev_answers _
  case stageBistDone | stageHbmTrainingDone | stageLinkTrainingDone | sensorSample | thermalTrip =>
    exact guardDev_answers id
  case govBudget | govLimits | govFix | peerKeys | ownerClaim | fwBegin | fwBlock | fwCommit | fwAbort =>
    exact hostCmdDev_answers opcode_of_wf
  case ownerCmdLock | ownerCmdUnlock | ownerCmdRemove | ownerCmdReplace =>
    exact ownerCmd_answers id

/-- Settles O1: a step is `exec` by its definition. -/
theorem stepRunsFront : Obligations.StepRunsFront := by
  intro s i rest h
  simp only [step, h]

/-- Settles O3: whatever a row answers keeps the queue. -/
theorem execKeepsQueue : Obligations.ExecKeepsQueue := by
  intro i s t h
  cases h ▸ exec_answers i s
  rfl

/-- Settles O4: a well-formed row has no fault to answer. -/
theorem wellFormedCompletes : Obligations.WellFormedCompletes := by
  intro i s hw
  have ha := exec_answers i s
  generalize exec i s = o at ha
  cases ha with
  | next d => exact ⟨_, rfl⟩
  | fault f h => rw [hw] at h; cases h

/-- Settles O5: no row answers a refusal, and one that faults is not well-formed. -/
theorem faultsOnlyWhenIllFormed : Obligations.FaultsOnlyWhenIllFormed := by
  intro i s
  have ha := exec_answers i s
  generalize exec i s = o at ha
  cases ha with
  | next d => exact ⟨nofun, nofun⟩
  | fault f h => exact ⟨nofun, fun _ _ => h⟩

/-- A row that stays in the core puts only the core back. -/
theorem exec_setC {i : Instr} {s t : State} (hi : beyondCore i = false) (h : exec i s = .next t) : t = s.setC t.dev.c := by
  have ha := exec_answers i s
  rw [h, hi] at ha
  cases ha with
  | next d hd => exact congrArg s.setD (hd rfl)

/-- Settles O10: only the core may differ after such a row. -/
theorem coreOnlyCommands : Obligations.CoreOnlyCommands := by
  intro i s t hi h
  have ht := exec_setC hi h
  exact ⟨congrArg (·.dev.pw) ht, congrArg (·.dev.gov) ht, congrArg (·.dev.tr) ht⟩

end Sys2Proof.Machine
end

section
/-!
SUPPORT. What the governor, its thermal record and the security engine keep: each part of an evaluation keeps the governor's ranges,
and every row keeps them with the recorded trips and what fuses and an owner hold. Obligations O6, O7, O8 and O9.
-/
namespace Sys2Proof.Machine
open Sys2Proof

/-! ### The governor's ranges (R376, R379 to R384, R393) -/

section
variable {g : Gov}

/-- The chosen point, the hold and the class move within their ranges; the rest of the invariant is about other fields. -/
theorem Gov.inv_of_chosen (h : g.inv) {op hold calm cls : Nat} (hop : op ≤ 7) (hhold : hold ≤ 7) (hcls : cls ≤ 3) :
    ({ g with op := op, hold := hold, calm := calm, cls := cls } : Gov).inv := by
  obtain ⟨-, hforce, -, -, hrest⟩ := h
  exact ⟨hop, hforce, hhold, hcls, hrest⟩

theorem Gov.lower_inv (h : g.inv) (down : Nat) : (g.lower down).inv := by
  obtain ⟨hop, -, hhold, hcls, -⟩ := id h
  refine Gov.inv_of_chosen h (Nat.le_trans (Nat.sub_le ..) hop) ?_ hcls
  split
  · exact Nat.min_le_right ..
  · exact hhold

theorem Gov.rise_inv (h : g.inv) : g.rise.inv := by
  obtain ⟨hop, -, hhold, hcls, hlim, hmax, -⟩ := id h
  unfold Gov.rise
  dsimp only
  (repeat' split) <;> refine Gov.inv_of_chosen h ?_ ?_ hcls <;> omega

theorem Gov.decide'_inv (h : g.inv) : g.decide'.inv := by
  have key : ∀ g1 : Gov, g1.inv → ({ g1 with op := min g1.op g1.opMax } : Gov).inv := fun g1 h1 => by
    obtain ⟨hop, -, hhold, hcls, -⟩ := id h1
    exact Gov.inv_of_chosen h1 (Nat.le_trans (Nat.min_le_left ..) hop) hhold hcls
  unfold Gov.decide'
  split
  · exact key _ (Gov.lower_inv h _)
  · exact key _ (Gov.rise_inv h)

theorem Gov.decideFixed_inv (h : g.inv) {k : Nat} (hk : k ≤ 7) : (g.decideFixed k).inv := by
  obtain ⟨-, -, hhold, hcls, -⟩ := id h
  unfold Gov.decideFixed
  (repeat' split)
  · exact Gov.lower_inv h 2
  · exact h
  · exact Gov.inv_of_chosen h hk hhold hcls

theorem Gov.classOf_le : g.classOf ≤ 3 := by
  unfold Gov.classOf
  (repeat' split) <;> decide

/-- What waits is in range, and so is what it becomes. -/
theorem Gov.settings_inv (h : g.inv) : g.settings.inv := by
  obtain ⟨hop, hforce, hhold, hcls, hlim, hmax, hcap, hcap', hsh, hsh', hfix, hb, hl, hf⟩ := h
  have hbudget : 800 ≤ g.settings.modCap ∧ g.settings.modCap ≤ 3000 ∧ 1 ≤ g.settings.share ∧ g.settings.share ≤ 65536 := by
    unfold Gov.settings
    cases hp : g.pendBudget with
    | none => exact ⟨hcap, hcap', hsh, hsh'⟩
    | some b => exact hb b hp
  have hlimits : g.settings.opMin ≤ g.settings.opMax ∧ g.settings.opMax ≤ 7 := by
    unfold Gov.settings
    cases hp : g.pendLimits with
    | none => exact ⟨hlim, hmax⟩
    | some l => exact hl l hp
  have hfixed : ∀ k, g.settings.fix = some k → k ≤ 7 := by
    unfold Gov.settings
    cases hp : g.pendFix with
    | none => exact hfix
    | some f => exact hf f hp
  obtain ⟨hc, hc', hs, hs'⟩ := hbudget
  exact ⟨hop, hforce, hhold, hcls, hlimits.1, hlimits.2, hc, hc', hs, hs', hfixed, nofun, nofun, nofun⟩

theorem Gov.evaluate_inv (h : g.inv) (draw : Nat) : (g.evaluate draw).inv := by
  have hsettings := Gov.settings_inv h
  have hset : ({ g.settings with power := g.mean draw, sampleSum := 0, samples := 0 } : Gov).inv := hsettings
  have key : ∀ g1 : Gov, g1.inv → ({ g1 with
      cls := g1.classOf, pwrFlag := 9 * (10 * g1.cap) < 10 * g1.power, thermFlag := 180 < g1.temp,
      floorFlag := g1.rawCap < 800 } : Gov).inv := fun g1 h1 => by
    obtain ⟨hop, -, hhold, -⟩ := id h1
    have hclass := Gov.inv_of_chosen (calm := g1.calm) h1 hop hhold (Gov.classOf_le (g := g1))
    exact hclass
  obtain ⟨-, -, -, -, -, -, -, -, -, -, hfix, -⟩ := id hset
  unfold Gov.evaluate
  apply key
  dsimp only at hfix ⊢
  split
  case h_1 k hk => exact Gov.decideFixed_inv hset (hfix k hk)
  case h_2 => exact Gov.decide'_inv hset

/-- An evaluation records no trip. -/
theorem Gov.evaluate_trips (g : Gov) (draw : Nat) : (g.evaluate draw).trips = g.trips := by
  have hlower : ∀ (g1 : Gov) n, (g1.lower n).trips = g1.trips := fun _ _ => rfl
  have hrise : ∀ g1 : Gov, g1.rise.trips = g1.trips := fun g1 => by
    unfold Gov.rise
    dsimp only
    (repeat' split) <;> rfl
  have hdecide : ∀ g1 : Gov, g1.decide'.trips = g1.trips := fun g1 => by
    unfold Gov.decide'
    dsimp only
    split
    · exact hlower ..
    · exact hrise ..
  have hfixed : ∀ (g1 : Gov) k, (g1.decideFixed k).trips = g1.trips := fun g1 k => by
    unfold Gov.decideFixed
    (repeat' split) <;> rfl
  unfold Gov.evaluate
  dsimp only
  split
  · exact hfixed ..
  · exact hdecide ..

end

theorem Gov.reset_inv : Gov.reset.inv := by
  simp [Gov.inv, Gov.reset]

/-- Settles O7. -/
theorem governorInvariantReset : Obligations.GovernorInvariantReset :=
  ⟨Gov.reset_inv, rfl, rfl, rfl, rfl, rfl⟩

/-! ### What every row keeps -/

/-- What a row keeps of the governor and the security engine: the ranges, the recorded trips unless the reset is cold, and what the
fuses and an owner hold. -/
structure Dev.Keeps (cold : Bool) (d e : Dev) : Prop where
  inv : d.gov.inv → e.gov.inv
  trips : cold = false → ∀ r, d.gov.tripped r = true → e.gov.tripped r = true
  kept : d.tr.kept e.tr

section
variable {cold : Bool} {d e : Dev}

theorem Trust.kept_refl (t : Trust) : t.kept t := ⟨Nat.le_refl _, rfl, fun _ => Nat.le_refl _⟩

/-- A row that leaves the ranges, the trips and the three fields of the security engine. -/
theorem Dev.Keeps.of_same (hinv : d.gov.inv → e.gov.inv) (htrips : e.gov.trips = d.gov.trips) (htr : d.tr.kept e.tr) : Dev.Keeps cold d e where
  inv := hinv
  trips _ r h := by unfold Gov.tripped at *; rwa [htrips]
  kept := htr

theorem Dev.Keeps.of_eq (hg : e.gov = d.gov) (ht : e.tr = d.tr) : Dev.Keeps cold d e :=
  .of_same (by rw [hg]; exact id) (by rw [hg]) (by rw [ht]; exact d.tr.kept_refl)

/-- A row may first change the security engine where nothing of the three fields lies. -/
theorem Dev.Keeps.of_trust {t : Trust} (h : Dev.Keeps cold { d with tr := t } e) (hs : t.svnFloor = d.tr.svnFloor)
    (hr : t.revoked = d.tr.revoked) (ho : t.owner = d.tr.owner) (hc : t.ownerCtr = d.tr.ownerCtr) : Dev.Keeps cold d e where
  inv := h.inv
  trips := h.trips
  kept := by
    obtain ⟨h1, h2, h3⟩ := h.kept
    exact ⟨hs ▸ h1, hr ▸ h2, by rw [← ho, ← hc]; exact h3⟩

theorem Dev.Keeps.trans {f : Dev} (h : Dev.Keeps cold d e) (h' : Dev.Keeps cold e f) (htr : f.tr = e.tr) : Dev.Keeps cold d f where
  inv hi := h'.inv (h.inv hi)
  trips hc r hr := h'.trips hc r (h.trips hc r hr)
  kept := by rw [htr]; exact h.kept

/-! Resets and start-up. -/

theorem Trust.afterReset_kept (t : Trust) (keepIde : Bool) : t.kept (t.afterReset keepIde) := t.kept_refl

theorem Dev.warm_keeps (d : Dev) (stage : Nat) (keepCfg : Bool) : Dev.Keeps cold d (d.warm stage keepCfg) :=
  .of_same (fun _ => Gov.reset_inv) rfl (Trust.afterReset_kept ..)

theorem Dev.cold_keeps (d : Dev) : Dev.Keeps true d d.cold where
  inv _ := Gov.reset_inv
  trips := nofun
  kept := Trust.afterReset_kept ..

theorem Dev.stageOne_keeps (d : Dev) : Dev.Keeps cold d d.stageOne := by
  unfold Dev.stageOne
  split <;> exact .of_eq rfl rfl

/-- BIST begins with the governor as a reset leaves it, but for the trips and the readings. -/
theorem Dev.toBist_keeps (d : Dev) : Dev.Keeps cold d d.toBist ∧ d.toBist.tr = d.tr := by
  unfold Dev.toBist
  split
  · exact ⟨.of_same (fun _ => Gov.reset_inv) rfl d.tr.kept_refl, rfl⟩
  · exact ⟨.of_eq rfl rfl, rfl⟩

theorem Dev.boot_keeps (d : Dev) (i : Image) (fallback : Bool) : Dev.Keeps cold d (d.boot i fallback) := by
  obtain ⟨hk, ht⟩ := Dev.toBist_keeps (cold := cold) { d with tr := { d.tr with
    runImage := some i, fallback := fallback, fwMeas := Config.sha384 (i.hdr ++ i.bytes) } }
  exact ⟨hk.inv, hk.trips, hk.kept⟩


theorem Dev.insecure_apart (d : Dev) (stream : Nat) :
    (d.insecure stream).gov = d.gov ∧ ∃ ide, (d.insecure stream).tr = { d.tr with ide := ide } := by
  unfold Dev.insecure
  (repeat' split) <;> exact ⟨rfl, _, rfl⟩

/-! Register writes reach GOV_TRIP of a hub, and not while it holds a trip (R392). -/

/-- Two devices that differ in the core and in GOV_TRIP of hubs without a trip. -/
def Dev.TripsApart (d e : Dev) : Prop :=
  (∃ tp, e.gov = { d.gov with trips := tp }) ∧ (∀ r, d.gov.tripped r = true → e.gov.tripped r = true) ∧ e.tr = d.tr

theorem Dev.TripsApart.refl (d : Dev) : d.TripsApart d := ⟨⟨d.gov.trips, rfl⟩, fun _ h => h, rfl⟩

theorem Dev.TripsApart.of_core (d : Dev) (c : Core) : d.TripsApart { d with c := c } := .refl d

theorem Dev.TripsApart.trans {f : Dev} (h : d.TripsApart e) (h' : e.TripsApart f) : d.TripsApart f := by
  obtain ⟨⟨tp, hg⟩, ht, hr⟩ := h
  obtain ⟨⟨tp', hg'⟩, ht', hr'⟩ := h'
  exact ⟨⟨tp', by rw [hg', hg]⟩, fun r hd => ht' r (ht r hd), hr'.trans hr⟩

theorem Dev.TripsApart.keeps (h : d.TripsApart e) : Dev.Keeps cold d e := by
  obtain ⟨⟨tp, hg⟩, ht, hr⟩ := h
  exact ⟨fun hi => by rw [hg]; exact hi, fun _ => ht, by rw [hr]; exact d.tr.kept_refl⟩

/-- The hub of a trip that is not recorded takes a value; a recorded trip is another hub's. -/
theorem Dev.tripsApart_kset (d : Dev) (h w : Nat) (hw : bit (kgetD d.gov.trips h 0) 63 = false) :
    d.TripsApart { d with gov := { d.gov with trips := kset d.gov.trips h w } } := by
  refine ⟨⟨_, rfl⟩, fun r hr => ?_, rfl⟩
  have hne : r ≠ h := by
    rintro rfl
    exact Bool.false_ne_true (hw.symm.trans hr)
  unfold Gov.tripped
  rw [kgetD_kset_ne _ _ _ hne]
  exact hr

theorem Dev.writeReg_tripsApart (d : Dev) (u : SUnit) (r : RegDef) (o size v during : Nat) :
    d.TripsApart (d.writeReg u r o size v during) := by
  unfold Dev.writeReg
  split
  case h_1 | h_2 => exact .refl d
  case h_3 | h_4 => exact .of_core ..
  case h_5 =>
    split
    · exact .of_core ..
    split
    · dsimp only
      split
      · exact .refl d
      · exact d.tripsApart_kset _ _ (Bool.eq_false_iff.mpr ‹_›)
    · exact .of_core ..

theorem Dev.writePart_tripsApart (d : Dev) (u : SUnit) (o off size v during : Nat) :
    d.TripsApart (d.writePart u o off size v during) := by
  unfold Dev.writePart
  (repeat' split)
  · exact .of_core ..
  · exact .refl d
  · exact .of_core ..
  · exact d.writeReg_tripsApart ..

theorem Dev.writeAt_tripsApart (d : Dev) (off size v during : Nat) : d.TripsApart (d.writeAt off size v during) := by
  unfold Dev.writeAt
  split
  · split <;> exact .of_core ..
  split
  · exact .of_core ..
  · exact iteInduction (fun _ => d.writePart_tripsApart ..)
      (fun _ => (d.writePart_tripsApart ..).trans (Dev.writePart_tripsApart ..))

theorem Dev.bar0Write_tripsApart (d : Dev) (off size v during : Nat) : d.TripsApart (d.bar0Write off size v during) := by
  unfold Dev.bar0Write
  (repeat' split)
  · exact .refl d
  · exact .of_core ..
  · exact d.writeAt_tripsApart ..
  · exact .of_core ..

/-! Rows of the device. -/

theorem onDev_keeps {s t : State} {f : Dev → Dev} (h : s.onDev f = .next t) (hf : ∀ d, Dev.Keeps cold d (f d)) :
    Dev.Keeps cold s.dev t.dev := by
  cases h
  exact hf s.dev

theorem guardDev_keeps {s t : State} {ok : Bool} {f : Dev → Dev} (h : s.guardDev ok f = .next t)
    (hf : ok = true → ∀ d, Dev.Keeps cold d (f d)) : Dev.Keeps cold s.dev t.dev := by
  unfold State.guardDev at h
  split at h
  case isTrue hok => exact onDev_keeps h (hf hok)
  case isFalse => cases h

/-- A command's packet begins, waits or is refused in the core; its body does the rest. -/
theorem hostCmdDev_keeps {k : Cmd} {p : Packet} {s t : State} {body : Dev → Dev} (h : hostCmdDev k p s body = .next t)
    (hf : ∀ d, Dev.Keeps cold d (body d)) : Dev.Keeps cold s.dev t.dev := by
  unfold hostCmdDev at h
  split at h
  case isTrue =>
    refine onDev_keeps h fun d => ?_
    split
    · exact .of_eq rfl rfl
    · exact .of_eq rfl rfl
    case h_3 c _ =>
      have hb := hf { d with c := c }
      exact ⟨hb.inv, hb.trips, hb.kept⟩
  case isFalse => cases h


/-- A trip is recorded with its valid bit (R392). -/
theorem bit_tripWord (stack : Bool) (unit temp time : Nat) (ht : temp < 256) (hu : unit < 64) :
    bit (tripWord stack unit temp time) 63 = true := by
  have hb : b2n stack ≤ 1 := by cases stack <;> decide
  unfold bit tripWord
  rw [decide_eq_true_eq]
  omega

end

section
variable {s t : State} {cold : Bool}

theorem govEvaluate_keeps (h : execGovEvaluate s = .next t) : Dev.Keeps cold s.dev t.dev := by
  refine onDev_keeps h fun d => ?_
  split
  · exact .of_same (fun hi => Gov.evaluate_inv hi _) (Gov.evaluate_trips ..) d.tr.kept_refl
  · exact .of_eq rfl rfl

theorem powerOverLimit_keeps (h : execPowerOverLimit s = .next t) : Dev.Keeps cold s.dev t.dev := by
  refine onDev_keeps h fun d => ?_
  refine iteInduction (fun _ => .of_eq rfl rfl) (fun _ => .of_same (fun hi => ?_) rfl d.tr.kept_refl)
  have hl := Gov.lower_inv hi 1
  exact hl

theorem opRampDone_keeps (h : execOpRampDone s = .next t) : Dev.Keeps cold s.dev t.dev :=
  onDev_keeps h fun d => .of_same (fun ⟨hop, _, hrest⟩ => ⟨hop, hop, hrest⟩) rfl d.tr.kept_refl

theorem sensorSample_keeps {r : Readings} (h : execSensorSample r s = .next t) : Dev.Keeps cold s.dev t.dev := by
  refine guardDev_keeps h fun _ d => ?_
  split
  · obtain ⟨hk, -⟩ := Dev.toBist_keeps (cold := cold) { d with gov := { d.gov with
      dieT := r.dieT, stackT := r.stackT, current := r.current, sample := r.power,
      sampleSum := d.gov.sampleSum + r.power, samples := d.gov.samples + 1 } }
    exact ⟨hk.inv, hk.trips, hk.kept⟩
  · exact .of_eq rfl rfl

theorem thermalTrip_keeps {stack : Bool} {unit temp : Nat} (h : execThermalTrip stack unit temp s = .next t) :
    Dev.Keeps cold s.dev t.dev := by
  refine guardDev_keeps h fun hok d => ?_
  simp only [Bool.and_eq_true, decide_eq_true_eq] at hok
  split
  · exact .of_eq rfl rfl
  refine ⟨id, fun _ r hr => ?_, d.tr.kept_refl⟩
  by_cases hr' : r = tripRegion stack unit
  · subst hr'
    simp only [Gov.tripped, kgetD_kset_self]
    exact bit_tripWord _ _ _ _ hok.2 (by split at hok <;> omega)
  · simp only [Gov.tripped, kgetD_kset_ne _ _ _ hr']
    exact hr

theorem govBudget_keeps {p : Packet} (h : execGovBudget p s = .next t) : Dev.Keeps cold s.dev t.dev := by
  refine hostCmdDev_keeps h fun d => ?_
  split
  · exact .of_eq rfl rfl
  case isFalse hin =>
    refine .of_same (fun ⟨hop, hforce, hhold, hcls, hlim, hmax, hcap, hcap', hsh, hsh', hfix, _, hrest⟩ => ?_) rfl d.tr.kept_refl
    refine ⟨hop, hforce, hhold, hcls, hlim, hmax, hcap, hcap', hsh, hsh', hfix, fun b hb => ?_, hrest⟩
    cases hb
    dsimp only
    omega

theorem govLimits_keeps {p : Packet} (h : execGovLimits p s = .next t) : Dev.Keeps cold s.dev t.dev := by
  refine hostCmdDev_keeps h fun d => ?_
  split
  · exact .of_eq rfl rfl
  case isFalse hin =>
    refine .of_same (fun ⟨hop, hforce, hhold, hcls, hlim, hmax, hcap, hcap', hsh, hsh', hfix, hb, _, hf⟩ => ?_) rfl d.tr.kept_refl
    refine ⟨hop, hforce, hhold, hcls, hlim, hmax, hcap, hcap', hsh, hsh', hfix, hb, fun l hl => ?_, hf⟩
    cases hl
    omega

theorem govFix_keeps {p : Packet} (h : execGovFix p s = .next t) : Dev.Keeps cold s.dev t.dev := by
  refine hostCmdDev_keeps h fun d => ?_
  split
  · exact .of_eq rfl rfl
  split
  · exact .of_eq rfl rfl
  case isFalse.isFalse hin _ =>
    refine .of_same (fun ⟨hop, hforce, hhold, hcls, hlim, hmax, hcap, hcap', hsh, hsh', hfix, hb, hl, _⟩ => ?_) rfl d.tr.kept_refl
    refine ⟨hop, hforce, hhold, hcls, hlim, hmax, hcap, hcap', hsh, hsh', hfix, hb, hl, fun f hf k hk => ?_⟩
    cases hf
    split at hk
    · cases hk
    · cases hk
      omega


/-! The security engine's rows. -/

/-- An owner's counter rises with a command that passes (R445). -/
theorem ownerCmd_keeps {a : Nat} {p : Packet} {e : Trust → Trust} (h : ownerCmd a p s e = .next t)
    (he : ∀ q : Trust, (e q).svnFloor = q.svnFloor ∧ (e q).revoked = q.revoked ∧ (e q).ownerCtr = q.ownerCtr) :
    Dev.Keeps cold s.dev t.dev := by
  unfold ownerCmd at h
  split at h
  · cases h
  refine hostCmdDev_keeps h fun d => ?_
  dsimp only
  refine iteInduction (fun _ => .of_eq rfl rfl) fun _ => iteInduction (fun _ => .of_eq rfl rfl) fun _ => ?_
  split
  · exact .of_eq rfl rfl
  refine iteInduction (fun _ => .of_eq rfl rfl) fun hlt => .of_same id rfl ?_
  obtain ⟨hs, hr, hc⟩ := he { d.tr with ownerCtr := p.arg 1 }
  refine ⟨Nat.le_of_eq hs.symm, hr, fun _ => ?_⟩
  rw [hc]
  exact Nat.le_of_lt (Nat.lt_of_not_le (not_or.mp hlt).1)

theorem ownerClaim_keeps {p : Packet} (h : execOwnerClaim p s = .next t) : Dev.Keeps cold s.dev t.dev := by
  refine hostCmdDev_keeps h fun d => ?_
  refine iteInduction (fun _ => .of_eq rfl rfl) fun _ => iteInduction (fun _ => .of_eq rfl rfl) fun hn => ?_
  exact .of_same id rfl ⟨Nat.le_refl _, rfl, fun ho => absurd ho hn⟩

theorem stageFwVerifyDone_keeps (h : execStageFwVerifyDone s = .next t) : Dev.Keeps cold s.dev t.dev := by
  refine onDev_keeps h fun d => ?_
  refine iteInduction (fun _ => iteInduction (fun _ => .of_same id rfl d.tr.kept_refl) fun _ => ?_) (fun _ => .of_eq rfl rfl)
  extract_lets _ t d1
  refine Dev.Keeps.of_trust (t := t) ?_ rfl rfl rfl rfl
  have hboot : ∀ i b, Dev.Keeps cold { d with tr := t } (d1.boot i b) := fun i b => d1.boot_keeps i b
  have hstay : Dev.Keeps cold { d with tr := t } d1.unbooted := .of_eq rfl rfl
  split
  · refine iteInduction (fun _ => ?_) fun _ => iteInduction (fun _ => hboot ..) fun _ => hstay
    split
    · exact hboot ..
    · exact hstay
  · exact iteInduction (fun _ => hboot ..) fun _ => hstay
  · exact hstay

/-- The first start of an image may raise the SVN floor (R450). -/
theorem stageLocalMappingDone_keeps (h : execStageLocalMappingDone s = .next t) : Dev.Keeps cold s.dev t.dev := by
  refine onDev_keeps h fun d => ?_
  refine iteInduction (fun _ => iteInduction (fun _ => .of_eq rfl rfl) fun _ => .of_same id rfl ⟨?_, rfl, fun _ => Nat.le_refl _⟩)
    (fun _ => .of_eq rfl rfl)
  unfold Dev.becomeReady
  dsimp only
  split
  · exact Nat.le_max_left ..
  · exact Nat.le_refl _

theorem ideKm_keeps {stream : Nat} {key : List Byte} {covers secure : Bool} (h : execIdeKm stream key covers secure s = .next t) :
    Dev.Keeps cold s.dev t.dev := by
  refine onDev_keeps h fun d => ?_
  refine iteInduction (fun _ => .of_eq rfl rfl) fun _ => ?_
  extract_lets was d1
  have h1 : d1.gov = d.gov ∧ ∃ ide, d1.tr = { d.tr with ide := ide } :=
    iteInduction (motive := fun e : Dev => e.gov = d.gov ∧ ∃ ide, e.tr = { d.tr with ide := ide })
      (fun _ => d.insecure_apart stream) (fun _ => ⟨rfl, _, rfl⟩)
  obtain ⟨hg, ide, ht⟩ := h1
  have hk : d.tr.kept d1.tr := by rw [ht]; exact d.tr.kept_refl
  exact .of_same (fun hi => by rw [hg]; exact hi) (by rw [hg]) hk

end

/-- Every row keeps them. -/
theorem exec_keeps {i : Instr} {s t : State} (h : exec i s = .next t) : Dev.Keeps (coldReset i) s.dev t.dev := by
  cases hb : beyondCore i
  case false =>
    have ht := exec_setC hb h
    exact .of_eq (congrArg (·.dev.gov) ht) (congrArg (·.dev.tr) ht)
  case true =>
    cases i <;> try cases hb
    all_goals dsimp only [exec] at h
    case auxRailLoss => exact onDev_keeps h Dev.cold_keeps
    case pcieConventionalReset | hotReset | functionLevelReset | devResetExec =>
      exact onDev_keeps h fun d => iteInduction (fun _ => d.warm_keeps ..) (fun _ => .of_eq rfl rfl)
    case mainInputRecover =>
      refine onDev_keeps h fun d => iteInduction (fun _ => ?_) (fun _ => .of_eq rfl rfl)
      have hw := Dev.warm_keeps (cold := false) d 0 false
      exact ⟨hw.inv, hw.trips, hw.kept⟩
    case perstDeassert =>
      refine onDev_keeps h fun d => ?_
      have hs := Dev.stageOne_keeps (cold := false) { d with pw := { d.pw with perstHigh := true } }
      exact ⟨hs.inv, hs.trips, hs.kept⟩
    case corePowerGood =>
      refine onDev_keeps h fun d => iteInduction (fun _ => ?_) (fun _ => .of_eq rfl rfl)
      have hs := Dev.stageOne_keeps (cold := false) { d with pw := { d.pw with coreGood := true } }
      exact ⟨hs.inv, hs.trips, hs.kept⟩
    case auxRailUp | mainInputAccept | fwStagedCopyDone | stageBootRomDone =>
      exact onDev_keeps h fun d => iteInduction (fun _ => .of_same id rfl d.tr.kept_refl) (fun _ => .of_same id rfl d.tr.kept_refl)
    case mainInputUvlo => exact onDev_keeps h fun _ => .of_eq rfl rfl
    case stageBistDone | stageHbmTrainingDone | stageLinkTrainingDone =>
      exact guardDev_keeps h fun _ _ => iteInduction (fun _ => .of_eq rfl rfl) (fun _ => .of_eq rfl rfl)
    case ideStreamInsecure stream =>
      refine onDev_keeps h fun d => ?_
      obtain ⟨hg, ide, ht⟩ := d.insecure_apart stream
      exact .of_same (by rw [hg]; exact id) (by rw [hg]) (by rw [ht]; exact d.tr.kept_refl)
    case injArm | errFlagsClear | errFirstClear | errActionClear | bar0FaultClear | registerWrite =>
      exact onDev_keeps h fun d => (d.bar0Write_tripsApart ..).keeps
    case bar0ReservedAccess =>
      exact onDev_keeps h fun d => iteInduction (fun _ => (d.bar0Write_tripsApart ..).keeps) (fun _ => .of_eq rfl rfl)
    case fwBegin | fwBlock | fwCommit | fwAbort | peerKeys =>
      refine hostCmdDev_keeps h fun d => ?_
      dsimp only
      (repeat' split) <;> exact .of_same id rfl d.tr.kept_refl
    case ownerCmdLock | ownerCmdUnlock | ownerCmdRemove | ownerCmdReplace => exact ownerCmd_keeps h fun _ => ⟨rfl, rfl, rfl⟩
    case ownerClaim => exact ownerClaim_keeps h
    case ideKm => exact ideKm_keeps h
    case stageFwVerifyDone => exact stageFwVerifyDone_keeps h
    case stageLocalMappingDone => exact stageLocalMappingDone_keeps h
    case govEvaluate => exact govEvaluate_keeps h
    case sensorSample => exact sensorSample_keeps h
    case powerOverLimit => exact powerOverLimit_keeps h
    case opRampDone => exact opRampDone_keeps h
    case thermalTrip => exact thermalTrip_keeps h
    case govBudget => exact govBudget_keeps h
    case govLimits => exact govLimits_keeps h
    case govFix => exact govFix_keeps h

/-- Settles O6: a tick leaves the governor, and every row keeps its ranges. -/
theorem governorInvariantStep : Obligations.GovernorInvariantStep := by
  intro s t hs h
  unfold step at h
  split at h
  · cases h
    have ht : (idle s).dev.gov = s.dev.gov := by
      unfold idle Dev.tick
      dsimp only
      split <;> rfl
    rw [State.inv, ht]
    exact hs
  · exact (exec_keeps h).inv hs

/-- Settles O8. -/
theorem tripLatched : Obligations.TripLatched := fun _ _ _ r hr hc h => (exec_keeps h).trips hc r hr

/-- Settles O9. -/
theorem securityKept : Obligations.SecurityKept := fun _ _ _ h => (exec_keeps h).kept

end Sys2Proof.Machine
end

section
/-!
SUPPORT. What a row answers, from what its meaning does at the state it runs in: one lemma for each way of running a meaning.
-/
namespace Sys2Proof.Machine
open Sys2Proof

section
variable {s : State} {ok : Bool} {k : Cmd} {p : Packet} {c c' : Core} {d : Dev}

theorem State.onDev_next {f : Dev → Dev} (h : f s.dev = d) : s.onDev f = .next (s.setD d) := by
  rw [s.onDev_eq, h]
  rfl

theorem State.onCore_next {f : Dev → Core} (h : f s.dev = c) : s.onCore f = .next (s.setC c) := by
  rw [s.onCore_eq, h]
  rfl

theorem State.onCore_same {f : Dev → Core} (h : f s.dev = s.dev.c) : s.onCore f = .next s := State.onCore_next h

theorem State.guard_runs {f : Dev → Core} (hok : ok = true) (h : f s.dev = c) : s.guard ok f = .next (s.setC c) :=
  (s.guard_true f hok).trans (State.onCore_next h)

theorem State.guard_same {f : Dev → Core} (hok : ok = true) (h : f s.dev = s.dev.c) : s.guard ok f = .next s :=
  State.guard_runs hok h

theorem State.guardDev_runs {f : Dev → Dev} (hok : ok = true) (h : f s.dev = d) : s.guardDev ok f = .next (s.setD d) :=
  (s.guardDev_true f hok).trans (State.onDev_next h)

/-- A command that begins has its body's effect. -/
theorem hostCmd_runs {body : Dev → Core} (hb : s.dev.begins k p c) (h : body (s.dev.setC c) = c') :
    hostCmd k p s body = .next (s.setC c') := by
  rw [hostCmd_begins body hb, h]

theorem hostCmdDev_runs {body : Dev → Dev} (hb : s.dev.begins k p c) (h : body (s.dev.setC c) = d) :
    hostCmdDev k p s body = .next (s.setD d) := by
  rw [hostCmdDev_begins body hb, h]

end

end Sys2Proof.Machine
end

section
/-!
SUPPORT. Reset, the rails and pins, warm resets, the start-up stages and a tick. Obligations O2, O11, O12, O13 and O14.
-/
namespace Sys2Proof.Machine
open Sys2Proof

/-- Settles O11. -/
theorem resetState : Obligations.ResetState := by
  refine ⟨rfl, rfl, rfl, rfl, rfl, rfl, rfl, rfl, rfl, rfl, rfl, fun a => rfl, rfl, rfl, rfl, fun u => ?_, rfl⟩
  simp [Core.isFenced, State.reset, Dev.reset, Core.reset]

/-! ### Time (R258, R482) -/

section
variable {d : Dev}

theorem Dev.tick_up (h : d.pw.auxUp = true) (r : Nat) (hr : r < 4) :
    d.tick.c.now r = if d.c.now r = 0 ∧ d.c.now 0 < lagOf r then 0 else (d.c.now r + 1) % 2 ^ 64 := by
  unfold Dev.tick
  rw [if_pos h]
  match r, hr with
  | 0, _ | 1, _ | 2, _ | 3, _ => rfl

/-- A tick changes the timers and the charge. -/
theorem Dev.tick_eq (d : Dev) : ∃ ts n, d.tick = { d with c := { d.c with timers := ts }, pw := { d.pw with holdup := n } } := by
  unfold Dev.tick
  split
  · exact ⟨_, _, rfl⟩
  · exact ⟨d.c.timers, d.pw.holdup, rfl⟩

theorem Dev.tick_holdup (h : d.pw.auxUp = true) (ht : 2000000000 ≤ d.tick.c.now 0) : 80 ≤ d.tick.pw.holdup := by
  unfold Dev.tick at ht ⊢
  rw [if_pos h] at ht ⊢
  dsimp only at ht ⊢
  rw [if_pos ht]
  exact Nat.le_max_right ..

end

/-- Settles O2. -/
theorem idleTick : Obligations.IdleTick := by
  intro s hs
  obtain ⟨ts, n, he⟩ := s.dev.tick_eq
  refine ⟨?_, fun r hr hup hrun => ?_, fun r hr hup h0 hlag => ?_, fun ht hup => Dev.tick_holdup hup ht, ?_, ?_, ?_, ?_⟩
  · simp only [step, hs]
    rfl
  · rw [Dev.tick_up hup r hr, if_neg]
    omega
  · rw [Dev.tick_up hup r hr, if_pos ⟨h0, hlag⟩]
  all_goals rw [he]

/-! ### Rails and pins (R481 to R483) -/

section
variable {s : State} {d : Dev}

theorem Dev.stageOne_begins (hg : d.pw.coreGood = true) (hp : d.pw.perstHigh = true) (hst : d.c.devState = .starting)
    (h0 : d.c.stage = 0) : d.stageOne = { d with c := { d.c with stage := 1 } } := by
  simp [Dev.stageOne, Dev.portUp, hg, hp, hst, h0]

theorem Dev.stageOne_waits (h : d.portUp = false) : d.stageOne = d := by
  simp [Dev.stageOne, h]

theorem execAuxRailUp_next (h : s.dev.pw.auxUp = false) : execAuxRailUp s = .next (s.setD { s.dev with
    pw := { s.dev.pw with auxUp := true, holdup := Config.holdup s.dev.c.freeCtr % 101 }, c := s.dev.c.drawn }) :=
  State.onDev_next (if_neg (Bool.eq_false_iff.mp h))

theorem execMainInputAccept_next (h : s.dev.pw.auxUp = true) :
    execMainInputAccept s = .next (s.setD { s.dev with pw := { s.dev.pw with mainOk := true, coreOn := true } }) :=
  State.onDev_next (if_pos h)

theorem execCorePowerGood_next (h : s.dev.pw.coreOn = true) :
    execCorePowerGood s = .next (s.setD ({ s.dev with pw := { s.dev.pw with coreGood := true } } : Dev).stageOne) :=
  State.onDev_next (if_pos h)

theorem execPerstDeassert_next :
    execPerstDeassert s = .next (s.setD ({ s.dev with pw := { s.dev.pw with perstHigh := true } } : Dev).stageOne) := rfl

theorem execMainInputRecover_next (h : s.dev.pw.auxUp = true) (hm : s.dev.pw.mainOk = false) :
    execMainInputRecover s = .next (s.setD
      { s.dev.warm 0 false with pw := { s.dev.pw with mainOk := true, coreOn := true } }) :=
  State.onDev_next (if_pos (by rw [h, hm]; rfl))

end

/-- Settles O12. -/
theorem railsAndPins : Obligations.RailsAndPins := by
  intro s
  refine ⟨execAuxRailUp_next, ⟨rfl, rfl, rfl, rfl, rfl, rfl, rfl, rfl, rfl, rfl, rfl⟩, execMainInputAccept_next,
    fun hon hp hst h0 => ?_, fun hon hp => ?_, fun hg hst h0 => ?_, fun hg => ?_, rfl, execMainInputRecover_next⟩
  · exact (execCorePowerGood_next hon).trans (congrArg _ (congrArg _ (Dev.stageOne_begins rfl hp hst h0)))
  · exact (execCorePowerGood_next hon).trans (congrArg _ (congrArg _ (Dev.stageOne_waits (by simp [Dev.portUp, hp]))))
  · exact execPerstDeassert_next.trans (congrArg _ (congrArg _ (Dev.stageOne_begins hg rfl hst h0)))
  · exact execPerstDeassert_next.trans (congrArg _ (congrArg _ (Dev.stageOne_waits (by simp [Dev.portUp, hg]))))

/-! ### Warm resets (R7, R398) -/

/-- What stays of a table filtered by its keys. -/
theorem kget_filter_key {κ α : Type} [DecidableEq κ] (m : KMap κ α) (q : κ → Bool) (k : κ) :
    kget (m.filter (fun e => q e.1)) k = if q k then kget m k else none := by
  induction m with
  | nil => simp [kget]
  | cons e r ih =>
    obtain ⟨j, v⟩ := e
    by_cases hj : j = k
    · subst hj
      cases hq : q j <;> simp_all [kget]
    · cases hq : q j <;> simp_all [kget]

section
variable (d : Dev) (stage : Nat) (keepCfg : Bool) {a : Nat}

theorem Dev.warm_rget_rws (h : isRws a = true) : (d.warm stage keepCfg).c.rget a = d.c.rget a := by
  simp [Core.rget, kgetD, Dev.warm, Core.warm, kget_filter_key, h]

theorem Dev.warm_rget_other (h : isRws a = false) : (d.warm stage keepCfg).c.rget a = 0 := by
  simp [Core.rget, kgetD, Dev.warm, Core.warm, kget_filter_key, h]

end

/-- Settles O13: each row is the warm reset once its condition holds, and what it keeps can be read off its definition but for the
registers, which are filtered by address. -/
theorem warmResets : Obligations.WarmResets := by
  intro s
  refine ⟨fun h => State.onDev_next (f := fun d => if d.pw.coreGood then d.warm 1 false else d) (if_pos h),
    fun h => State.onDev_next (f := fun d => if d.portUp then d.warm 1 false else d) (if_pos h),
    fun h => State.onDev_next (f := fun d => if d.portUp then d.warm 1 true else d) (if_pos h),
    fun h => State.onDev_next (f := fun d => if d.c.resetReq then d.warm 1 true else d) (if_pos h), fun k => ?_⟩
  exact ⟨rfl, rfl, rfl, rfl, rfl, rfl, rfl, rfl, rfl, rfl, rfl, rfl, rfl, rfl, rfl, rfl, rfl,
    fun _ => s.dev.warm_rget_rws 1 k, fun _ => s.dev.warm_rget_other 1 k⟩

/-! ### The start-up stages (R450, R451, R474, R475) -/

section
variable {s : State} {d : Dev}

theorem execStageBootRomDone_next (h : s.dev.atStage 1 = true) : execStageBootRomDone s =
    .next (s.setD { s.dev with tr := { s.dev.tr with romMeas := Config.romDigest }, c := { s.dev.c with stage := 2 } }) :=
  State.onDev_next (if_pos h)

/-- Stage 2 boots the active image of the first two starts (R450). -/
theorem execStageFwVerifyDone_boots {i : Image} (h : s.dev.atStage 2 = true) (hr : s.dev.tr.runImage = none)
    (hu : s.dev.tr.upd = .idle) (hf : s.dev.tr.fails < 2) (ha : s.dev.tr.active = some i) (hv : s.dev.tr.verifies i = true) :
    execStageFwVerifyDone s = .next (s.setD
      (({ s.dev with tr := { s.dev.tr with fails := s.dev.tr.fails + 1, copying := false } } : Dev).boot i false)) := by
  refine State.onDev_next ((if_pos (by simp [h, hr])).trans ((if_neg (by simp [hu])).trans ?_))
  extract_lets _ t d1
  have ht : t = { s.dev.tr with fails := s.dev.tr.fails + 1, copying := false } := by
    have hmin : min 3 (s.dev.tr.fails + 1) = s.dev.tr.fails + 1 := by omega
    simp only [t, hu, hmin]
    rfl
  have hta : t.active = some i := ha
  have htv : t.verifies i = true := hv
  have htf : t.fails ≠ 3 := by
    rw [ht]
    show s.dev.tr.fails + 1 ≠ 3
    omega
  simp only [hta, htf, htv, false_and, if_false, if_true]
  show ({ s.dev with tr := t } : Dev).boot i false = _
  rw [ht]

theorem execStageFwVerifyDone_copies (h : s.dev.atStage 2 = true) (hr : s.dev.tr.runImage = none) (hu : s.dev.tr.upd = .staged)
    (hv : s.dev.tr.verifies s.dev.tr.stage = true) :
    execStageFwVerifyDone s = .next (s.setD { s.dev with tr := { s.dev.tr with copying := true } }) :=
  State.onDev_next ((if_pos (by simp [h, hr])).trans (if_pos ⟨hu, hv⟩))

theorem execFwStagedCopyDone_next (h : s.dev.atStage 2 = true) (hr : s.dev.tr.runImage = none) (hu : s.dev.tr.upd = .staged)
    (hv : s.dev.tr.verifies s.dev.tr.stage = true) :
    execFwStagedCopyDone s = .next (s.setD { s.dev with tr := { s.dev.tr with
      slotA := (if s.dev.tr.activeB then some s.dev.tr.stage else s.dev.tr.slotA),
      slotB := (if s.dev.tr.activeB then s.dev.tr.slotB else some s.dev.tr.stage),
      activeB := !s.dev.tr.activeB, upd := .idle, copying := false, fails := 0 } }) :=
  State.onDev_next (if_pos (by simp [h, hr, hu, hv]))

/-- With neither slot verifying, no image boots and the device takes only what R451 lists. -/
theorem execStageFwVerifyDone_unbooted (h : s.dev.atStage 2 = true) (hr : s.dev.tr.runImage = none) (hu : s.dev.tr.upd = .idle)
    (hA : s.dev.tr.slotOk s.dev.tr.slotA = false) (hB : s.dev.tr.slotOk s.dev.tr.slotB = false) :
    ∃ t, execStageFwVerifyDone s = .next (s.setD { s.dev with tr := t, c := { s.dev.c with noImage := true } }) ∧ t.runImage = none := by
  refine ⟨{ s.dev.tr with fails := min 3 (s.dev.tr.fails + 1), copying := false }, ?_, hr⟩
  refine State.onDev_next ((if_pos (by simp [h, hr])).trans ((if_neg (by simp [hu])).trans ?_))
  extract_lets _ t d1
  have ht : t = { s.dev.tr with fails := min 3 (s.dev.tr.fails + 1), copying := false } := by
    simp only [t, hu]
    rfl
  have hact : t.slotOk t.active = false := by
    show s.dev.tr.slotOk s.dev.tr.active = false
    unfold Trust.active
    split <;> assumption
  have hspare : t.slotOk t.spare = false := by
    show s.dev.tr.slotOk s.dev.tr.spare = false
    unfold Trust.spare
    split <;> assumption
  have hun : d1.unbooted = { s.dev with tr := t, c := { s.dev.c with noImage := true } } := by
    show ({ s.dev with tr := t, c := { s.dev.c with
      noImage := !(s.dev.tr.slotOk s.dev.tr.slotA) && !(s.dev.tr.slotOk s.dev.tr.slotB) } } : Dev) = _
    rw [hA, hB]
    rfl
  rw [← ht, ← hun]
  generalize t.active = a at hact
  generalize t.spare = b at hspare
  cases a with
  | some i =>
    have hi : t.verifies i = false := hact
    simp [hspare, hi]
  | none =>
    cases b with
    | some i =>
      have hi : t.verifies i = false := hspare
      simp [hi]
    | none => rfl

theorem execStageBistDone_next {failed : List SUnit} (h : s.dev.atStage 3 = true) (hf : ∀ u, u ∈ failed → u.valid = true) :
    let bad := (bistUnits 3 0 false).filter (fun u => failed.contains u)
    let c1 := s.dev.c.bistOutcome (bistUnits 3 0 false) bad false
    execStageBistDone failed s = .next (s.setC { c1 with
      stage := 4, stageFail := c1.stageFail ++ bad, sram := [], sramEpoch := c1.sramEpoch + 1 }) :=
  State.guardDev_runs (List.all_eq_true.mpr hf) (if_pos h)

theorem execStageHbmTrainingDone_next {failed : List Nat} (h : s.dev.atStage 4 = true) (hf : ∀ m, m ∈ failed → m < 24) :
    execStageHbmTrainingDone failed s = .next (s.setC { s.dev.c with
      stage := 5, stageFail := s.dev.c.stageFail ++ failed.map SUnit.stack, hbm := [], words := [], scrub := [],
      links := (List.range 36).map (fun l => (l, { s.dev.c.link l with
        st := if (s.dev.c.link l).enabled then .training else .disabled })) }) :=
  State.guardDev_runs (List.all_eq_true.mpr fun m hm => decide_eq_true (hf m hm)) (if_pos h)

theorem execStageLinkTrainingDone_next {failed : List Nat} (h : s.dev.atStage 5 = true) (hf : ∀ l, l ∈ failed → l < 36)
    (hd : s.dev.pw.linkRef = false ∨ (∀ e, e ∈ s.dev.c.links → e.2.st ≠ .training ∨ e.1 ∈ failed)) :
    execStageLinkTrainingDone failed s = .next (s.setC { s.dev.c with
      stage := 6,
      links := s.dev.c.links.map (fun e => (e.1,
        if e.2.st = .training ∨ (s.dev.pw.linkRef = false ∧ e.2.enabled = true) then { e.2 with st := .down } else e.2)) }) := by
  refine State.guardDev_runs (List.all_eq_true.mpr fun l hl => decide_eq_true (hf l hl)) ?_
  rw [if_pos]
  · simp only [Bool.not_eq_true]
  · simpa [h] using hd

theorem execStageLocalMappingDone_stops (h : s.dev.atStage 6 = true) (hs : s.dev.c.localMap.devState = .stopped) :
    execStageLocalMappingDone s = .next (s.setC s.dev.c.localMap) :=
  State.onDev_next ((if_pos h).trans (if_pos hs))

theorem execStageLocalMappingDone_ready (h : s.dev.atStage 6 = true) (hs : s.dev.c.localMap.devState ≠ .stopped) :
    execStageLocalMappingDone s = .next (s.setD (s.dev.setC s.dev.c.localMap).becomeReady) :=
  State.onDev_next ((if_pos h).trans (if_neg hs))

end

section
variable {d : Dev} {i : Image}

theorem Dev.boot_runs (d : Dev) (i : Image) : (d.boot i false).tr.runImage = some i := by
  unfold Dev.boot
  rw [(Dev.toBist_keeps (cold := false) _).2]

theorem Dev.boot_begins (hst : d.c.devState = .starting) (h2 : d.c.stage = 2) (hw : d.c.tripWait = false ∨ d.gov.cool = true) :
    (d.boot i false).gov.op = 3 ∧ (d.boot i false).gov.active = true ∧ (d.boot i false).c.stage = 3 := by
  unfold Dev.boot Dev.toBist
  rw [if_pos ⟨hst, h2, rfl, hw⟩]
  exact ⟨rfl, rfl, rfl⟩

theorem Dev.boot_waits (h2 : d.c.stage = 2) (hw : d.c.tripWait = true) (hc : d.gov.cool = false) : (d.boot i false).c.stage = 2 := by
  unfold Dev.boot Dev.toBist
  rw [if_neg]
  · exact h2
  · simp [hw, hc]

/-- What R451 leaves a device whose image never boots. -/
theorem Core.accepts_unbooted {c : Core} (hst : c.devState = .starting) (hn : c.noImage = true) :
    c.accepts 0x101 = true ∧ c.accepts 0x102 = true ∧ c.accepts 0x103 = false ∧ c.accepts 0x104 = true := by
  simp [Core.accepts, hst, hn]

/-- Gating touches the cells only (R388). -/
theorem Core.gate_devState (c : Core) : c.gate.devState = c.devState := by
  unfold Core.gate
  extract_lets used off
  split <;> rfl

end

theorem Dev.atStage_iff {d : Dev} {n : Nat} : d.atStage n = true ↔ d.c.devState = .starting ∧ d.c.stage = n ∧ d.portUp = true := by
  simp [Dev.atStage, and_assoc]

/-- Settles O14. -/
theorem startUpStages : Obligations.StartUpStages := by
  intro s
  refine ⟨execStageBootRomDone_next, fun i h hr hu hf ha hv => ⟨execStageFwVerifyDone_boots h hr hu hf ha hv, ?_⟩,
    fun h hr hu hv => ⟨execStageFwVerifyDone_copies h hr hu hv, execFwStagedCopyDone_next h hr hu hv⟩, fun failed h hf => ?_,
    fun failed => execStageHbmTrainingDone_next, fun failed => execStageLinkTrainingDone_next, execStageLocalMappingDone_stops,
    fun h hs => ⟨execStageLocalMappingDone_ready h hs, ?_, rfl⟩, fun h hr hu hA hB => ?_⟩
  · exact fun d hst h2 => ⟨d.boot_runs i, Dev.boot_begins hst h2, Dev.boot_waits h2⟩
  · refine ⟨_, execStageBistDone_next h hf, rfl, rfl, rfl, fun u hu hb => ?_⟩
    exact List.mem_append_right _ (List.mem_filter.mpr ⟨hb, by simpa using hu⟩)
  · exact Core.gate_devState { s.dev.c.localMap with devState := .ready, stage := 7 }
  · obtain ⟨hst, h2, -⟩ := Dev.atStage_iff.mp h
    obtain ⟨t, he, ht⟩ := execStageFwVerifyDone_unbooted h hr hu hA hB
    exact ⟨_, he, ht, rfl, hst, h2, Core.accepts_unbooted hst rfl⟩

end Sys2Proof.Machine
end

section
/-!
SUPPORT. Packets taken, chains, checks and replies, and the device and context commands. Obligations O16 to O21.
-/
namespace Sys2Proof.Machine
open Sys2Proof

/-! ### The aperture (R402 to R408) -/

section
variable {c : Core} {p : Packet}

/-- The device takes a packet unless it is stopped. -/
theorem Core.takePkt_known (hs : c.devState ≠ .stopped) (hi : c.inflight < 1024) (hk : opcodeKnown p.opcode.toNat = true) :
    c.takePkt p = { c.arrive p with taken := (c.arrive p).taken ++ [p] } := by
  unfold Core.takePkt
  rw [if_neg (fun h => hs h.1), if_neg (Nat.not_le.mpr hi), if_pos hk]

theorem Core.takePkt_unknown (hs : c.devState ≠ .stopped) (hi : c.inflight < 1024) (hk : opcodeKnown p.opcode.toNat = false) :
    c.takePkt p = (c.arrive p).finish p 1 [] := by
  unfold Core.takePkt
  rw [if_neg (fun h => hs h.1), if_neg (Nat.not_le.mpr hi), if_neg (Bool.eq_false_iff.mp hk)]

theorem Core.takePkt_full (hs : c.devState ≠ .stopped) (hi : 1024 ≤ c.inflight) : c.takePkt p = (c.arrive p).finish p 5 [] := by
  unfold Core.takePkt
  rw [if_neg (fun h => hs h.1), if_pos hi]

end

section
variable {s : State} {off : Nat} {data : List Byte}

/-- At a working port a write into a free slot is the slot's. -/
theorem execApertureWrite_free (hw : (Instr.apertureWrite off data).wf = true) (hp : s.dev.portUp = true)
    (hb : kget s.dev.c.busy (off / 0x2000) = none) : execApertureWrite off data s = .next (s.setC (s.dev.c.slotWrite off data)) :=
  State.guard_runs hw (by simp [hp, hb])

end

/-- Settles O16: the branches of a write into a free slot, and of taking the packet. -/
theorem sealedPacketIsTaken : Obligations.SealedPacketIsTaken := by
  intro s off data hw hp hb c1 a plen word b covers
  have hrun : ∀ {c}, s.dev.c.slotWrite off data = c → exec (.apertureWrite off data) s = .next (s.setC c) := fun h => by
    rw [← h]
    exact execApertureWrite_free hw hp hb
  refine ⟨fun hc => hrun (if_neg hc), fun hc hm => hrun ((if_pos hc).trans (if_neg hm)),
    fun hc hm hs => hrun ((if_pos hc).trans ((if_pos hm).trans (if_neg (Bool.eq_false_iff.mp hs)))), ?_,
    fun slot hslot => State.guard_runs (decide_eq_true hslot) rfl⟩
  intro hc hm hs hst p c2
  have htake : s.dev.c.slotWrite off data = ({ c1 with busy := kset c1.busy (off / 0x2000) p } : Core).takePkt p :=
    (if_pos hc).trans ((if_pos hm).trans ((if_pos hs).trans (if_neg fun h => hst h.1)))
  exact ⟨fun hi hk => hrun (htake.trans (Core.takePkt_known hst hi hk)),
    fun hi hk => hrun (htake.trans (Core.takePkt_unknown hst hi hk)), fun hi => hrun (htake.trans (Core.takePkt_full hst hi))⟩

/-! ### Chains (R408, R413) -/

/-- Settles O17: the fetch in progress and the held reply choose the branch. -/
theorem chainFetch : Obligations.ChainFetch := by
  intro s n x b hx he
  refine ⟨fun r hb hh => ?_, fun hb hh => ?_, fun o r ho hh => ?_, fun o ho hh => ?_⟩
  all_goals dsimp only [exec]
  · exact State.onCore_next (by simp [hx, he, hb, hh])
  · exact State.onCore_next (by simp [hx, he, hb, hh])
  · rcases ho with rfl | ⟨rfl, hb⟩
    · exact State.onCore_next (by simp [hx, he, hh])
    · exact State.onCore_next (by simp [hx, he, hb, hh])
  · rcases ho with rfl | ⟨rfl, hb⟩
    · exact State.onCore_next (by simp [hx, he, hh])
    · exact State.onCore_next (by simp [hx, he, hb, hh])

/-! ### Refused headers (R414) -/

section
variable {c : Core} {k : Cmd} {p : Packet} {st : Nat}

theorem Core.check_header (h : headerOk p = false) (hc : c.check k p = some st) : st = 2 := by
  simpa [Core.check, h, eq_comm] using hc

theorem Core.check_length (h : headerOk p = true) (hl : k.lenOk p = false) (hc : c.check k p = some st) : st = 3 := by
  simpa [Core.check, h, hl, eq_comm] using hc

/-- Past header, length and context, the device state is checked before the widths. -/
theorem Core.check_late (h : headerOk p = true) (hl : k.lenOk p = true) (hx : p.ctxv = k.ctxv) (hz : k.ctxv = false → p.ctx = 0)
    (h4 : st ≠ 4) (hc : c.check k p = some st) :
    (c.accepts k.op = false → st = 6) ∧ (c.accepts k.op = true → st = 8 ∧ k.widthsOk p = false) := by
  have hctx : ¬ (p.ctxv ≠ k.ctxv ∨ ((!k.ctxv) = true ∧ p.ctx ≠ 0)) := by simpa [hx] using hz
  unfold Core.check at hc
  rw [h, hl, if_neg (by simp), if_neg (by simp), if_neg hctx] at hc
  split at hc
  · exact absurd (Option.some.inj hc).symm h4
  split at hc
  case isTrue ha =>
    have ha' : c.accepts k.op = false := by simpa using ha
    exact ⟨fun _ => (Option.some.inj hc).symm, fun h => absurd (ha'.symm.trans h) nofun⟩
  case isFalse ha =>
    have ha' : c.accepts k.op = true := by simpa using ha
    split at hc
    case isTrue hw => exact ⟨fun h => absurd (ha'.symm.trans h) nofun, fun _ => ⟨(Option.some.inj hc).symm, by simpa using hw⟩⟩
    case isFalse => cases hc

/-- A command that fails a check has only its reply's effects. -/
theorem hostCmd_refused {s : State} {body : Dev → Core} (ho : p.opcode.toNat = k.op) (hm : p ∈ s.dev.c.taken)
    (hb : s.dev.c.blocked p = false) (hc : (s.dev.c.begun p).check k p = some st) :
    hostCmd k p s body = .next (s.setC ((s.dev.c.begun p).finish p st [])) := by
  have hbegin : s.dev.begin k p = .no ((s.dev.c.begun p).finish p st []) := by
    unfold Dev.begin
    rw [if_pos hm, if_neg (Bool.eq_false_iff.mp hb)]
    show (match (s.dev.c.begun p).check k p with | some st => Begun.no ((s.dev.c.begun p).finish p st []) | none => _) = _
    rw [hc]
  rw [hostCmd, if_pos ho]
  exact State.onCore_next (by rw [hbegin])

end

/-- Settles O18: what a failing check says of the header, and that a reply changes no more than `Core.finish_eq` lists. -/
theorem refusedHeaders : Obligations.RefusedHeaders := by
  intro k p s body st ho hm hb hc
  exact ⟨hostCmd_refused ho hm hb hc, fun h => Core.check_header h hc, fun h hl => Core.check_length h hl hc,
    fun h hl hx hz h4 => Core.check_late h hl hx hz h4 hc, Core.finish_eq ..⟩

/-! ### Replies (R412, R413) -/

theorem replyRecord_length (p : Packet) (st info : Nat) (vals : List Nat) (ended : Bool) (time : Nat) :
    (replyRecord p st info vals ended time).length = 64 := by
  simp [replyRecord]

section
variable {c : Core} {p : Packet}

/-- A packet without a chain of its own replies at once. -/
theorem Core.finish_unchained (st : Nat) (vals : List Nat) (hch : p.chain = false) (hx : ∀ x, x ∈ c.chains → x.pkt ≠ p) :
    c.finish p st vals = c.writeReply p (replyRecord p st 0 vals false (c.now 0)) := by
  have hbad : p.badNext = false := by simp [Packet.badNext, hch]
  have hfind : findIx c.chains (fun x => x.pkt = p && x.held.isNone) = none := by
    rw [findIx, List.findIdx?_eq_none_iff]
    intro x hm
    simp [hx x hm]
  unfold Core.finish Core.finishI
  rw [hfind, hbad]
  rfl

/-- A reply that is asked for at an aligned address within reach is written there; no vector follows where none is wanted. -/
theorem Core.writeReply_reached (r : List Byte) (h0 : p.reply ≠ 0) (ha : p.reply.toNat % 64 = 0)
    (hr : c.reach p.reply.toNat 64 = true) (hv : p.wantsVec = false) :
    c.writeReply p r = (c.dma p.reply.toNat r).freeSlot p := by
  unfold Core.writeReply
  rw [if_neg h0, if_neg (not_not_intro ha), if_pos hr, if_neg (by simp [hv])]

theorem Core.freeSlot_eq (c : Core) (p : Packet) : ∃ b, c.freeSlot p = { c with busy := b } := by
  unfold Core.freeSlot
  split
  · exact ⟨_, rfl⟩
  · exact ⟨c.busy, rfl⟩

end

/-- Settles O19: the reply is the record written by DMA and the slot freed. -/
theorem replyRecord' : Obligations.ReplyRecord := by
  intro c p st vals h0 ha hr hv hch hx
  refine ⟨replyRecord_length .., ?_⟩
  rw [Core.finish_unchained st vals hch hx, Core.writeReply_reached _ h0 ha hr hv]
  generalize replyRecord p st 0 vals false (c.now 0) = r
  obtain ⟨b, hb⟩ := (c.dma p.reply.toNat r).freeSlot_eq p
  rw [hb]
  exact ⟨rfl, rfl, rfl⟩

/-! ### A record written at a host address (R419) -/

section
variable {c : Core} {p : Packet} {i : Nat} {r : List Byte} {vals : List Nat}

theorem Core.recordCmd_written (ha : p.arg i % 64 = 0) (hr : c.reach (p.arg i) r.length = true) :
    c.recordCmd p i r vals = (c.dma (p.arg i) r).finish p 0 vals := by
  simp [Core.recordCmd, Core.hostRecord, ha, hr]

theorem Core.recordCmd_misaligned (ha : p.arg i % 64 ≠ 0) : c.recordCmd p i r vals = c.finish p 8 [] := if_pos ha

theorem Core.recordCmd_unreached (ha : p.arg i % 64 = 0) (hr : c.reach (p.arg i) r.length = false) :
    c.recordCmd p i r vals = c.finish p 0x102 [] := by
  simp [Core.recordCmd, Core.hostRecord, ha, hr]

end

/-- Settles O20. -/
theorem deviceCommands : Obligations.DeviceCommands := by
  intro s p c
  refine ⟨fun hb ha hr => ?_, fun hb ha => ?_, fun hb ha hr => ?_, fun hb ha hr => ?_, fun hb hj ha => ?_, fun hb hj => ?_, fun hb => ?_⟩
  all_goals dsimp only [exec]
  · exact hostCmd_runs hb (Core.recordCmd_written ha hr)
  · exact hostCmd_runs hb (Core.recordCmd_misaligned ha)
  · exact hostCmd_runs hb (Core.recordCmd_unreached ha hr)
  · exact hostCmd_runs hb (Core.recordCmd_written ha hr)
  · exact hostCmd_runs hb (if_pos ⟨hj, ha⟩)
  · exact hostCmd_runs hb (if_neg fun ⟨hj', ha⟩ => hj.elim (fun h => by simp [h] at hj') (· ha))
  · exact hostCmd_runs hb rfl

/-- What WINDOW_SET accepts (R400). -/
theorem windowBase_ok {x : Ctx} {a : Nat} (hc : x.conf = false) (ha : a % 2 ^ 30 = 0) (hlt : a < 2 ^ 45) :
    ¬ (x.conf = true ∨ a % 2 ^ 30 ≠ 0 ∨ 2 ^ 45 ≤ a) := by
  rintro (h | h | h)
  · exact Bool.false_ne_true (hc.symm.trans h)
  · exact h ha
  · exact absurd hlt (Nat.not_lt.mpr h)

/-- Settles O21. -/
theorem contextCommands : Obligations.ContextCommands := by
  intro s p c x
  refine ⟨fun hb hx => ?_, fun hb hx ha hi => ?_, fun hb hx hi => ?_, fun hb hx hj => ?_, fun hb hx hj hr => ?_, fun hb hx hj hr => ?_,
    fun hb ha hr => ?_, fun hb hx hbad => ?_, fun hb hx hc ha hlt h1 => ?_, fun hb hx hc ha hlt h0 b hw => ?_⟩
  all_goals dsimp only [exec]
  · exact hostCmd_runs hb (if_pos (by simp [hx]))
  · exact hostCmd_runs hb ((if_neg (by simp [hx])).trans (if_pos ⟨ha, by simp [hi]⟩))
  · refine hostCmd_runs hb ((if_neg (by simp [hx])).trans (if_neg ?_))
    rintro ⟨h1, h2⟩
    rcases hi with h | h
    · omega
    · exact h2 h
  · exact hostCmd_runs hb (by simp [hx, hj])
  · exact hostCmd_runs hb (by simp [hx, hj, hr])
  · exact hostCmd_runs hb (by simp [hx, hj, hr])
  · exact hostCmd_runs hb (Core.recordCmd_written ha hr)
  · exact hostCmd_runs hb (by simp only [Dev.setC_c, hx, if_pos hbad])
  · exact hostCmd_runs hb (by simp only [Dev.setC_c, hx, if_neg (windowBase_ok hc ha hlt), if_pos h1])
  · exact hostCmd_runs hb (by simp only [Dev.setC_c, hx, if_neg (windowBase_ok hc ha hlt), h0, hw, Nat.zero_ne_one, if_false, if_true])

end Sys2Proof.Machine
end

section
/-!
SUPPORT. Host frames, pool marks, moves of plots and the page table. Obligations O23, O24 and O25.
-/
namespace Sys2Proof.Machine
open Sys2Proof

/-! ### Host frames and marks (R236, R243, R244) -/

section
variable {s : State} {p : Packet} {c : Core} {x : Ctx}

/-- HOST_MAP of a whole list goes by its frames alone. -/
theorem execHostMap_checked (hb : s.dev.begins { op := 0x217, ctxv := true, widths := [64, 64, 64], list := some (0, 509) } p c)
    (h1 : 1 ≤ p.arg 1) (h256 : p.arg 1 ≤ 256) (hf : p.arg 0 + p.arg 1 ≤ frameCount) (hk : p.arg 2 < 2)
    (hl : p.plen.toNat = 8 * (3 + p.arg 1)) :
    execHostMap p s = .next (s.setC
      (if (List.range (p.arg 1)).any (fun i => (kget c.frames (p.arg 0 + i)).isSome || p.arg (3 + i) % plotBytes ≠ 0)
        then c.finish p 0x247 []
        else ({ c with frames := (List.range (p.arg 1)).foldl (fun (fs : KMap Nat Frame) (i : Nat) =>
          kset fs (p.arg 0 + i) (Frame.mk p.ctxNum (p.arg 2 = 1) (p.arg (3 + i)) false)) c.frames } : Core).finish p 0 [])) := by
  refine hostCmd_runs hb ((if_neg ?_).trans (if_neg (not_not_intro hl)))
  omega

end

/-- Settles O23. -/
theorem frameAndMarkCommands : Obligations.FrameAndMarkCommands := by
  intro s p c x
  refine ⟨fun hb h1 h256 hf hk hl hall => ?_, fun hb h1 h256 hf hk hl ⟨i, hi, hbad⟩ => ?_, fun hb hx hf hall => ?_,
    fun hb hx hf ⟨i, hi, hbad⟩ => ?_, fun hb ha hr => ?_, fun hb h01 h1 => ?_, fun hb hbad => ?_⟩
  · refine (execHostMap_checked hb h1 h256 hf hk hl).trans (congrArg _ (congrArg _ (if_neg ?_)))
    simp only [Bool.not_eq_true, List.any_eq_false, List.mem_range]
    intro i hi
    simp [hall i hi]
  · refine (execHostMap_checked hb h1 h256 hf hk hl).trans (congrArg _ (congrArg _ (if_pos ?_)))
    refine List.any_eq_true.mpr ⟨i, List.mem_range.mpr hi, ?_⟩
    simpa [Option.isSome_iff_ne_none] using hbad
  all_goals dsimp only [exec]
  · refine hostCmd_runs hb ?_
    simp only [Dev.setC_c, hx, if_neg (Nat.not_lt.mpr hf)]
    refine if_pos (List.all_eq_true.mpr fun f hm => ?_)
    obtain ⟨i, hi, rfl⟩ := List.mem_map.mp hm
    obtain ⟨fr, hk, hfree⟩ := hall i (List.mem_range.mp hi)
    simp [hk, hfree]
  · refine hostCmd_runs hb ?_
    simp only [Dev.setC_c, hx, if_neg (Nat.not_lt.mpr hf)]
    refine if_neg fun hall => ?_
    have := List.all_eq_true.mp hall (p.arg 0 + i) (List.mem_map.mpr ⟨i, List.mem_range.mpr hi, rfl⟩)
    cases hk : kget c.frames (p.arg 0 + i) with
    | none => simp [hk] at this
    | some fr => simp [hk, hbad fr hk] at this
  · exact hostCmd_runs hb (Core.recordCmd_written ha hr)
  · exact hostCmd_runs hb (if_neg (by omega))
  · exact hostCmd_runs hb (if_pos (by omega))

/-! ### Moves of plots (R239, R240, R249, R267, R466) -/

/-- An eviction whose last plot has left ends with its object host and its waiting command answered (R239). -/
theorem Core.endEvict_ends {c : Core} {n i : Nat} {o : Obj} (ho : c.obj? n i = some o) (hl : ∀ e, e ∈ o.plots → e.st ≠ .leaving)
    (hst : o.st = .evicting) :
    c.endEvict n i true = (c.modObj n i (fun o => { o with st := o.rest, need := false, evicts := (o.evicts + 1) % 2 ^ 32 })).replyWaiting
      (fun w => w.pkt.ctxNum = n && w.kind = .evict i) 0 [] := by
  unfold Core.endEvict
  simp only [ho]
  refine (if_neg ?_).trans (if_pos hst)
  simpa using hl

/-- Settles O24. -/
theorem plotMoves : Obligations.PlotMoves := by
  intro s n plot i k x o e
  refine ⟨fun hn he hx hst hsp hup hm => ?_, fun hn he hx hst hsp hup hm => ?_, fun c ho hl hst => Core.endEvict_ends ho hl hst,
    fun hn he hx hst hsp hup hm => ?_, fun ok hn hup => ?_, fun m hm hok h5 hg hup => ?_, fun m q hm hq hup hr => ?_,
    fun m q hm hq hup hr => ?_⟩
  all_goals dsimp only [exec]
  · exact State.guard_runs (decide_eq_true hn) (by simp [he, hx, hst, hsp, hup, hm])
  · exact State.guard_runs (decide_eq_true hn) (by simp [he, hx, hst, hsp, hup, hm])
  · exact State.guard_runs (decide_eq_true hn) (by simp [he, hx, hst, hsp, hup, hm])
  · exact State.guard_runs (decide_eq_true hn) (by simp [hup])
  · exact State.guard_runs (decide_eq_true hm) (if_neg (by simp [hok, Nat.not_lt.mpr h5, hg, hup]))
  · exact State.guard_runs (by simp [hm, hq]) (by simp [hup, hr])
  · exact State.guard_runs (by simp [hm, hq]) (by simp [hup, hr])

/-! ### The page table (R213 to R222) -/

section
variable {c : Core} {p : Packet} {x : Ctx} {first count : Nat} {writes : Bool} {f : Ctx → Core}

theorem Core.withPages_within (h : c.hasPages p x first count) : c.withPages p first count writes f = f x := by
  obtain ⟨hx, ha, e, he, hle⟩ := h
  simp only [Core.withPages, hx, he, if_neg ha, if_neg (Nat.not_lt.mpr hle)]

theorem Core.withPages_beyond {e : Nat} (hx : c.ctx? p.ctxNum = some x) (ha : 8 ∉ x.absent) (he : x.kvEntries = some e)
    (hlt : e < first + count) : c.withPages p first count writes f = c.finish p 0x251 [] := by
  simp only [Core.withPages, hx, he, if_neg ha, if_pos hlt]

end

/-- KV_TABLE of an entry count in range, where the table finds its plots. `Core.placeTable` is held as a variable: the kernel
would otherwise evaluate it to compare the two matches. -/
theorem execKvTable_placed {s : State} {p : Packet} {c c2 : Core} {x : Ctx} (hb : s.dev.begins (Cmd.plain 0x230 true [64]) p c)
    (hx : c.ctx? p.ctxNum = some x) (h2 : isPow2 (p.arg 0) = true) (hlo : 1024 ≤ p.arg 0) (hhi : p.arg 0 ≤ 1048576)
    (hr : x.run = none)
    (hc2 : (({ c with copies := c.copies.filter (fun k => k.ctx ≠ p.ctxNum) } : Core).modCtx p.ctxNum (fun x => { x with
        tabPlots := x.tabPlots.filter (fun t => t.table ≠ 8), absent := x.absent.filter (fun t => t ≠ 8), pages := [],
        freeLists := [], kvEntries := some (p.arg 0) })).placeTable p.ctxNum 8 (cdiv (32 * p.arg 0) plotBytes) = some c2) :
    execKvTable p s = .next (s.setC (c2.sweepRetire.finish p 0 [])) := by
  refine hostCmd_runs hb ?_
  obtain ⟨place, hplace⟩ : ∃ place, place = Core.placeTable := ⟨_, rfl⟩
  rw [← hplace] at hc2 ⊢
  rw [Dev.setC_c, hx]
  have hok : ¬ ((!isPow2 (p.arg 0)) = true ∨ p.arg 0 < 1024 ∨ 1048576 < p.arg 0) := by
    rw [h2]
    simp only [Bool.not_true, Bool.false_eq_true, false_or]
    omega
  refine (if_neg hok).trans ((if_neg (by simp [hr])).trans ?_)
  dsimp only
  rw [hc2]

/-- Settles O25. -/
theorem pageCommands : Obligations.PageCommands := by
  intro s p c x
  refine ⟨fun hb hx h2 hlo hhi hr c2 hc2 => ?_, fun hb hx hbad => ?_, ?_, fun hb hp hst hm => ?_, fun hb hx ha e he hlt => ?_,
    fun hb hp hs hlt => ?_, fun hb hp hs hge => ?_, fun hb hp hs hpos => ?_, fun hb hp hst hr hm hpin => ?_,
    fun hb hp hst hr hm hpin => ?_, fun hb hp hst a b c1 c2 hl ha => ?_, ?_, fun n page hn => ?_⟩
  all_goals dsimp only [exec]
  · exact execKvTable_placed hb hx h2 hlo hhi hr hc2
  · refine hostCmd_runs hb ?_
    rw [Dev.setC_c, hx]
    exact if_pos (by simpa using hbad)
  · intro hb hp i o ho hw ha hle hall
    refine hostCmd_runs hb ((Core.withPages_within hp).trans ?_)
    have hfit : ¬ (o.window = true ∨ (o.base + p.arg 4) % pageSize (p.arg 2) ≠ 0 ∨
        o.size < p.arg 4 + p.arg 1 * pageSize (p.arg 2)) := by
      rw [hw]
      simp [ha, hle]
    have hfree : ¬ (((List.range (p.arg 1)).map (fun i => p.arg 0 + i)).any (fun q => (x.page q).st ≠ .free || (x.page q).mem)) = true := by
      simp only [List.any_map, List.any_eq_true, List.mem_range, not_exists]
      rintro j ⟨hj, hbad⟩
      obtain ⟨h1, h2⟩ := hall j hj
      simp [h1, h2] at hbad
    simp only [ho, if_neg hfit]
    exact if_neg hfree
  · exact hostCmd_runs hb ((Core.withPages_within hp).trans (if_pos ⟨hst, hm⟩))
  · exact hostCmd_runs hb (Core.withPages_beyond hx ha he hlt)
  · exact hostCmd_runs hb ((Core.withPages_within hp).trans ((if_neg (by simp [hs])).trans (if_neg (Nat.not_le.mpr hlt))))
  · exact hostCmd_runs hb ((Core.withPages_within hp).trans ((if_neg (by simp [hs])).trans (if_pos hge)))
  · exact hostCmd_runs hb ((Core.withPages_within hp).trans ((if_neg (by simp [hs])).trans (if_neg (Nat.ne_of_gt hpos))))
  · refine hostCmd_runs hb ((Core.withPages_within hp).trans ((if_neg ?_).trans (if_pos hpin)))
    rw [hr, hm]
    simpa [Decidable.or_iff_not_imp_left] using hst
  · refine hostCmd_runs hb ((Core.withPages_within hp).trans ((if_neg ?_).trans (if_neg (not_not_intro hpin))))
    rw [hr, hm]
    simpa [Decidable.or_iff_not_imp_left] using hst
  · intro h1 h2 h3
    refine hostCmd_runs hb ((Core.withPages_within hp).trans ((if_neg (not_not_intro hst)).trans ?_))
    simp only [Dev.setC_c, hl, if_neg (not_not_intro ha), h1, h2, h3]
  · intro hb hp ha hr
    exact hostCmd_runs hb ((Core.withPages_within hp).trans ((if_neg (not_not_intro ha)).trans (Core.recordCmd_written ha hr)))
  · exact State.guard_runs (decide_eq_true hn) rfl

end Sys2Proof.Machine
end

section
/-!
SUPPORT. The commands that load tables, set rings and change settings. Obligations O38, O46 to O50.
-/
namespace Sys2Proof.Machine
open Sys2Proof

section
variable {c c1 : Core} {p : Packet} {x : Ctx} {es : List Nat} {tab size limit plots err beyond bad : Nat}
  {ok : Ctx → (Nat → Nat) → Nat → Except Nat Bool}

theorem Core.ctx?_setC (s : State) (c : Core) (n : Nat) : (s.dev.setC c).c.ctx? n = c.ctx? n := rfl

theorem ringOf_some {b e n : Nat} (hb : b % 64 = 0) (h2 : isPow2 e = true) (he : e ≤ 65536) (hn : n < 2) :
    ringOf b e n = some { base := b, entries := e, enabled := n = 1 } := by
  have h : ¬ (b % 64 ≠ 0 ∨ (!isPow2 e) = true ∨ 65536 < e ∨ 2 ≤ n) := by
    simp [hb, h2, he, hn]
  rw [ringOf, if_neg h]

theorem ringOf_none {b e n : Nat} (h : b % 64 ≠ 0 ∨ isPow2 e = false ∨ 65536 < e ∨ 2 ≤ n) : ringOf b e n = none := by
  rw [ringOf, if_pos (by simpa using h)]

/-- A load whose entries pass writes them all. -/
theorem Core.loadTable_loads (h : c.loads p tab size limit plots err ok c1 es) :
    c.loadTable p tab size limit plots (p.arg 0) (p.arg 1) (p.arg 2) { beyond := beyond, handle := err, bad := bad } ok =
      (c1.change p.ctxNum (.words tab (p.arg 0) es)).finish p 0 [] := by
  obtain ⟨x, b, hx, hlim, hb, rfl, hok, hplace⟩ := h
  unfold Core.loadTable
  simp only [hx, if_neg (Nat.not_lt.mpr hlim), hb]
  rw [List.find?_eq_none.mpr fun i hi => by rw [hok i (List.mem_range.mp hi)]; simp]
  simp only [hplace]

theorem Core.loadTable_beyond (hx : c.ctx? p.ctxNum = some x) (h : limit < p.arg 0 + p.arg 1) :
    c.loadTable p tab size limit plots (p.arg 0) (p.arg 1) (p.arg 2) { beyond := beyond, handle := err, bad := bad } ok =
      c.finish p beyond [] := by
  simp only [Core.loadTable, hx, if_pos h]

end

/-- Settles O38. -/
theorem streamCommands : Obligations.StreamCommands := by
  intro s p c
  refine ⟨fun hb c1 es h => ?_, fun hb c1 es h => ?_, fun hb x hx h => ?_, fun hb h1 h2 h3 h4 => ?_, fun hb h => ?_,
    fun hb h => ?_, fun hb k g q hk hg hq hp => ?_, fun hb h1 h2 h3 h4 => ?_, fun hb h => ?_⟩
  all_goals dsimp only [exec]
  · exact hostCmd_runs hb (Core.loadTable_loads h)
  · exact hostCmd_runs hb (Core.loadTable_loads h)
  · exact hostCmd_runs hb (Core.loadTable_beyond hx h)
  · exact hostCmd_runs hb (by rw [ringOf_some h1 h2 h3 h4]; rfl)
  · exact hostCmd_runs hb (by rw [ringOf_none h]; rfl)
  · refine hostCmd_runs hb (if_pos ?_)
    simp only [Dev.setC_c, List.isEmpty_iff, List.map_eq_nil_iff, List.filter_eq_nil_iff]
    intro e he
    cases hq : e.2.pass with
    | none => simp
    | some q =>
      have := h e q he hq
      simpa using this
  · refine hostCmd_runs hb ?_
    simp [hk, hg, hq, hp]
  · exact hostCmd_runs hb (if_neg (by omega))
  · exact hostCmd_runs hb (if_pos (by omega))

/-- Settles O47. -/
theorem jobCommands : Obligations.JobCommands := by
  intro s p c
  dsimp only
  refine ⟨fun b hb hr hj hc => ?_, fun b hb hr h => ?_, fun e hb hr => ?_, fun hb h => ?_, fun hb h => ?_, fun hb h => ?_,
    fun hb h => ?_, fun j hb h hr => ?_, fun j hb h hr => ?_, fun j hb h hr => ?_, fun j b hb hj ha hr hm => ?_,
    fun j c1 es hb hj h => ?_, fun j c1 es hb hj h => ?_⟩
  all_goals dsimp only [exec]
  · exact hostCmd_runs hb (by simp only [Dev.setC_c, hr, hj, hc, Option.isSome_none, Bool.or_false, Bool.false_eq_true, if_false])
  · refine hostCmd_runs hb ?_
    simp only [Dev.setC_c, hr]
    exact if_pos (by simpa using h)
  · exact hostCmd_runs hb (by simp only [Dev.setC_c, hr])
  · exact hostCmd_runs hb (if_pos (by rw [Dev.setC_c, h]; rfl))
  · exact hostCmd_runs hb (if_pos (by rw [Dev.setC_c, h]; rfl))
  · exact hostCmd_runs hb (if_pos (by rw [Dev.setC_c, h]; rfl))
  · exact hostCmd_runs hb (if_pos (by rw [Dev.setC_c, h]; rfl))
  · exact hostCmd_runs hb ((if_neg (by simp [h])).trans (if_neg (by simp [hr])))
  · exact hostCmd_runs hb ((if_neg (by simp [h])).trans (if_pos hr))
  · exact hostCmd_runs hb ((if_neg (by simp [h])).trans (if_pos (by simp [hr])))
  · refine hostCmd_runs hb ((if_neg (by simp [hj])).trans ((if_neg (by simp [ha])).trans ?_))
    simp only [Dev.setC_c, hr]
    refine (if_neg ?_).trans ?_
    · cases hq : (c.checkJob p.ctxNum (p.arg 0)).jobCtx (fieldAt b 0 2) with
      | none => simp
      | some m => simp [hm m hq]
    · exact (apply_ite (fun c : Core => c.finish p 0 []) _ _ _).symm
  · exact hostCmd_runs hb ((if_neg (by simp [hj])).trans (Core.loadTable_loads h))
  · exact hostCmd_runs hb ((if_neg (by simp [hj])).trans (Core.loadTable_loads h))

/-- A search for the first place that fails finds none. -/
theorem List.find?_range_none {k : Nat} {f : Nat → Bool} (h : ∀ i, i < k → f i = true) :
    (List.range k).find? (fun i => !f i) = none :=
  List.find?_eq_none.mpr fun i hi => by simp [h i (List.mem_range.mp hi)]

theorem List.all_range_holds {k : Nat} {f : Nat → Bool} (h : ∀ i, i < k → f i = true) : ¬ (!(List.range k).all f) = true := by
  rw [List.all_eq_true.mpr fun i hi => h i (List.mem_range.mp hi)]
  simp

/-- Settles O48. -/
theorem stepCommands : Obligations.StepCommands := by
  intro s p c x
  dsimp only
  refine ⟨fun hb hx h1 h2 h3 h4 h5 => ?_, fun hb hx h => ?_, fun hb hx h1 h2 h3 h4 h5 => ?_, fun c1 es hb h => ?_,
    fun hb hx h => ?_, fun c1 es hb h => ?_, fun hb hx h => ?_, fun b c1 hb hx hlim hr hall hplace => ?_, fun hb hx h => ?_,
    fun hb h1 h2 h3 h4 => ?_, fun hb h => ?_⟩
  all_goals dsimp only [exec]
  · refine hostCmd_runs hb ?_
    rw [Dev.setC_c, hx]
    exact (if_neg (by omega)).trans (if_neg (by simp [h5]))
  · refine hostCmd_runs hb ?_
    rw [Dev.setC_c, hx]
    exact if_pos h
  · refine hostCmd_runs hb ?_
    rw [Dev.setC_c, hx]
    exact (if_neg (by omega)).trans (if_pos (by simp [h5]))
  · exact hostCmd_runs hb (Core.loadTable_loads h)
  · exact hostCmd_runs hb (Core.loadTable_beyond hx h)
  · exact hostCmd_runs hb (Core.loadTable_loads h)
  · exact hostCmd_runs hb (Core.loadTable_beyond hx h)
  · refine hostCmd_runs hb ?_
    simp only [Dev.setC_c, hx, if_neg (Nat.not_lt.mpr hlim), hr, List.length_map, List.length_range, hplace]
    rw [List.find?_range_none hall]
  · refine hostCmd_runs hb ?_
    simp only [Dev.setC_c, hx, if_pos h]
  · exact hostCmd_runs hb (by rw [ringOf_some h1 h2 h3 h4]; rfl)
  · exact hostCmd_runs hb (by rw [ringOf_none h]; rfl)

/-- Settles O49. -/
theorem censusCommands : Obligations.CensusCommands := by
  intro s p c x
  dsimp only
  refine ⟨fun hb hx h1 h2 h3 h4 => ?_, fun hb hx h => ?_, fun hb hx h1 h2 => ?_, fun b c1 hb hx hr hs ha h => ?_,
    fun r c1 hb hx hr hh ha h => ?_, fun hb hx h => ?_, fun hb h1 h2 h3 h4 => ?_, fun hb h => ?_, fun hb h => ?_, fun hb h => ?_,
    fun r hb hr hh h0 => ?_, fun r hb hr hh h0 => ?_, fun hb hr => ?_⟩
  all_goals dsimp only [exec]
  · refine hostCmd_runs hb ?_
    rw [Dev.setC_c, hx]
    exact (if_neg (by simp [h1])).trans (if_neg (by omega))
  · refine hostCmd_runs hb ?_
    rw [Dev.setC_c, hx]
    exact if_pos (by simpa using h)
  · refine hostCmd_runs hb ?_
    rw [Dev.setC_c, hx]
    exact (if_neg (by simp [h1])).trans (if_pos h2)
  · refine hostCmd_runs hb ?_
    simp only [Dev.setC_c, hx, ha, hr, hs, h, ne_eq, not_true, if_false, Bool.false_eq_true, Option.getD_some]
  · refine hostCmd_runs hb ?_
    simp only [Dev.setC_c, hx, ha, hr, hh, h, ne_eq, not_true, if_false, if_true]
  · refine hostCmd_runs hb ?_
    rw [Dev.setC_c, hx]
    exact if_pos h
  · exact hostCmd_runs hb (by rw [ringOf_some h1 h2 h3 h4]; rfl)
  · exact hostCmd_runs hb (by rw [ringOf_none h]; rfl)
  · exact hostCmd_runs hb (if_neg (Nat.not_le.mpr h))
  · exact hostCmd_runs hb (if_pos h)
  · refine hostCmd_runs hb ?_
    simp [hr, hh, h0]
  · refine hostCmd_runs hb ?_
    simp [hr, hh, h0]
  · refine hostCmd_runs hb ?_
    rw [Dev.setC_c, hr]

/-- A LINK_CTL whose action is its row's runs as that row. -/
theorem linkCtl_runs {s : State} {p : Packet} {c c' : Core} {k : Nat} {body : Dev → Core}
    (hb : s.dev.begins (Cmd.plain 0x408 false [64, 64]) p c) (hk : p.arg 1 = k)
    (h : (if 36 ≤ p.arg 0 ∨ 3 ≤ p.arg 1 then c.finish p 0x480 [] else (body (s.dev.setC c)).finish p 0 []) = c') :
    linkCtl k p s body = .next (s.setC c') :=
  (if_neg fun h => h.2.2 hk).trans (hostCmd_runs hb h)

/-- Settles O46. -/
theorem linkCommands : Obligations.LinkCommands := by
  intro s p c
  dsimp only
  refine ⟨fun hb h1 h2 h3 h4 => ?_, fun hb h => ?_, fun hb h => ?_, fun hb h ha => ?_, fun b hb h ha hr hall => ?_,
    fun hb h => ⟨fun hk => ?_, fun hk => ?_, fun hk => ?_⟩, fun hb h hk hu => ?_, fun hb h hk hu => ?_, fun hb h hk h1 h2 => ?_,
    fun hb h hk => ?_⟩
  all_goals dsimp only [exec]
  · refine hostCmd_runs hb ((if_neg (by omega)).trans ?_)
    exact (apply_ite (fun c : Core => c.finish p 0 []) _ _ _).symm
  · exact hostCmd_runs hb (if_pos h)
  · exact hostCmd_runs hb (if_pos h)
  · exact hostCmd_runs hb ((if_neg (Nat.not_le.mpr h)).trans (if_pos (by simp [ha])))
  · refine hostCmd_runs hb ((if_neg (Nat.not_le.mpr h)).trans ((if_neg (by simp [ha])).trans ?_))
    simp only [Dev.setC_c, hr]
    exact (if_neg (List.all_range_holds hall)).trans (apply_ite (fun c : Core => c.finish p 0 []) _ _ _).symm
  · exact linkCtl_runs hb hk (if_pos (Or.inl h))
  · exact linkCtl_runs hb hk (if_pos (Or.inl h))
  · exact linkCtl_runs hb hk (if_pos (Or.inl h))
  · exact linkCtl_runs hb hk ((if_neg (by omega)).trans (congrArg (fun c : Core => c.finish p 0 []) (if_neg (by simp [hu]))))
  · exact linkCtl_runs hb hk ((if_neg (by omega)).trans (by simp [hu]))
  · exact linkCtl_runs hb hk ((if_neg (by omega)).trans (by simp [h1, h2]))
  · exact linkCtl_runs hb hk (if_neg (by omega))

/-- Settles O50. -/
theorem updateCommands : Obligations.UpdateCommands := by
  intro s p c
  dsimp only
  refine ⟨fun b c1 hb hlim hr hall hplace => ?_, fun hb h => ?_, fun b c1 hb h hr hok hplace => ?_, fun hb h => ?_,
    fun b hb h hr hok => ?_, fun hb h1 h2 h3 h4 h5 h6 h7 h8 => ?_, fun hb h => ?_, fun x hb hx h => ?_, fun x hb hx h => ?_,
    fun q hb hq => ⟨fun h => ?_, fun st h => ?_⟩, fun hb h => ?_, fun hb h => ?_⟩
  all_goals dsimp only [exec]
  · refine hostCmd_runs hb ?_
    simp only [Dev.setC_c, if_neg (Nat.not_lt.mpr hlim), hr, List.length_map, List.length_range, hplace]
    rw [List.findSome?_eq_none_iff.mpr fun i hi => hall i (List.mem_range.mp hi)]
  · exact hostCmd_runs hb (if_pos h)
  · refine hostCmd_runs hb ?_
    simp only [Dev.setC_c, if_neg (Nat.not_le.mpr h), hr, hok, hplace, Bool.not_true, Bool.false_eq_true, if_false]
  · exact hostCmd_runs hb (if_pos h)
  · refine hostCmd_runs hb ?_
    simp only [Dev.setC_c, if_neg (Nat.not_le.mpr h), hr, hok, Bool.not_false, if_true]
  · exact hostCmd_runs hb (if_neg (by omega))
  · exact hostCmd_runs hb (if_pos (by omega))
  · refine hostCmd_runs hb ?_
    rw [Dev.setC_c, hx]
    exact if_neg (not_not_intro h)
  · refine hostCmd_runs hb ?_
    rw [Dev.setC_c, hx]
    exact if_pos h
  · subst hq
    refine hostCmd_runs hb ?_
    simp only [Dev.setC_c, h]
  · subst hq
    refine hostCmd_runs hb ?_
    simp only [Dev.setC_c, h]
  · exact hostCmd_runs hb (if_neg (Nat.not_le.mpr h))
  · exact hostCmd_runs hb (if_pos h)

end Sys2Proof.Machine
end

section
/-!
SUPPORT. The governor, and attestation and keys. Obligations O51 to O53.
-/
namespace Sys2Proof.Machine
open Sys2Proof

/-! ### One evaluation (R379 to R384) -/

/-- The governor as an evaluation judges it: settings taken over and p formed. -/
def Gov.judged (g : Gov) (draw : Nat) : Gov := { g.settings with power := g.mean draw, sampleSum := 0, samples := 0 }

section
variable {g : Gov}

theorem Gov.down_two (h : 190 < g.temp ∨ 105 * (10 * g.cap) < 100 * g.power) : g.down = 2 := if_pos h

theorem Gov.down_one (ht : g.temp ≤ 190) (hp : 100 * g.power ≤ 105 * (10 * g.cap)) (h : 186 < g.temp ∨ 10 * g.cap < g.power) :
    g.down = 1 :=
  (if_neg (by omega)).trans (if_pos h)

theorem Gov.down_zero (ht : g.temp ≤ 186) (hp : g.power ≤ 10 * g.cap) : g.down = 0 :=
  (if_neg (by omega)).trans (if_neg (by omega))

theorem Gov.decide'_lower {n : Nat} (hn : 0 < n) (h : g.down = n) :
    g.decide'.op = min (g.op - n) g.opMax ∧ g.decide'.calm = 0 ∧
      g.decide'.hold = if g.op < n then min (g.hold + 1) 7 else g.hold := by
  unfold Gov.decide'
  rw [h, if_pos hn]
  exact ⟨rfl, rfl, rfl⟩

theorem Gov.rise_above (h : g.opMax < g.op) : g.rise = { g with calm := g.calm + 1, op := g.opMax } := if_pos h

theorem Gov.rise_below (h : g.op < g.opMin) (hle : g.opMin ≤ g.opMax) : g.rise = { g with calm := g.calm + 1, op := g.op + 1 } :=
  (if_neg (by omega)).trans (if_pos h)

/-- Within the limits, after 16 calm evaluations in the cool range, the hold falls or the point rises. -/
theorem Gov.rise_cool (hmin : g.opMin ≤ g.op) (hmax : g.op ≤ g.opMax)
    (h : g.temp ≤ 180 ∧ 10 * g.power ≤ 9 * (10 * g.cap) ∧ 16 ≤ g.calm + 1) :
    g.rise = if 0 < g.hold then { g with calm := 0, hold := g.hold - 1 }
      else if g.op < g.opMax then { g with calm := 0, op := g.op + 1 } else { g with calm := 0 } :=
  (if_neg (Nat.not_lt.mpr hmax)).trans ((if_neg (Nat.not_lt.mpr hmin)).trans (if_pos h))

theorem Gov.rise_still (hmin : g.opMin ≤ g.op) (hmax : g.op ≤ g.opMax)
    (h : ¬ (g.temp ≤ 180 ∧ 10 * g.power ≤ 9 * (10 * g.cap) ∧ 16 ≤ g.calm + 1)) : g.rise = { g with calm := g.calm + 1 } :=
  (if_neg (Nat.not_lt.mpr hmax)).trans ((if_neg (Nat.not_lt.mpr hmin)).trans (if_neg h))

theorem Gov.decide'_rise (h : g.down = 0) : g.decide' = { g.rise with op := min g.rise.op g.rise.opMax } := by
  unfold Gov.decide'
  rw [h, if_neg (Nat.lt_irrefl 0)]

/-- What an evaluation leaves but for the point, the calm count, the hold, the class and the flags. -/
structure Gov.Settled (g h : Gov) : Prop where
  power : h.power = g.power
  modCap : h.modCap = g.modCap
  opMin : h.opMin = g.opMin
  opMax : h.opMax = g.opMax
  trips : h.trips = g.trips
  inForce : h.inForce = g.inForce

theorem Gov.rise_settled (g : Gov) : g.Settled g.rise := by
  unfold Gov.rise
  dsimp only
  (repeat' split) <;> exact ⟨rfl, rfl, rfl, rfl, rfl, rfl⟩

theorem Gov.decide'_settled (g : Gov) : g.Settled g.decide' := by
  unfold Gov.decide'
  dsimp only
  split
  · exact ⟨rfl, rfl, rfl, rfl, rfl, rfl⟩
  · obtain ⟨h1, h2, h3, h4, h5, h6⟩ := g.rise_settled
    exact ⟨h1, h2, h3, h4, h5, h6⟩

theorem Gov.decideFixed_settled (g : Gov) (k : Nat) : g.Settled (g.decideFixed k) := by
  unfold Gov.decideFixed
  (repeat' split) <;> exact ⟨rfl, rfl, rfl, rfl, rfl, rfl⟩

theorem Gov.evaluate_settled (g : Gov) (draw : Nat) : (g.judged draw).Settled (g.evaluate draw) := by
  have hcls : ∀ {g1 : Gov}, (g.judged draw).Settled g1 → (g.judged draw).Settled { g1 with
      cls := g1.classOf, pwrFlag := 9 * (10 * g1.cap) < 10 * g1.power, thermFlag := 180 < g1.temp,
      floorFlag := g1.rawCap < 800 } := fun h => ⟨h.power, h.modCap, h.opMin, h.opMax, h.trips, h.inForce⟩
  unfold Gov.evaluate
  apply hcls
  dsimp only
  split
  · exact Gov.decideFixed_settled _ _
  · exact Gov.decide'_settled _

/-- With no point held, an evaluation decides as R381 says. -/
theorem Gov.evaluate_free (hf : g.settings.fix = none) (draw : Nat) :
    (g.evaluate draw).op = (g.judged draw).decide'.op ∧ (g.evaluate draw).calm = (g.judged draw).decide'.calm ∧
      (g.evaluate draw).hold = (g.judged draw).decide'.hold := by
  have hj : (g.judged draw).fix = none := hf
  unfold Gov.evaluate
  rw [← Gov.judged]
  simp only [hj, and_self]

theorem Gov.evaluate_lower {draw n : Nat} (hf : g.settings.fix = none) (hn : 0 < n) (h : (g.judged draw).down = n) :
    (g.evaluate draw).op = min (g.settings.op - n) g.settings.opMax ∧ (g.evaluate draw).calm = 0 ∧
      (g.evaluate draw).hold = if g.settings.op < n then min (g.settings.hold + 1) 7 else g.settings.hold := by
  obtain ⟨hop, hcalm, hhold⟩ := Gov.evaluate_free hf draw
  rw [hop, hcalm, hhold]
  exact Gov.decide'_lower hn h

theorem Gov.evaluate_rise {r : Gov} {draw : Nat} (hf : g.settings.fix = none) (h : (g.judged draw).down = 0)
    (hr : (g.judged draw).rise = r) (hmax : r.opMax = g.settings.opMax) :
    (g.evaluate draw).op = min r.op g.settings.opMax ∧ (g.evaluate draw).calm = r.calm ∧ (g.evaluate draw).hold = r.hold := by
  obtain ⟨hop, hcalm, hhold⟩ := Gov.evaluate_free hf draw
  rw [hop, hcalm, hhold, Gov.decide'_rise h, hr, ← hmax]
  exact ⟨rfl, rfl, rfl⟩

end

/-- Settles O51: the branches of R381, each with the state it leaves. -/
theorem governorDecision : Obligations.GovernorDecision := by
  intro s hact g p cap
  obtain ⟨hpow, hcap, hmin, hmax, htr, hin⟩ := Gov.evaluate_settled s.dev.gov s.dev.c.freeCtr
  refine ⟨_, State.onDev_next (if_pos hact), hpow, hcap, hmin, hmax, htr.trans rfl, rfl, rfl, hin.trans rfl, rfl, ?_⟩
  have hcool : g.temp ≤ 180 → 10 * p ≤ 9 * cap → g.opMin ≤ g.op → g.op ≤ g.opMax → 15 ≤ g.calm → _ := fun ht hp h1 h2 hc =>
    Gov.rise_cool (g := s.dev.gov.judged s.dev.c.freeCtr) h1 h2 ⟨ht, hp, Nat.succ_le_succ hc⟩
  have hzero : g.temp ≤ 186 → p ≤ cap → (s.dev.gov.judged s.dev.c.freeCtr).down = 0 := fun ht hp => Gov.down_zero ht hp
  refine ⟨fun hf h => Gov.evaluate_lower hf Nat.two_pos (Gov.down_two h), fun hf ht hp h => ?_, fun hf ht hp h => ?_,
    fun hf ht hp h hle => ?_, fun hf ht hp h1 h2 hc hh => ?_, fun hf ht hp h1 h2 hc hh => ?_, fun hf ht hp h1 h2 h => ?_, ?_⟩
  · have hone := Gov.evaluate_lower hf Nat.one_pos (Gov.down_one (g := s.dev.gov.judged s.dev.c.freeCtr) ht hp h)
    simp only [Nat.lt_one_iff] at hone
    exact hone
  · obtain ⟨hop, hrest⟩ := Gov.evaluate_rise hf (hzero ht hp) (Gov.rise_above h) rfl
    exact ⟨hop.trans (Nat.min_self _), hrest⟩
  · obtain ⟨hop, hrest⟩ := Gov.evaluate_rise hf (hzero ht hp) (Gov.rise_below h hle) rfl
    exact ⟨hop.trans (Nat.min_eq_left (Nat.le_trans (Nat.succ_le_of_lt h) hle)), hrest⟩
  · have hz := hzero (by omega) (by omega)
    obtain ⟨hop, hrest⟩ := Gov.evaluate_rise hf hz ((hcool ht hp h1 h2 hc).trans (if_pos hh)) rfl
    exact ⟨hop.trans (Nat.min_eq_left h2), hrest⟩
  · have hz := hzero (by omega) (by omega)
    have hr := (hcool ht hp h1 h2 hc).trans (if_neg (Nat.not_lt.mpr (Nat.le_of_eq hh)))
    by_cases hlt : g.op < g.opMax
    · obtain ⟨hop, hcalm, hhold⟩ := Gov.evaluate_rise hf hz (hr.trans (if_pos hlt)) rfl
      exact ⟨hop, hcalm, hhold.trans hh⟩
    · obtain ⟨hop, hcalm, hhold⟩ := Gov.evaluate_rise hf hz (hr.trans (if_neg hlt)) rfl
      exact ⟨hop.trans ((Nat.min_eq_left h2).trans (by rw [Nat.min_eq_right] <;> omega)), hcalm, hhold.trans hh⟩
  · have hnot : ¬ (g.temp ≤ 180 ∧ 10 * p ≤ 9 * cap ∧ 16 ≤ g.calm + 1) := by omega
    obtain ⟨hop, hrest⟩ := Gov.evaluate_rise hf (hzero ht hp) (Gov.rise_still h1 h2 hnot) rfl
    exact ⟨hop.trans (Nat.min_eq_left h2), hrest⟩
  · rfl

/-! ### The governor's events and commands (R382 to R394) -/

theorem Core.msix_devState (c : Core) (v : Nat) : (c.msix v).devState = c.devState := by
  obtain ⟨pe, ou, h⟩ := Core.msix_eq c v
  rw [h]

theorem Core.devEvent_devState (c : Core) (i : Nat) : (c.devEvent i).devState = c.devState := by
  obtain ⟨ev, pe, ou, h⟩ := Core.devEvent_eq c i
  rw [h]

theorem Core.finish_devState (c : Core) (p : Packet) (st : Nat) (vals : List Nat) : (c.finish p st vals).devState = c.devState := by
  obtain ⟨ev, pe, ou, hm, bu, ch, h⟩ := Core.finish_eq c p st vals
  rw [h]

theorem Core.foldl_devState {α : Type} {f : Core → α → Core} (h : ∀ c a, (f c a).devState = c.devState) (l : List α) (c : Core) :
    (l.foldl f c).devState = c.devState := by
  induction l generalizing c with
  | nil => rfl
  | cons a l ih => exact (ih _).trans (h c a)

/-- The chip's stop leaves it stopped. -/
theorem Core.chipStop_stops (c : Core) (port : Bool) : (c.chipStop port).devState = .stopped := by
  unfold Core.chipStop
  split
  case isTrue h => exact h
  case isFalse =>
    dsimp only
    rw [Core.devEvent_devState]
    split
    · rw [Core.foldl_devState fun c n => Core.msix_devState _ _, Core.foldl_devState fun c p => Core.finish_devState ..]
    · rfl

theorem execPowerOverLimit_cuts {s : State} (ha : s.dev.gov.active = true)
    (hc : ∀ t, s.dev.gov.cutAt = some t → t + 10000 ≤ s.dev.c.now 0) :
    let g := { s.dev.gov.lower 1 with cutAt := some (s.dev.c.now 0) }
    execPowerOverLimit s = .next (s.setD { s.dev with
      gov := g, c := { s.dev.c.countOp s.dev.gov g with
        holdUntil := s.dev.c.holdUntil + 12500 * (g.hold - s.dev.gov.hold) } }) := by
  refine State.onDev_next (if_neg ?_)
  cases h : s.dev.gov.cutAt with
  | none => simp [ha]
  | some t =>
    have := hc t h
    simpa [ha] using this

/-- Settles O52. -/
theorem governorEvents : Obligations.GovernorEvents := by
  intro s
  dsimp only
  refine ⟨fun r hr ha => ?_, fun q hq => ?_, fun ha hc => ?_, fun t ht hn => ?_, ?_, fun st u tp hu h1 h2 => ⟨?_, ?_⟩,
    fun st u tp hu h => ?_, fun p c hb h1 h2 h3 h4 h5 => ?_, fun p c hb h => ?_, fun p c hb h1 h2 => ?_, fun p c hb h => ?_,
    fun p c hb h1 h2 => ?_, fun p c hb h1 h2 => ?_, fun p c hb h1 h2 => ?_, fun p c hb h1 h2 => ?_⟩
  all_goals try dsimp only [exec]
  · exact State.guardDev_runs hr (if_pos ha)
  · exact if_neg fun h => hq h.2.1
  · have hcut := execPowerOverLimit_cuts ha hc
    simpa only [Gov.lower, Nat.lt_one_iff] using hcut
  · refine State.onDev_next (if_pos ?_)
    simp [ht, hn]
  · exact State.onDev_next rfl
  · exact (Core.devEvent_devState _ _).trans (Core.chipStop_stops _ _)
  · refine State.guardDev_runs (by simp [hu, h2]) ((if_neg (by omega)).trans ?_)
    cases st <;> simp [tripRegion, tripWord, b2n]
  · exact State.guardDev_runs (by simp [hu]; omega) (if_pos h)
  · exact hostCmdDev_runs hb (if_neg (by omega))
  · exact hostCmdDev_runs hb (if_pos h)
  · exact hostCmdDev_runs hb (if_neg (by omega))
  · exact hostCmdDev_runs hb (if_pos h)
  · refine hostCmdDev_runs hb ((if_neg (by omega)).trans ((if_neg (by simp [h2])).trans ?_))
    rw [if_neg (by omega : ¬ p.arg 0 = 0xFF)]
    rfl
  · refine hostCmdDev_runs hb ((if_neg (by omega)).trans ((if_neg (by simp [h2])).trans ?_))
    rw [if_pos h1]
    rfl
  · exact hostCmdDev_runs hb (if_pos ⟨h1, h2⟩)
  · exact hostCmdDev_runs hb ((if_neg (by omega)).trans (if_pos h2))

/-! ### Attestation and keys (R429 to R440) -/

/-- A stream that leaves the Secure state. -/
theorem Dev.insecure_secure {d : Dev} {k : Nat} {q : IdeStream} (h : kget d.tr.ide k = some q) (hs : q.secure = true) :
    d.insecure k = { d with
      tr := { d.tr with ide := kset d.tr.ide k { q with secure := false } },
      c := (if q.covers then d.c.stopConf else d.c).devEvent 5 } := by
  unfold Dev.insecure
  simp only [h, hs, Bool.not_true, Bool.false_eq_true, if_false]

theorem Dev.insecure_already {d : Dev} {k : Nat} {q : IdeStream} (h : kget d.tr.ide k = some q) (hs : q.secure = false) :
    d.insecure k = d := by
  unfold Dev.insecure
  simp only [h, hs, Bool.not_false, if_true]

/-- A list put in front only under a condition. -/
theorem List.append_ite_nil {α : Type} {q : Prop} [Decidable q] (a b : List α) :
    (if q then a ++ b else b) = (if q then a else []) ++ b := by
  split <;> rfl

/-- Settles O53. -/
theorem attestationAndKeys : Obligations.AttestationAndKeys := by
  intro s p c c1 x
  dsimp only
  refine ⟨fun hb ha hn h => ?_, fun hb ha hn => ?_, fun hb ha => ?_, fun hb => ?_, fun hb => ?_, fun h => ?_, fun k h hk => ?_,
    fun h => ?_, fun h => ⟨?_, ?_⟩, fun k key co se hu hl hq => ?_, fun k key co se hn hl => ?_, fun k q hq hs => ?_,
    fun k q hq hs => ?_, fun hb hl => ⟨fun h2 hlen => ?_, fun h2 hlen => ?_⟩, fun k hb hx hc hr hs hk => ?_, fun hb hx h => ?_,
    fun hb hx hc hr hs hk => ?_, fun hb => ?_, fun hb h1 h2 h3 h4 h5 => ?_, fun hb h => ?_⟩
  all_goals dsimp only [exec]
  · refine hostCmd_runs hb ((if_neg (not_not_intro ha)).trans ((if_neg (Nat.not_lt.mpr hn)).trans ?_))
    rw [Dev.setC_c, h]
  · exact hostCmd_runs hb ((if_neg (not_not_intro ha)).trans (if_pos hn))
  · exact hostCmd_runs hb (if_pos ha)
  · exact hostCmd_runs hb rfl
  · exact hostCmd_runs hb rfl
  · exact State.onCore_next (if_neg (by simp [h]))
  · refine State.onCore_next ((if_neg (by simp [h])).trans ?_)
    rw [if_neg (Nat.pos_iff_ne_zero.mp hk)]
  · exact State.onCore_next (if_neg (by simp [h]))
  · exact State.onCore_same (if_pos (by simp [h]))
  · exact State.onCore_same (if_pos (by simp [h]))
  · have hrun : ¬ ((!s.dev.spdmUp) || ((kget s.dev.tr.ide k).isNone && decide (2 ≤ s.dev.tr.ide.length))) = true := by
      rcases hl with hl | hl
      · cases hk : kget s.dev.tr.ide k with
        | none => simp [hk] at hl
        | some q => simp [hu]
      · simp [hu, Nat.not_le.mpr hl]
    refine State.onDev_next ((if_neg hrun).trans ?_)
    cases hk : kget s.dev.tr.ide k with
    | none => rfl
    | some q => simp [hq q hk]
  · exact State.onDev_next (if_pos (by simp [hn, hl]))
  · exact State.onDev_next (Dev.insecure_secure hq hs)
  · exact State.onDev_next (Dev.insecure_already hq hs)
  · rw [← List.append_ite_nil] at hlen ⊢
    exact hostCmdDev_runs hb ((if_neg (not_not_intro hl)).trans ((if_neg (Nat.not_le.mpr h2)).trans (if_neg (Nat.not_lt.mpr hlen))))
  · rw [← List.append_ite_nil] at hlen
    exact hostCmdDev_runs hb ((if_neg (not_not_intro hl)).trans ((if_neg (Nat.not_le.mpr h2)).trans (if_pos hlen)))
  · refine hostCmd_runs hb ?_
    simp only [Dev.setC_c, hx]
    exact (if_neg (by simp [hc, hr, hs])).trans (by simp only [hk])
  · refine hostCmd_runs hb ?_
    simp only [Dev.setC_c, hx]
    exact if_pos (by simpa using h)
  · refine hostCmd_runs hb ?_
    simp only [Dev.setC_c, hx]
    exact (if_neg (by simp [hc, hr, hs])).trans (by simp only [hk])
  · exact hostCmd_runs hb rfl
  · refine hostCmd_runs hb (if_neg ?_)
    have hall : ((List.range (p.arg 1)).map (fun i => (p.arg 0 + i, p.arg 2 + 0x4000 * i))).any
        (fun e => (kget c.frames e.1).all (fun f => f.ctx ≠ p.ctxNum)) = false := by
      simp only [List.any_eq_false, List.mem_map, List.mem_range]
      rintro e ⟨i, hi, rfl⟩
      obtain ⟨f, hf, hn⟩ := h5 i hi
      simp [hf, hn]
    rw [Dev.setC_c, hall]
    simp only [Bool.false_eq_true, or_false]
    omega
  · exact hostCmd_runs hb (if_pos (by omega))

end Sys2Proof.Machine
end

section
/-!
SUPPORT. Ownership and firmware, tests and service, BAR2 and the sideband. Obligations O54, O55, O60.
-/
namespace Sys2Proof.Machine
open Sys2Proof

/-! ### Ownership and firmware (R440 to R449) -/

section
variable {s : State} {p : Packet} {c : Core} {k : Nat} {key : List Byte} {effect : Trust → Trust}

/-- An owner command of its own row's action has the branch its guard chooses. -/
theorem ownerCmd_runs {d : Dev} (hb : s.dev.begins { op := 0x821, ctxv := false, widths := [64, 64], list := some (24, 24) } p c)
    (hk : p.arg 0 = k) (h3 : k ≤ 3) (harg : k ≠ 3 → ∀ b, b ∈ (payloadBytes p 2).take 96 → b = 0) (hh : 80 ≤ s.dev.pw.holdup)
    (ho : s.dev.tr.owner = some key)
    (h : (if p.arg 1 ≤ s.dev.tr.ownerCtr ∨ Config.ecdsaVerify key (ownerMessage Config.serial p) ((payloadBytes p 2).drop 96) = false
      then { s.dev with c := c.finish p 0x832 [] }
      else { s.dev with tr := effect { s.dev.tr with ownerCtr := p.arg 1 }, c := c.finish p 0 [] }) = d) :
    ownerCmd k p s effect = .next (s.setD d) := by
  have hok : ¬ (4 ≤ p.arg 0 ∨ (p.arg 0 ≠ 3 ∧ ((payloadBytes p 2).take 96).any (fun b => b ≠ 0) = true)) := by
    rintro (h | ⟨hne, hany⟩)
    · omega
    · obtain ⟨b, hb, hne'⟩ := List.any_eq_true.mp hany
      exact absurd (harg (hk ▸ hne) b hb) (by simpa using hne')
  refine (if_neg fun h => h.2.2 hk).trans (hostCmdDev_runs hb ((if_neg hok).trans ((if_neg (Nat.not_lt.mpr hh)).trans ?_)))
  rw [Dev.setC_tr, ho]
  exact h

/-- A signed command with a new counter is carried out. -/
theorem ownerCmd_signed (hb : s.dev.begins { op := 0x821, ctxv := false, widths := [64, 64], list := some (24, 24) } p c)
    (hs : 80 ≤ s.dev.pw.holdup ∧ s.dev.tr.ownerCtr < p.arg 1 ∧ ∃ k, s.dev.tr.owner = some k ∧
      Config.ecdsaVerify k (ownerMessage Config.serial p) ((payloadBytes p 2).drop 96) = true)
    (hk : p.arg 0 = k) (h3 : k ≤ 3) (harg : k ≠ 3 → ∀ b, b ∈ (payloadBytes p 2).take 96 → b = 0) :
    ownerCmd k p s effect =
      .next (s.setD { s.dev with tr := effect { s.dev.tr with ownerCtr := p.arg 1 }, c := c.finish p 0 [] }) := by
  obtain ⟨hh, hctr, key, ho, hv⟩ := hs
  exact ownerCmd_runs hb hk h3 harg hh ho (if_neg (by simp [hv, hctr]))

end

/-- Settles O54. -/
theorem ownershipAndFirmware : Obligations.OwnershipAndFirmware := by
  intro s p c
  dsimp only
  refine ⟨fun hb h => ?_, fun hb h ho => ?_, fun hb h ho => ?_, fun hb hs hk ha => ?_, fun hb hs hk ha => ?_,
    fun hb hs hk ha => ?_, fun hb hs hk => ?_, fun k hb hk hh ho h => ?_, fun hb hf h1 h2 h3 => ?_, fun hb hf h1 => ?_,
    fun hb hf hu h1 h2 h3 => ?_, fun hb hf hu h => ?_, fun hb hf hu h => ?_, fun hb hf hu h => ?_, fun hb hf hu => ?_,
    fun hb h => ?_, fun hb h => ?_, fun e he => ⟨fun hb => ?_, fun hb => ?_, fun hb => ?_⟩⟩
  all_goals dsimp only [exec]
  · exact hostCmdDev_runs hb (if_pos h)
  · exact hostCmdDev_runs hb ((if_neg (Nat.not_lt.mpr h)).trans (if_neg (by simp [ho])))
  · exact hostCmdDev_runs hb ((if_neg (Nat.not_lt.mpr h)).trans (if_pos ho))
  · exact ownerCmd_signed hb hs hk (by decide) fun _ => ha
  · exact ownerCmd_signed hb hs hk (by decide) fun _ => ha
  · exact ownerCmd_signed hb hs hk (by decide) fun _ => ha
  · exact ownerCmd_signed hb hs hk (by decide) fun h => absurd rfl h
  · exact ownerCmd_runs hb hk (by decide) (fun h => absurd rfl h) hh ho (if_pos h)
  · refine hostCmdDev_runs hb ?_
    simp only [hf]
    exact (if_neg (by simp [h1])).trans ((if_neg (by simp [h2])).trans (if_neg (by simp [h3])))
  · refine hostCmdDev_runs hb ?_
    simp only [hf]
    exact if_pos (by simp [h1])
  · refine hostCmdDev_runs hb ?_
    simp only [hf]
    refine (if_neg (not_not_intro hu)).trans (if_neg ?_)
    have hany : s.dev.tr.stage.body.any (fun e => p.arg 0 ≤ e.1 && e.1 < p.arg 0 + (payloadBytes p 1).length) = false := by
      simp only [List.any_eq_false, Bool.and_eq_true, decide_eq_true_eq]
      intro e he
      have := h3 e he
      omega
    rw [Dev.setC_tr, hany]
    simp only [Bool.false_eq_true, or_false]
    omega
  · refine hostCmdDev_runs hb ?_
    simp only [hf]
    exact (if_neg (not_not_intro hu)).trans (if_pos (h.imp_right Or.inl))
  · refine hostCmdDev_runs hb ?_
    simp only [hf]
    exact (if_neg (not_not_intro hu)).trans (if_neg (by simp [h]))
  · refine hostCmdDev_runs hb ?_
    simp only [hf]
    exact (if_neg (not_not_intro hu)).trans (if_pos (by simp [h]))
  · refine hostCmdDev_runs hb ?_
    simp only [hf]
    exact if_pos hu
  · exact hostCmdDev_runs hb (if_neg h)
  · exact hostCmdDev_runs hb (if_pos h)
  · exact hostCmdDev_runs hb (by simp only [he]; rfl)
  · exact hostCmdDev_runs hb (by simp only [he]; rfl)
  · exact hostCmdDev_runs hb (by simp only [he]; rfl)

/-! ### Tests and service (R455 to R478) -/

section
variable {p : Packet} {c : Core} {u : SUnit} {f : SUnit → Core}

/-- A command whose parameter names a unit runs on it. -/
theorem onUnit_some (hr : unitReserved (p.arg 0) = false) (hu : unitParam (p.arg 0) = some u) : onUnit p c f = f u := by
  rw [onUnit, hr, hu]
  rfl

theorem onUnit_none (hr : unitReserved (p.arg 0) = false) (hu : unitParam (p.arg 0) = none) :
    onUnit p c f = c.finish p 0x620 [] := by
  rw [onUnit, hr, hu]
  rfl

end

/-- Settles O55. -/
theorem testsAndService : Obligations.TestsAndService := by
  intro s p c u
  dsimp only
  refine ⟨fun hb hr hu => ?_, fun hb hr hu => ?_, fun pass hv ho ht => ?_, fun pass hv h => ?_, fun hb hr hu h2 hc hs ha => ?_,
    fun hb hr hu h0 hc hs ha => ?_, fun hb hr hu h1 hc hs ha => ?_, fun hb hr hu h2 hc => ?_, fun hb hr hu h2 hc hs => ?_,
    fun hb hr hu hd => ?_, fun hb hr hu hd => ?_, fun hb h0 h1 h2 hq => ?_, fun hb h => ?_, fun hb h0 h1 h2 hq => ?_,
    fun failed sc i m hf hs hn => ?_, fun failed hf hs => ?_, fun det hv hd hl ha => ?_, fun det hv hd hl => ?_,
    fun c1 hb ha h => ?_, fun hb ha => ?_, fun hb hh ha => ?_, fun hb hh ha hr hu => ?_, fun hb hh => ?_, fun hd hh => ?_,
    fun hd => ?_⟩
  all_goals dsimp only [exec]
  · exact hostCmd_runs hb (onUnit_some hr hu)
  · exact hostCmd_runs hb (onUnit_none hr hu)
  · exact State.guard_runs hv (if_pos (by simp [ho, ht]))
  · exact State.guard_same hv (if_neg (by simpa [Decidable.or_iff_not_imp_left] using h))
  · refine hostCmd_runs hb ((onUnit_some hr hu).trans ((if_neg (Nat.not_le.mpr h2)).trans ?_))
    exact (if_neg (by simp [hc])).trans ((if_neg (by simp [hs])).trans (if_neg (by simp [ha])))
  · refine hostCmd_runs hb ((onUnit_some hr hu).trans ((if_neg (by omega)).trans ?_))
    refine (if_neg (by simp [hc])).trans ((if_neg (by simp [hs])).trans ((if_pos ha).trans ?_))
    simp only [h0, Nat.zero_ne_one, if_false]
    rfl
  · refine hostCmd_runs hb ((onUnit_some hr hu).trans ((if_neg (by omega)).trans ?_))
    refine (if_neg (by simp [hc])).trans ((if_neg (by simp [hs])).trans ((if_pos ha).trans ?_))
    simp only [h1, if_true]
    rfl
  · refine hostCmd_runs hb ((onUnit_some hr hu).trans ((if_neg (Nat.not_le.mpr h2)).trans ?_))
    exact if_pos (by simp [hc])
  · refine hostCmd_runs hb ((onUnit_some hr hu).trans ((if_neg (Nat.not_le.mpr h2)).trans ?_))
    exact (if_neg (by simp [hc])).trans (if_pos (by simp [hs]))
  · exact hostCmd_runs hb ((onUnit_some hr hu).trans (if_neg (by simp [hd])))
  · exact hostCmd_runs hb ((onUnit_some hr hu).trans (if_pos (by simp [hd])))
  · refine hostCmd_runs hb ((if_neg ?_).trans ((if_neg ?_).trans ?_))
    · simp [h0, h1, h2]
    · simp [hq, h2]
    · simp only [h0, h1, h2, Nat.zero_ne_one, decide_false]
      rfl
  · exact hostCmd_runs hb (if_pos (h.imp_right Or.inl))
  · refine hostCmd_runs hb ((if_neg ?_).trans (if_pos ?_))
    · rw [h0, h1]
      simp [h2]
    · exact Or.inl (by simp [hq])
  · refine State.guard_runs hf ?_
    split
    case h_1 hn' =>
      cases hn.symm.trans hn'
      rfl
    case h_2 h => exact absurd hn (h _ _ _ hs)
  · refine State.guard_same hf ?_
    split
    case h_1 ht _ => exact absurd ht hs
    case h_2 => rfl
  · exact State.guard_runs (by simp [hv, hd]) (if_pos ⟨hl, Or.inl ha⟩)
  · exact State.guard_same (by simp [hv, hd]) (if_neg fun h => absurd h.1 (Nat.ne_of_lt hl))
  · refine hostCmd_runs hb ((if_neg (not_not_intro ha)).trans ?_)
    rw [Dev.setC_c, h]
  · exact hostCmd_runs hb (if_pos ha)
  · exact hostCmd_runs hb ((if_neg (Nat.not_lt.mpr hh)).trans (if_pos ha))
  · exact hostCmd_runs hb ((if_neg (Nat.not_lt.mpr hh)).trans ((if_neg ha).trans (onUnit_some hr hu)))
  · exact hostCmd_runs hb (if_pos hh)
  · exact State.onCore_next (if_pos ⟨hd, hh⟩)
  · exact State.onCore_same (if_neg (by simp [hd]))

/-! ### BAR2 and the sideband (R24, R28, R428, R429) -/

section
variable {s : State}

/-- While the auxiliary rail is up the sideband answers. -/
theorem State.answer_up {f : Dev → List Byte} (h : s.dev.pw.auxUp = true) :
    s.answer f = .next (s.setC { s.dev.c with out := s.dev.c.out ++ [.smbus (f s.dev)] }) := State.onCore_next (if_pos h)

theorem State.answer_down {f : Dev → List Byte} (h : s.dev.pw.auxUp = false) : s.answer f = .next s :=
  State.onCore_same (if_neg (by simp [h]))

end

/-- Settles O60. -/
theorem bar2AndSideband : Obligations.Bar2AndSideband := by
  intro s
  dsimp only
  refine ⟨fun off len n b ps0 ps hp hu hl hw hps h1 hq => ?_, fun off len data h1 h2 => ⟨?_, ?_⟩, fun off len hp hu hl h => ?_,
    fun off data a hp hu hl h h64 => ?_, fun off data n b a q hp hu hl hw h h64 h1 => ?_, fun off data hp hu hl h => ?_,
    fun h => ⟨?_, ?_, ?_, ?_, ?_, ?_, ?_, ?_⟩, fun code write h hc => ?_, fun h => ⟨?_, ?_, ?_⟩⟩
  all_goals dsimp only [exec]
  · refine State.onCore_next ((if_pos hl).trans ((if_neg (by simp [hp])).trans ?_))
    simp only [Core.portCheck_quiet (hu 0), hps, hw, h1, Option.getD_some]
    exact if_neg (by simpa using hq)
  · exact State.onCore_same (if_neg (Nat.not_le.mpr h1))
  · exact State.onCore_same (if_neg (Nat.not_le.mpr h2))
  · refine State.onCore_next ((if_pos hl).trans ((if_neg (by simp [hp])).trans ?_))
    simp only [Core.portCheck_quiet (hu 0), h]
  · refine State.onCore_next ((if_pos hl).trans ((if_neg (by simp [hp])).trans ?_))
    simp only [Core.portCheck_quiet (hu 0), h]
    cases hw : s.dev.c.window with
    | none => simp [h]
    | some w => simp [h, Nat.not_lt.mpr h64]
  · refine State.onCore_next ((if_pos hl).trans ((if_neg (by simp [hp])).trans ?_))
    simp only [Core.portCheck_quiet (hu 0), h, hw]
    simp [h64, h1]
  · refine State.onCore_next ((if_pos hl).trans ((if_neg (by simp [hp])).trans ?_))
    simp only [Core.portCheck_quiet (hu 0), h]
  · exact State.answer_up h
  · exact State.answer_up h
  · exact State.answer_up h
  · exact State.answer_up h
  · exact State.answer_up h
  · exact State.answer_up h
  · exact State.answer_up h
  · exact State.answer_up h
  · have hnack : (write || !(sbCodes.contains code)) = true := by
      rcases hc with rfl | hc
      · rfl
      · simpa [sbCodes] using Or.inr hc
    exact (if_pos hnack).trans (State.onCore_next (if_pos h))
  · exact State.answer_down h
  · exact State.answer_down h
  · exact State.answer_down h

end Sys2Proof.Machine
end

section
/-!
SUPPORT. Reductions, verdicts and liveness, pushes and dispatch. Obligations O40 to O42.
-/
namespace Sys2Proof.Machine
open Sys2Proof

/-! ### REDUCE and what arrives for it (R269 to R274, R357 to R362) -/

/-- Settles O40. -/
theorem reductions : Obligations.Reductions := by
  intro s n tset idx t
  dsimp only
  refine ⟨fun die r ts hd ha hs he hr ht hts hok hq => ?_, fun die r hd ha hs he => ?_,
    fun src job step sid tile count pslot sum hj ht hs => ?_, fun src job step sid tile count pslot sum hj ht hs => ?_,
    fun src job step sid tile count pslot sum hj => ?_, fun src job step sid pslot hj ht hs => ?_,
    fun at_ die ht hd hdie hn => ?_, fun at_ die ht hd hdie he hn => ?_⟩
  all_goals dsimp only [exec]
  · refine State.guard_runs hd ?_
    generalize hrd : s.dev.c.actionReads (.ru die) r.a.ctx _ = rd at *
    obtain ⟨c1, bad⟩ := rd
    cases hr
    unfold Core.reduceBegin
    simp only [ha, hs, if_neg he, hrd, Bool.false_eq_true, if_false]
    rw [List.findSome?_eq_none_iff.mpr ?trees]
    case trees =>
      simp only [List.mem_map, List.mem_range]
      rintro q ⟨i, hi, rfl⟩
      obtain ⟨o, ho⟩ := ht i hi
      rw [ho]
    subst hts
    refine (if_neg ?_).trans rfl
    simp only [hok, Bool.not_true, Bool.false_or, Bool.not_eq_true', Bool.not_eq_false]
    exact List.all_eq_true.mpr hq
  · refine State.guard_runs hd ?_
    unfold Core.reduceBegin
    simp only [ha, hs, he, Bool.false_eq_true, if_false, if_true]
  · exact State.onCore_next (by simp only [hj, ht, if_pos hs])
  · exact State.onCore_same (by simp only [hj, ht, hs, Bool.false_eq_true, if_false])
  · exact State.onCore_same (by simp only [hj])
  · exact State.onCore_next (by simp only [hj, ht, if_pos hs])
  · refine State.onCore_same ?_
    simp only [ht, hd, hdie, decide_eq_true hn, Bool.or_true, if_true]
  · refine State.onCore_next ?_
    simp only [ht, hd, hdie, he, decide_eq_false (Nat.not_lt.mpr hn), Bool.or_false, Bool.false_eq_true, if_false]

/-! ### The verdict node and liveness (R275 to R279, R338) -/

/-- Settles O41. -/
theorem verdictAndLiveness : Obligations.VerdictAndLiveness := by
  intro s n src job x j
  dsimp only
  refine ⟨fun die r hd ha hv => ?_, fun die r hd ha hv => ?_, fun v hj => ?_, fun v hj => ?_, fun v hj hb hp hl hr hs hv => ?_,
    fun v l hj hb hp hl hs => ?_, fun hx hb hr hst hs => ?_, fun hj => ?_, fun dev hx hb hn hl ht => ?_, fun dev hx hb ht => ?_,
    fun dev hj hb hd hv => ?_, fun dev hj hb hd hl => ?_⟩
  all_goals dsimp only [exec]
  · refine State.guard_runs hd ?_
    unfold Core.verdictAct
    simp only [ha, if_pos hv]
  · refine State.guard_runs hd ?_
    unfold Core.verdictAct
    simp only [ha, hv, Option.isSome_none, Bool.false_eq_true, if_false]
  · exact State.onCore_next (by simp only [hj])
  · exact State.onCore_same (by simp only [hj])
  · refine State.onCore_next ?_
    simp [hj, hb, hp, hl, hr, Nat.not_lt.mpr hs, Nat.not_lt.mpr hv]
  · refine State.onCore_next ?_
    simp [hj, hb, hp, hl, hs]
  · refine State.onCore_next ?_
    simp only [hx, hb]
    refine if_neg ?_
    cases hx : x.run with
    | none => simp [hst, hs]
    | some r => simp [hr r hx, hst, hs]
  · exact State.onCore_next (by simp only [hj])
  · refine State.onCore_next ?_
    simp only [hx, hb]
    exact if_neg (by simp [hn, hl, ht])
  · refine State.onCore_same ?_
    simp only [hx, hb]
    exact if_pos (by simp [ht])
  · refine State.onCore_next ?_
    simp only [hj, hb]
    exact if_pos ⟨hd, hv⟩
  · refine State.onCore_next ?_
    simp only [hj, hb]
    exact (if_neg fun h => hd h.1).trans (if_neg (by simp [hl]))

/-! ### Pushes and the expert exchange (R285 to R289, R363 to R368) -/

/-- Settles O42. -/
theorem pushesAndDispatch : Obligations.PushesAndDispatch := by
  intro s n src job
  dsimp only
  refine ⟨fun tag sid version off data last x e sh hj hx hr => ?_, fun tag sid version off data last x hj hx hr => ?_,
    fun entry v j h1 h2 hrole hv hd hj hl hp => ?_, fun entry h1 h2 hp => ?_, fun sid x e sh b hj hx ho hb => ?_,
    fun die r x j p hd ha hs he hx hok hj hr hp hpo hu => ?_, fun die r c3 hd ha hs he hdie hc hu h => ?_,
    fun dplan counts hj he hk => ?_, fun dplan counts hj hk => ?_, fun dplan grants k q hj hq h1 h2 h3 h4 => ?_,
    fun dplan lslot row tag off assign data hj => ?_, fun dplan assign tag off data hj => ?_⟩
  all_goals dsimp only [exec]
  · exact State.onCore_next (by simp only [hj, hx, Option.bind_some, hr])
  · exact State.onCore_next (by simp only [hj, hx, Option.bind_some, hr])
  · refine State.guard_runs (by simp [h1, h2]) ?_
    simp [hrole, hv, hd, hj, hl, hp]
  · refine State.guard_same (by simp [h1, h2]) ?_
    simp [hp]
  · refine State.onCore_next ?_
    simp only [hj, hx, Option.bind_some, ho, hb]
  · refine State.guard_runs hd ?_
    generalize hrd : s.dev.c.unitReads (.de die) r.a.ctx _ = rd at *
    obtain ⟨c1, bad⟩ := rd
    cases hr
    unfold Core.dispBegin
    simp [ha, hs, he, hx, hok, hj, hrd, hp, hpo, Core.checks_quiet (u := .de die) hu]
  · refine State.guard_runs hd ?_
    unfold Core.combBegin
    simp [ha, hs, he, Option.isSome_iff_ne_none.mp hdie, hc, Core.checks_quiet (u := .de die) hu, h]
  · refine State.onCore_next ?_
    simp [hj, he, hk]
  · refine State.onCore_next ?_
    simp [hj, hk]
  · refine State.onCore_next ?_
    simp [hj, hq, h1, h2, h3, h4]
  · exact State.onCore_next (by simp only [hj])
  · exact State.onCore_next (by simp only [hj])

end Sys2Proof.Machine
end

section
/-!
SUPPORT. Remote requests, flits and link training. Obligations O43 to O45.
-/
namespace Sys2Proof.Machine
open Sys2Proof

/-! ### Remote requests (R350 to R356) -/

section
variable {c : Core} {i n : Nat} {r : ReadWait} {j : Job}

/-- A READ within the job's memory whose bytes are there is served once the reply's credits are held. -/
theorem Core.serveRead_waits (hr : c.reads[i]? = some r) (hc : c.jobCtx r.job = some n) (hj : c.job? n = some j)
    (hf : farRange r.addr r.len = true) {b : List Byte} (hb : c.readBytes n r.addr r.len = .ok b)
    (hq : c.replyReady r.src (flitsOf (4 + (readPayload 0 (c.versions n r.addr r.len) b).length + (if j.enc then 16 else 0)))
      j.enc = false) : c.serveRead i = c := by
  unfold Core.serveRead
  simp only [hr, hc, hj, hf, hb, hq, if_true, Bool.not_false]

theorem Core.serveRead_serves (hr : c.reads[i]? = some r) (hc : c.jobCtx r.job = some n) (hj : c.job? n = some j)
    (hf : farRange r.addr r.len = true) {b : List Byte} (hb : c.readBytes n r.addr r.len = .ok b)
    (hq : c.replyReady r.src (flitsOf (4 + (readPayload 0 (c.versions n r.addr r.len) b).length + (if j.enc then 16 else 0)))
      j.enc = true) {h : Core × Bool} (hh : c.hbmRead n r.addr r.len = h) {pl : List Byte}
    (hpl : (h.2 = false ∧ ∃ b1, h.1.readBytes n r.addr r.len = .ok b1 ∧ pl = readPayload 0 (h.1.versions n r.addr r.len) b1) ∨
      (h.2 = true ∧ pl = readPayload 3 [] [])) :
    c.serveRead i =
      (({ h.1 with reads := dropAt h.1.reads i } : Core).touchAt n r.addr).answer n r.src kReadData r.tag pl := by
  unfold Core.serveRead
  simp only [hr, hc, hj, hf, hb, hq, hh, if_true, Bool.not_true, Bool.false_eq_true, if_false]
  rcases hpl with ⟨h2, b1, hb1, rfl⟩ | ⟨h2, rfl⟩
  · simp only [h2, hb1, Bool.false_eq_true, if_false]
  · simp only [h2, if_true]

end

/-- Settles O43. -/
theorem remoteRequests : Obligations.RemoteRequests := by
  intro s n src job tag
  dsimp only
  refine ⟨fun addr len hj => ?_, fun addr len hj => ?_, fun i r j b hr hc hj hf hb => ⟨fun hq => ?_, fun hq h2 b1 hb1 => ?_,
    fun hq h2 => ?_⟩, fun addr data hj => ?_, fun st v data q d e hq hk ho => ?_, fun st v data hq => ?_,
    fun st q d e hq hk ho => ?_, fun st hq => ?_, fun q hq ho hs => ?_, fun q r hq ho hs hr hn hd => ?_⟩
  all_goals dsimp only [exec]
  · exact State.onCore_next (by simp only [hj])
  · exact State.onCore_same (by simp only [hj])
  · exact State.onCore_same (Core.serveRead_waits hr hc hj hf hb hq)
  · exact State.onCore_next (Core.serveRead_serves hr hc hj hf hb hq rfl (.inl ⟨h2, b1, hb1, rfl⟩))
  · exact State.onCore_next (Core.serveRead_serves hr hc hj hf hb hq rfl (.inr ⟨h2, rfl⟩))
  · exact State.onCore_next (by simp only [hj])
  · refine State.onCore_next ?_
    simp only [hq, hk, ho, ne_eq, not_true, if_false]
  · exact State.onCore_same (by simp only [hq])
  · refine State.onCore_next ?_
    unfold Core.writeDone
    simp only [hq, hk, ho, decide_true, Bool.true_or, Bool.not_true, Bool.false_eq_true, if_false]
  · refine State.onCore_same ?_
    unfold Core.writeDone
    simp only [hq]
  · refine State.onCore_next ?_
    unfold Core.requestTimeout
    simp only [hq, ho, if_neg (Nat.not_le.mpr hs), Bool.false_eq_true, if_false]
  · refine State.onCore_next ?_
    have hrun : ({ s.dev.c with requests := kdel s.dev.c.requests tag } : Core).running q.owner = some r := hr
    unfold Core.requestTimeout
    simp only [hq, ho, if_pos hs, hrun, hn, hd, Bool.false_eq_true, if_false, not_false_eq_true, and_self, if_true]

/-! ### Flits (R318 to R334) -/

section
variable {c : Core} {l : Nat}

theorem Core.inject_unarmed {b : SUnit} (h : c.unarmed b) (det : Nat) : c.inject b det = (none, c) := by
  unfold Core.inject
  simp only [h det, Bool.false_eq_true, if_false]

/-- With no injection armed at the link or its die a flit comes through its checks. -/
theorem Core.flitInjections_unarmed (hl : c.unarmed (.link l)) (hd : c.unarmed (.die (linkDie l))) :
    c.flitInjections l = (c, true) := by
  unfold Core.flitInjections
  simp only [Core.inject_unarmed hl, Core.inject_unarmed hd]

/-- What has been sent fewer than three times is sent again. -/
theorem Core.replayAll_again (hup : (c.link l).st = .up) (hne : (c.link l).replay ≠ [])
    (hf : ∀ f, f ∈ (c.link l).replay → f.replays < 2) :
    c.replayAll l = ((c.modLink l (fun k => { k with replay := k.replay.map (fun f => { f with replays := f.replays + 1 }) })).bump
      (linkBase l + 0x430) 32 1).emitKept l := by
  refine (if_neg (by simp [hup, hne])).trans (if_neg ?_)
  simp only [List.any_eq_true, decide_eq_true_eq, not_exists, not_and]
  intro f hmem
  have := hf f hmem
  omega

/-- An encrypted message whose tag fails does not open. -/
theorem Core.joinFlit_tagFails {f : Flit} {m : RxMsg} (hlast : f.last = true) (henc : m.enc = true) (htag : f.tagOk = false) :
    c.joinFlit l f m = (c.modLink l (fun k => { k with rx := kdel k.rx (f.src, f.mtag) })).tagFailed l
      { m with parts := m.parts ++ [(f.cls, flitHeader f, f.payload)] } := by
  unfold Core.joinFlit Core.opened
  simp only [hlast, henc, htag, Bool.not_true, Bool.false_eq_true, if_false]

end

section
variable {s : State} {l : Nat} {f : Flit}

/-- A flit in which nothing is detected, on a link that is up. -/
theorem execFlitReceive_clean {c1 c2 : Core} (hl : l < 36) (hup : (s.dev.c.link l).st = .up)
    (hc1 : c1 = s.dev.c.bump (linkBase l + 0x418) 64 1) (h1 : c1.unarmed (.link l)) (h2 : c1.unarmed (.die (linkDie l)))
    (h : (if f.crcOk = false then c1.flitFailed l else if f.kind = 1 then c1
      else if f.lseq = (s.dev.c.link l).rxSeq then c1.goodFlit l f
      else if ((s.dev.c.link l).rxSeq + 4096 - f.lseq) % 4096 ≤ 2048 then c1.ack l else c1) = c2) :
    execFlitReceive l f [] s = .next (s.setC c2) := by
  refine State.guard_runs (decide_eq_true hl) ((if_neg (not_not_intro hup)).trans ?_)
  subst hc1
  simp only [Core.flitUps, List.foldl_nil, Core.flitInjections_unarmed h1 h2, Bool.true_and, Bool.not_eq_true']
  exact h

end

/-- Settles O44. -/
theorem linkFlits : Obligations.LinkFlits := by
  intro s l hl
  dsimp only
  refine ⟨fun f hup h1 h2 hc hk hq => ?_, fun f hup h1 h2 hc hk hq hw => ?_, fun f hup h1 h2 hc hq => ?_,
    fun f hup h1 h2 hc => ?_, fun f m hlast henc htag => Core.joinFlit_tagFails hlast henc htag,
    fun f ups n cls hup hc1 hc3 => ⟨?_, ?_, ?_⟩, fun n f hup hf hn => ?_, ?_, ?_,
    fun hup hne hf => Core.replayAll_again hup hne hf, fun n hup => ?_, fun src tag hm => ?_, fun src tag m hm => ?_,
    fun n t ht hc hw => ?_, fun n t ht hc ha hu => ?_⟩
  all_goals dsimp only [exec]
  · exact execFlitReceive_clean hl hup rfl h1 h2 ((if_neg (by simp [hc])).trans ((if_neg hk).trans (if_pos hq)))
  · exact execFlitReceive_clean hl hup rfl h1 h2
      ((if_neg (by simp [hc])).trans ((if_neg hk).trans ((if_neg hq).trans (if_pos hw))))
  · refine execFlitReceive_clean hl hup rfl h1 h2 ((if_neg (by simp [hc])).trans ?_)
    rcases hq with hk | ⟨hq, hw⟩
    · exact if_pos hk
    · exact ite_eq_left_iff.mpr fun _ => (if_neg hq).trans (if_neg (Nat.not_le.mpr hw))
  · exact execFlitReceive_clean hl hup rfl h1 h2 (if_pos hc)
  · exact State.guard_same (decide_eq_true hl) (if_pos hup)
  · exact State.guard_same (decide_eq_true hl) (if_pos (Or.inl hup))
  · exact State.guard_same (by simp [hl, hc1, hc3]) (if_pos hup)
  · refine State.guard_runs (decide_eq_true hl) (if_neg ?_)
    have hany : (s.dev.c.link l).replay.any (fun f => f.lseq = n) = true := List.any_eq_true.mpr ⟨f, hf, by simp [hn]⟩
    simp [hup, hany]
  · exact State.guard_runs (decide_eq_true hl) rfl
  · exact State.guard_runs (decide_eq_true hl) rfl
  · exact State.guard_runs (by simp [hl]) (if_neg (not_not_intro hup))
  · exact State.guard_same (decide_eq_true hl) (by simp only [hm])
  · exact State.guard_runs (decide_eq_true hl) (by simp only [hm])
  · refine State.onCore_next ?_
    simp only [ht, hw]
    exact if_neg (by omega)
  · refine State.onCore_next ?_
    have hany : (s.dev.c.outLinks (kgetD s.dev.c.routes t.dst 0) 3).any (fun m => s.dev.c.linkUsable m 3 t.enc) = false := by
      simpa using hu
    simp only [ht, hc, hany, ha]
    rfl

/-! ### Training, keys and retraining (R335, R344 to R348, R436) -/

theorem farFits_iff {far : FarEnd} : farFits far = true ↔ far.isT1536 = true ∧ far.lanes = 8 ∧ far.rtt ≤ 1000 := by
  simp [farFits, and_assoc]

theorem farFits_not {far : FarEnd} (h : far.isT1536 = false ∨ far.lanes ≠ 8 ∨ 1000 < far.rtt) : ¬ farFits far = true := by
  rw [farFits_iff]
  rintro ⟨h1, h2, h3⟩
  rcases h with h | h | h
  · exact absurd (h1.symm.trans h) nofun
  · exact h h2
  · omega

section
variable {c : Core} {l : Nat} {far : FarEnd}

theorem Core.trained'_unarmed (hs : (c.link l).st = .training) (he : (c.link l).enabled = true)
    (hu : c.usable (.link l) = true) (hi : c.unarmed (.link l)) :
    c.trained' l far = if farFits far then
        (((c.announce l far.rtt).modLink l (fun k => { k with
          st := .up, drain := false, far := some far, credReply := 16384, credBulk := 40960, credEscape := 8192, txSeq := 0,
          rxSeq := 0, replay := [], rx := [], nakked := false, slots := 7, local_ := [] })).keyFlit l).pump
      else (c.announce l far.rtt).modLink l (fun k => { k with st := .down }) := by
  unfold Core.trained'
  simp only [hs, he, hu, Core.injections_quiet hi, ne_eq, not_true, Bool.not_true, Bool.false_eq_true, or_false, if_false]

theorem Core.retrained_unarmed (hs : (c.link l).st = .retraining) (hi : c.unarmed (.link l)) :
    c.retrained l far = if farFits far then
        ((((c.announce l far.rtt).modLink l (fun k => { k with
          st := .up, far := some far, replay := k.replay.map (fun f => { f with replays := 0 }) })).emitKept l).keyFlit l).pump
      else ((c.announce l far.rtt).linkLost l).pump := by
  unfold Core.retrained
  simp only [hs, Core.injections_quiet hi, ne_eq, not_true, if_false]

end

/-- Settles O45. -/
theorem linkTraining : Obligations.LinkTraining := by
  intro s l hl
  dsimp only
  refine ⟨fun far hs he hu hi h1 h2 h3 => ?_, fun far hs he hu hi h => ?_, fun far h => ?_, fun hs he hu h5 hr hd => ?_,
    fun hs => ?_, fun far hs hi h1 h2 h3 => ?_, fun far hs hi h => ?_, fun hs => ?_, fun far hs => ⟨?_, ?_⟩,
    fun pl key hs hp hk => ?_, fun pl hs hp hk => ?_, fun hk hkey => ?_, fun hk => ?_⟩
  all_goals dsimp only [exec]
  · exact State.guard_runs (decide_eq_true hl) ((Core.trained'_unarmed hs he hu hi).trans (if_pos (farFits_iff.mpr ⟨h1, h2, h3⟩)))
  · exact State.guard_runs (decide_eq_true hl) ((Core.trained'_unarmed hs he hu hi).trans (if_neg (farFits_not h)))
  · exact State.guard_same (decide_eq_true hl) (if_pos (by simpa using h))
  · exact State.guard_runs (decide_eq_true hl) (if_pos ⟨hs, he, hu, h5, hr, hd⟩)
  · exact State.guard_runs (decide_eq_true hl) (if_pos hs)
  · exact State.guard_runs (decide_eq_true hl) ((Core.retrained_unarmed hs hi).trans (if_pos (farFits_iff.mpr ⟨h1, h2, h3⟩)))
  · exact State.guard_runs (decide_eq_true hl) ((Core.retrained_unarmed hs hi).trans (if_neg (farFits_not h)))
  · exact State.guard_runs (decide_eq_true hl) (if_pos hs)
  · exact State.guard_same (decide_eq_true hl) (if_pos hs)
  · exact State.guard_same (decide_eq_true hl) (if_neg hs)
  · refine State.guard_runs (decide_eq_true hl) ((if_neg (by simp [hs, hp])).trans ?_)
    simp only [hk]
  · refine State.guard_runs (decide_eq_true hl) ((if_neg (by simp [hs, hp])).trans ?_)
    simp only [hk]
  · exact State.guard_runs (decide_eq_true hl) (if_pos ⟨hk, hkey⟩)
  · exact State.guard_same (decide_eq_true hl) (if_neg fun h => absurd h.1 (Nat.not_le.mpr hk))

end Sys2Proof.Machine
end

section
/-!
SUPPORT. The sequencer: issue of records, forks and tokens. Obligations O27, O28, O31.
-/
namespace Sys2Proof.Machine
open Sys2Proof

/-! ### Forks (R62 to R64) -/

/-- Searched downwards, the first place that counts is the highest. -/
theorem find?_range_reverse {f : Nat → Nat} {v k : Nat} (hk : k ≤ v) (hne : f k ≠ 0) (h : ∀ j, k < j → j ≤ v → f j = 0) :
    ((List.range (v + 1)).reverse.map f).find? (· ≠ 0) = some (f k) := by
  induction v with
  | zero =>
    cases Nat.le_zero.mp hk
    simp [hne]
  | succ v ih =>
    rw [List.range_succ, List.reverse_append, List.reverse_singleton, List.singleton_append, List.map_cons, List.find?_cons]
    rcases Nat.lt_or_ge v k with hlt | hle
    · cases Nat.le_antisymm hk hlt
      simp [hne]
    · simp only [h (v + 1) (Nat.lt_succ_of_le hle) (Nat.le_refl _), ne_eq, not_true, decide_false]
      exact ih hle fun j hj hv => h j hj (Nat.le_succ_of_le hv)

theorem chosen_highest {w value v k : Nat}
    (hv : v = b2n (forkT w 1 ≤ value) + b2n (forkT w 2 ≤ value) + b2n (forkT w 3 ≤ value)) (hk : k ≤ v) (hne : forkVar w k ≠ 0)
    (h : ∀ j, k < j → j ≤ v → forkVar w j = 0) : chosen w value = forkVar w k := by
  unfold chosen
  rw [← hv]
  simp only [find?_range_reverse hk hne h]

/-- Settles O28: the search for a variant runs down from the value's own. -/
theorem forkChoosesByThresholds : Obligations.ForkChoosesByThresholds := by
  intro w value v hv
  refine ⟨fun hne => chosen_highest hv (Nat.le_refl v) hne fun j h1 h2 => absurd h2 (Nat.not_le.mpr h1), by simp [forkVar],
    fun k hk hne h => chosen_highest hv hk hne h⟩

/-! ### Issue (R53, R65 to R69) -/

/-- The first test of an issue: the record is of the row's class and may be issued. -/
theorem mayGo {cls k : Nat} {may : Bool} (hc : cls = k) (hm : may = true) : ¬ (decide (cls ≠ k) || !may) = true := by
  simp [hc, hm]

theorem mayGo' {cls k : Nat} {may : Bool} (hc : cls = k) (hm : may = true) : ¬ (!may || decide (cls ≠ k)) = true := by
  simp [hc, hm]

/-- Events that all wait for a completion: none forms at once. -/
theorem filter_left_zero {l : List PendEv} (h : ∀ e, e ∈ l → e.left ≠ 0) :
    l.filter (fun e => e.left = 0) = [] ∧ l.filter (fun e => e.left ≠ 0) = l :=
  ⟨List.filter_eq_nil_iff.mpr fun e he => by simp [h e he], List.filter_eq_self.mpr fun e he => by simp [h e he]⟩

/-- Settles O27: the record's class and the checks of its fetch choose the branch. -/
theorem recordIssue : Obligations.RecordIssue := by
  intro s n r g hrun
  dsimp only
  refine ⟨fun hc hm hp hw => ?_, fun hc hm => ?_, fun hc hm hp => ?_, fun hc hm hp hw hl => ?_, fun hc hm hp hw hs => ?_,
    fun hc hm hp j rest hf => ?_, fun hc ha hm hp => ?_, fun ha hc hm hp => ?_, fun hc ha hm hq hp => ?_⟩
  all_goals dsimp only [exec]
  · refine State.onCore_next ?_
    simp only [hrun]
    exact (if_neg (mayGo hc hm)).trans ((if_neg (Bool.eq_false_iff.mp hp)).trans (if_pos (by rw [hw]; rfl)))
  · refine State.onCore_same ?_
    simp only [hrun]
    exact if_pos (by rw [hm, Bool.not_false, Bool.or_true])
  · refine State.onCore_next ?_
    simp only [hrun]
    exact (if_neg (mayGo hc hm)).trans (if_pos hp)
  · obtain ⟨hnow, hlater⟩ := filter_left_zero hl
    refine State.onCore_next ?_
    simp only [hrun]
    refine (if_neg (mayGo hc hm)).trans ((if_neg (Bool.eq_false_iff.mp hp)).trans ((if_neg (by rw [hw]; nofun)).trans ?_))
    rw [hnow, hlater]
    rfl
  · refine State.onCore_next ?_
    simp only [hrun]
    refine (if_neg (mayGo hc hm)).trans ((if_neg (Bool.eq_false_iff.mp hp)).trans ((if_neg (by rw [hw, hs]; nofun)).trans ?_))
    simp only [hs]
  · refine State.onCore_next ?_
    simp only [hrun]
    refine (if_neg (mayGo hc hm)).trans ((if_neg (Bool.eq_false_iff.mp hp)).trans ?_)
    simp only [hf]
  · refine State.onCore_next ?_
    simp only [hrun, ha, Option.isSome_none, Bool.false_eq_true, if_false]
    exact (if_neg (mayGo' hc hm)).trans (if_neg (Bool.eq_false_iff.mp hp))
  · refine State.onCore_next ?_
    simp only [hrun, ha, if_true]
    exact (if_neg (mayGo' hc hm)).trans (if_neg (Bool.eq_false_iff.mp hp))
  · refine State.onCore_next ?_
    simp only [hrun, ha, Option.isSome_none, Bool.false_eq_true, if_false]
    exact (if_neg (mayGo' hc hm)).trans (if_neg (by rw [hp, hq]; nofun))

/-! ### Tokens (R44) -/

theorem List.nodup_eraseDups {α : Type} [BEq α] [LawfulBEq α] : ∀ l : List α, l.eraseDups.Nodup
  | [] => by simp
  | a :: l => by
    have hlen : (l.filter (fun b => !b == a)).length < (a :: l).length := Nat.lt_succ_of_le (List.length_filter_le _ _)
    rw [List.eraseDups_cons, List.nodup_cons]
    exact ⟨by simp, List.nodup_eraseDups _⟩
termination_by l => l.length
decreasing_by exact hlen

theorem tokPlace_injective (u : UnitId) : Function.Injective (tokPlace u) := by
  intro a b h
  cases a <;> cases b <;> cases u <;> simp_all [tokPlace, UnitId.place]

/-- An action waits on each token of a place once. -/
theorem actWaits_nodup (u : UnitId) (w : Nat) : ((actWaits w).map (fun w => (w.2, tokPlace u w.1))).Nodup := by
  unfold actWaits
  refine List.Pairwise.map _ (fun a b hne h => hne ?_) (List.nodup_eraseDups _)
  obtain ⟨loc, tok⟩ := a
  obtain ⟨loc', tok'⟩ := b
  cases show tok = tok' from congrArg (fun q => q.1) h
  cases tokPlace_injective u (congrArg (fun q => q.2) h)
  rfl

/-- Counts raised once for each of a list of waits. -/
theorem kgetD_foldl_raise {s v : Option UnitId} {k : Nat} {pl : TokPlace} {ws : List (Nat × TokPlace)} (hn : ws.Nodup)
    (m : KMap (Nat × TokPlace × Option UnitId) Nat) :
    kgetD (ws.foldl (fun m w => kset m (w.1, w.2, s) (kgetD m (w.1, w.2, s) 0 + 1)) m) (k, pl, v) 0 =
      kgetD m (k, pl, v) 0 + if v = s ∧ (k, pl) ∈ ws then 1 else 0 := by
  induction ws generalizing m with
  | nil => simp
  | cons w ws ih =>
    obtain ⟨hw, hn⟩ := List.nodup_cons.mp hn
    rw [List.foldl_cons, ih hn]
    by_cases he : (k, pl, v) = (w.1, w.2, s)
    · cases he
      rw [kgetD_kset_self, if_neg fun h => hw h.2, if_pos ⟨rfl, List.mem_cons_self⟩]
    · have hmem : (v = s ∧ (k, pl) ∈ w :: ws) ↔ (v = s ∧ (k, pl) ∈ ws) := by
        simp only [List.mem_cons]
        refine and_congr_right fun hv => or_iff_right fun hw => he ?_
        rw [hv, ← hw]
      simp only [kgetD_kset_ne _ _ _ he, hmem]

/-- No subscriber has consumed an event that has not occurred. -/
def Core.Conserves (c : Core) : Prop := ∀ k pl v, c.consumed k pl v ≤ c.events k pl

/-- Consuming waits that are met consumes nothing that has not occurred. -/
theorem Core.consume_conserves {c : Core} {s : Option UnitId} {ws : List (Nat × TokPlace)} (hn : ws.Nodup) (hm : c.waitsMet s ws = true)
    (h : c.Conserves) : (c.consume s ws).Conserves := by
  intro k pl v
  have heq : (c.consume s ws).consumed k pl v = c.consumed k pl v + if v = s ∧ (k, pl) ∈ ws then 1 else 0 :=
    kgetD_foldl_raise hn c.used
  rw [heq]
  split
  case isTrue hk =>
    obtain ⟨rfl, hk⟩ := hk
    exact of_decide_eq_true (List.all_eq_true.mp hm _ hk)
  case isFalse => exact h k pl v

theorem Core.inject_zero {c : Core} {b : SUnit} {det : Nat} (h : c.rget (injAddr b det) = 0) : c.inject b det = (none, c) := by
  unfold Core.inject
  rw [h]
  rfl

/-- With no injection armed at the unit the beginning of an action changes its column only. -/
theorem Core.startAction_eq {c : Core} {u : UnitId} (hi : c.rget (injAddr u.sunit 0) = 0) (col : Column) (a : ActionInst)
    (q : List ActionInst) (ended : Bool) : ∃ co, c.startAction u col a q ended = { c with cols := co } := by
  unfold Core.startAction
  dsimp only
  split
  · exact ⟨_, rfl⟩
  · have hinject : ∀ co, ({ c with cols := co } : Core).inject u.sunit 0 = (none, { c with cols := co }) :=
      fun co => Core.inject_zero hi
    rw [hinject]
    exact ⟨_, rfl⟩

theorem Core.startAction_conserves {c : Core} {u : UnitId} (hi : c.rget (injAddr u.sunit 0) = 0) (h : c.Conserves) {col : Column}
    {a : ActionInst} {q : List ActionInst} {ended : Bool} : (c.startAction u col a q ended).Conserves := by
  obtain ⟨co, he⟩ := Core.startAction_eq hi col a q ended
  rw [he]
  exact h

/-- Settles O31: an action that begins consumes waits that are met, each once. -/
theorem tokenConservation : Obligations.TokenConservation := by
  intro s t u h hi hrun
  obtain ⟨-, rfl⟩ := State.guard_next hrun
  change Core.Conserves _
  have h : s.dev.c.Conserves := h
  dsimp only
  split
  case h_1 => exact h
  case h_2 col hcol =>
    split
    case h_2 => exact h
    case h_1 a q hrun hq =>
      refine iteInduction (motive := Core.Conserves) (fun _ => h) fun _ => iteInduction (motive := Core.Conserves)
        (fun _ => Core.startAction_conserves hi h) fun _ => iteInduction (motive := Core.Conserves) (fun _ => h) fun hw => ?_
      have hwait : s.dev.c.waitsMet (some u) ((actWaits a.bits).map (fun w => (w.2, tokPlace u w.1))) = true ∧
          s.dev.c.verdictHeld a = false := by
        simpa using hw
      exact Core.startAction_conserves (c := s.dev.c.consume _ _) hi
        (Core.consume_conserves (actWaits_nodup u a.bits) hwait.1 h)

end Sys2Proof.Machine
end

section
/-!
SUPPORT. Number formats: rounding to a quantum and the scale of a survey. Obligations O34, O35.
-/
namespace Sys2Proof.Machine
open Sys2Proof

/-! ### Rounding (R120, R124) -/

section
variable (neg : Bool) (m k : Nat) (e : Int)

theorem roundAt_exact (r : Rnd) (h : m % 2 ^ k = 0) : roundAt r neg m e (e + k) = m / 2 ^ k := by
  unfold roundAt
  cases k with
  | zero => simp [shiftUp]
  | succ k =>
    rw [if_neg (by omega), show (e + (k + 1 : Nat) - e).toNat = k + 1 by omega]
    exact if_pos h

theorem roundAt_ne (h : m % 2 ^ k ≠ 0) : roundAt .ne neg m e (e + k) =
    if 2 * (m % 2 ^ k) > 2 ^ k ∨ (2 * (m % 2 ^ k) = 2 ^ k ∧ m / 2 ^ k % 2 = 1) then m / 2 ^ k + 1 else m / 2 ^ k := by
  unfold roundAt
  cases k with
  | zero => exact absurd (Nat.mod_one m) h
  | succ k =>
    rw [if_neg (by omega), show (e + (k + 1 : Nat) - e).toNat = k + 1 by omega]
    exact if_neg h

theorem roundAt_st (r : BitVec 16) (h : m % 2 ^ k ≠ 0) : roundAt (.st r) neg m e (e + k) =
    if neg then (if r.toNat < 65536 * (2 ^ k - m % 2 ^ k) / 2 ^ k then m / 2 ^ k else m / 2 ^ k + 1)
    else (if r.toNat < 65536 * (m % 2 ^ k) / 2 ^ k then m / 2 ^ k + 1 else m / 2 ^ k) := by
  unfold roundAt
  cases k with
  | zero => exact absurd (Nat.mod_one m) h
  | succ k =>
    rw [if_neg (by omega), show (e + (k + 1 : Nat) - e).toNat = k + 1 by omega]
    exact if_neg h

end

/-- Nearest, ties to even: a value of quotient n, remainder r at unit p. -/
theorem nearest_even {n r p near : Nat} (hr : r < p) (hz : r = 0 → near = n)
    (hn : r ≠ 0 → near = if 2 * r > p ∨ (2 * r = p ∧ n % 2 = 1) then n + 1 else n) :
    (2 * (near * p) ≤ 2 * (p * n + r) + p ∧ 2 * (p * n + r) ≤ 2 * (near * p) + p) ∧
    (2 * (near * p) = 2 * (p * n + r) + p ∨ 2 * (p * n + r) = 2 * (near * p) + p → near % 2 = 0) := by
  have hmul : (n + 1) * p = p * n + p := by rw [Nat.succ_mul, Nat.mul_comm]
  by_cases h0 : r = 0
  · rw [hz h0, Nat.mul_comm n p]
    omega
  · rw [hn h0]
    split
    · rw [hmul]
      omega
    · rw [Nat.mul_comm n p]
      omega

/-- Settles O35: the branches of a rounding, by the remainder. -/
theorem rounding : Obligations.Rounding := by
  intro neg m k e r near sto
  have hnear := nearest_even (n := m / 2 ^ k) (near := near) (Nat.mod_lt m (Nat.two_pow_pos k))
    (fun h => roundAt_exact neg m k e .ne h) (fun h => roundAt_ne neg m k e h)
  rw [Nat.div_add_mod] at hnear
  obtain ⟨hbound, heven⟩ := hnear
  refine ⟨hbound, heven, fun h => ?_, fun h hneg => ?_, fun h hneg => ?_⟩
  · exact (congrArg (· * 2 ^ k) (roundAt_exact neg m k e (.st r) h)).trans (Nat.div_mul_cancel (Nat.dvd_of_mod_eq_zero h))
  · exact (roundAt_st neg m k e r h).trans (if_neg (by simp [hneg]))
  · exact (roundAt_st neg m k e r h).trans (if_pos hneg)

/-! ### The scale of a survey (R118) -/

/-- The magnitude of an exact value in units of 2^q, where its exponent is q or more. -/
def Dy.units (d : Dy) (q : Int) : Nat := shiftUp d.m d.e q

section
variable {a b d : Dy} {q : Int}

theorem Dy.units_eq_zero : d.units q = 0 ↔ d.m = 0 := by
  refine ⟨fun h => (Nat.mul_eq_zero.mp h).resolve_right (Nat.ne_of_gt (Nat.two_pow_pos _)), fun h => ?_⟩
  rw [Dy.units, shiftUp, h, Nat.zero_mul]

/-- Finer units: as many more as the quotient of the two. -/
theorem Dy.units_finer {p : Int} (hq : q ≤ p) (hp : p ≤ d.e) : d.units q = d.units p * 2 ^ (p - q).toNat := by
  have hexp : (d.e - q).toNat = (d.e - p).toNat + (p - q).toNat := by omega
  simp only [Dy.units, shiftUp, hexp, Nat.pow_add, Nat.mul_assoc]

/-- The comparison of magnitudes compares them in any common units. -/
theorem Dy.magLt_iff (ha : q ≤ a.e) (hb : q ≤ b.e) : a.magLt b = true ↔ a.units q < b.units q := by
  have hq : q ≤ min a.e b.e := Int.le_min.mpr ⟨ha, hb⟩
  rw [Dy.units_finer hq (Int.min_le_left _ _), Dy.units_finer hq (Int.min_le_right _ _),
    Nat.mul_lt_mul_right (Nat.two_pow_pos _)]
  exact decide_eq_true_iff

/-- The exponent of a value is that of its magnitude. -/
theorem Dy.flog_eq (h : d.m ≠ 0) (hq : q ≤ d.e) : d.flog = Nat.log2 (d.units q) + q := by
  have hlog : Nat.log2 (d.units q) = Nat.log2 d.m + (d.e - q).toNat := by
    rw [Nat.log2_eq_iff fun h0 => h (Dy.units_eq_zero.mp h0), Nat.add_right_comm, Nat.pow_add, Nat.pow_add]
    exact ⟨Nat.mul_le_mul_right _ (Nat.log2_self_le h), (Nat.mul_lt_mul_right (Nat.two_pow_pos _)).mpr Nat.lt_log2_self⟩
  unfold Dy.flog
  omega

/-- The later of two values where it is larger in magnitude. -/
def Dy.larger (a d : Dy) : Dy := if a.magLt d then d else a

theorem Dy.larger_spec (ha : q ≤ a.e) (hd : q ≤ d.e) : (a.larger d = a ∨ a.larger d = d) ∧
    a.units q ≤ (a.larger d).units q ∧ d.units q ≤ (a.larger d).units q := by
  unfold Dy.larger
  split
  case isTrue h => exact ⟨.inr rfl, Nat.le_of_lt ((Dy.magLt_iff ha hd).mp h), Nat.le_refl _⟩
  case isFalse h => exact ⟨.inl rfl, Nat.le_refl _, Nat.not_lt.mp fun hlt => h ((Dy.magLt_iff ha hd).mpr hlt)⟩

/-- The largest magnitude of a list, found from left to right. -/
theorem Dy.foldl_larger {l : List Dy} (hd : q ≤ d.e) (hl : ∀ b, b ∈ l → q ≤ b.e) :
    (l.foldl Dy.larger d = d ∨ l.foldl Dy.larger d ∈ l) ∧ d.units q ≤ (l.foldl Dy.larger d).units q ∧
      ∀ b, b ∈ l → b.units q ≤ (l.foldl Dy.larger d).units q := by
  induction l generalizing d with
  | nil => simp
  | cons c l ih =>
    have hc := hl c List.mem_cons_self
    obtain ⟨hone, hfirst, hsecond⟩ := Dy.larger_spec hd hc
    have hq : q ≤ (d.larger c).e := by rcases hone with h | h <;> rwa [h]
    obtain ⟨hmem, hle, hall⟩ := ih hq fun b hb => hl b (List.mem_cons_of_mem _ hb)
    rw [List.foldl_cons]
    refine ⟨?_, Nat.le_trans hfirst hle, fun b hb => ?_⟩
    · rcases hmem with h | h
      · rcases hone with hs | hs
        · exact .inl (h.trans hs)
        · exact .inr (List.mem_cons.mpr (.inl (h.trans hs)))
      · exact .inr (List.mem_cons_of_mem _ h)
    · rcases List.mem_cons.mp hb with rfl | hb
      · exact Nat.le_trans hsecond hle
      · exact hall b hb

end

/-- Exact values have common units. -/
theorem Dy.exists_units : ∀ l : List Dy, ∃ q : Int, q ≤ 0 ∧ ∀ b, b ∈ l → q ≤ b.e
  | [] => ⟨0, Int.le_refl 0, nofun⟩
  | d :: l => by
    obtain ⟨q, h0, hq⟩ := Dy.exists_units l
    refine ⟨min d.e q, Int.le_trans (Int.min_le_right _ _) h0, List.forall_mem_cons.mpr ⟨Int.min_le_left _ _, fun b hb => ?_⟩⟩
    exact Int.le_trans (Int.min_le_right _ _) (hq b hb)

/-- A survey of finite values: the scale of the largest. -/
theorem surveyScale_fin {fmt : Nat} {l : List Dy} {r : Dy} (h : l.foldl Dy.larger { neg := false, m := 0, e := 0 } = r) :
    surveyScale fmt (l.map Num.fin) =
      if r.m = 0 then 0 else (max (-127) (min 127 (r.flog - fmtEmax fmt)) + 127).toNat := by
  subst h
  unfold surveyScale
  simp only [List.foldl_map]
  exact if_neg (by simp)

/-- Settles O34: the largest magnitude that the survey finds is that of `a`. -/
theorem surveyScale' : Obligations.SurveyScale := by
  intro fmt l a hmem hmax
  obtain ⟨q, hq0, hq⟩ := Dy.exists_units l
  obtain ⟨hr, hle, hall⟩ := Dy.foldl_larger (d := { neg := false, m := 0, e := 0 }) hq0 hq
  have hrun := surveyScale_fin (fmt := fmt) (l := l) rfl
  generalize l.foldl Dy.larger { neg := false, m := 0, e := 0 } = r at *
  have hqr : q ≤ r.e := by
    rcases hr with rfl | hr
    · exact hq0
    · exact hq r hr
  have heq : r.units q = a.units q := by
    refine Nat.le_antisymm ?_ (hall a hmem)
    rcases hr with rfl | hr
    · exact Nat.le_trans (Nat.le_of_eq (Dy.units_eq_zero.mpr rfl)) (Nat.zero_le _)
    · exact Nat.not_lt.mp fun hlt => absurd ((Dy.magLt_iff (hq a hmem) hqr).mpr hlt) (by simp [hmax r hr])
  have hzero : r.m = 0 ↔ a.m = 0 := by rw [← Dy.units_eq_zero (q := q), heq, Dy.units_eq_zero]
  refine ⟨fun h => hrun.trans (if_pos (hzero.mpr h)), fun h => ?_⟩
  have hr0 : r.m ≠ 0 := fun h0 => h (hzero.mp h0)
  rw [hrun, if_neg hr0, Dy.flog_eq hr0 hqr, heq, ← Dy.flog_eq h (hq a hmem)]
  omega

end Sys2Proof.Machine
end

section
/-!
SUPPORT. The products and the vector actions. Obligations O32, O33.
-/
namespace Sys2Proof.Machine
open Sys2Proof

/-! ### Vector actions (R153) -/

section
variable {s : State} {cell op : Nat} {r : RunAct} {j : VecJob} {prep : Core → UnitId → ActionInst → Except (Nat × Nat) VecJob}

/-- A vector action that is ready reaches its completion point. -/
theorem Core.vector_ready {c : Core} (h : c.vecReady cell op prep r j) : c.vector cell op [] prep = c.vecDone cell r j := by
  obtain ⟨ha, hp, hh, hc, hu⟩ := h
  unfold Core.vector
  simp only [ha, hp, hh, hc, Core.checks_quiet (u := .cell cell .v) hu, Bool.false_eq_true, if_false]
  rfl

/-- A SOFTMAX row runs only where the word's function is its own. -/
theorem Core.softmax_ready {c : Core} {fn : Nat} (h : c.vecReady cell 0x37 prep r j) (hf : vFUNC r.a.bits = fn) :
    c.softmax cell fn [] prep = c.vecDone cell r j := by
  have ha := h.1
  unfold Core.softmax
  simp only [ha, hf, if_true]
  exact Core.vector_ready h

end

/-- Settles O33. -/
theorem vectorActions : Obligations.VectorActions := by
  intro s cell r j hcell
  refine ⟨fun h => ?_, fun h => ?_, fun h => ?_, fun h => ?_, fun h => ?_, fun h hf => ?_, fun h hf => ?_, fun h hf => ?_,
    fun ups e ha hp => ?_, fun ups ha hp hh => ?_, fun ups ha hp hh hc => ?_⟩
  all_goals dsimp only [exec]
  · exact State.guard_runs (decide_eq_true hcell) (Core.vector_ready h)
  · exact State.guard_runs (decide_eq_true hcell) (Core.vector_ready h)
  · exact State.guard_runs (decide_eq_true hcell) (Core.vector_ready h)
  · exact State.guard_runs (decide_eq_true hcell) (Core.vector_ready h)
  · exact State.guard_runs (decide_eq_true hcell) (Core.vector_ready h)
  · exact State.guard_runs (decide_eq_true hcell) (Core.softmax_ready h hf)
  · exact State.guard_runs (decide_eq_true hcell) (Core.softmax_ready h hf)
  · exact State.guard_runs (decide_eq_true hcell) (Core.softmax_ready h hf)
  · refine State.guard_runs (decide_eq_true hcell) ?_
    unfold Core.vector
    simp only [ha, hp]
  · refine State.guard_same (decide_eq_true hcell) ?_
    unfold Core.vector
    simp only [ha, hp, if_pos hh]
  · refine State.guard_runs (decide_eq_true hcell) ?_
    unfold Core.vector
    simp only [ha, hp, hh, if_pos hc, Bool.false_eq_true, if_false]

/-! ### Products (R150, R464) -/

/-- The B engine's pairs take the tiles in the same order. -/
theorem tilePairs_map_snd (both : Bool) (l : List (Nat × Nat)) : (tilePairs both l).map (fun g => g.2) = l := by
  induction l using tilePairs.induct both with
  | case1 t s l hb ih => rw [tilePairs, if_pos hb, List.map_cons, List.map_cons, ih]
  | case2 t s l hb ih => rw [tilePairs, if_neg hb, List.map_cons, ih]
  | case3 t => rfl
  | case4 => rfl

/-- A line written leaves the registers as they are. -/
theorem Prod.line_reg (p : Prod) (c0 : Core) (acc : Core × Report) (r tb : Nat) : (p.line c0 acc r tb).1.reg = acc.1.reg := by
  unfold Prod.line
  split
  · dsimp only
    split <;> rfl
  · rfl

theorem Prod.tile_reg (p : Prod) (c0 : Core) (acc : Core × Report) (t : Nat × Nat) : (p.tile c0 acc t).1.reg = acc.1.reg := by
  unfold Prod.tile
  induction List.range 32 generalizing acc with
  | nil => rfl
  | cons i l ih => exact (ih _).trans (p.line_reg ..)

theorem Core.unarmed_of_reg {c c1 : Core} {b : SUnit} (h : c.unarmed b) (hr : c1.reg = c.reg) : c1.unarmed b := by
  intro det
  have := h det
  unfold Core.rget at this ⊢
  rwa [hr]

/-- With nothing detected the tiles are formed in turn, and the action ends. -/
theorem Core.formTiles_quiet {u : UnitId} {a : ActionInst} {p : Prod} {c0 c : Core} (hu : c.unarmed u.sunit) (rep : Report)
    (done : List (Nat × Nat)) (gs : List (List (Nat × Nat) × (Nat × Nat))) :
    let w := (gs.map (fun g => g.2)).foldl (fun acc t => p.tile c0 acc t) (c, rep)
    Core.formTiles u a p c0 [] c rep done gs = (w.1.productEnd u a p c0 w.2 (done ++ gs.map (fun g => g.2))).actDone u := by
  induction gs generalizing c rep done with
  | nil => simp [Core.formTiles]
  | cons g gs ih =>
    unfold Core.formTiles
    simp only [List.filter_nil, Core.checks_quiet hu, List.map_cons, List.foldl_cons]
    refine (ih (Core.unarmed_of_reg hu (p.tile_reg c0 (c, rep) g.2)) _ _).trans ?_
    rw [List.append_assoc]
    rfl

/-- An uncorrected detection without a block of its own ends the checks. -/
theorem Core.checks_upset {c : Core} {u : UnitId} {x : Upset} (hx : x.corrected = false) (hb : x.blk = none)
    (dets : List (Nat × Nat)) : c.checks u [x] dets = (c.errorAt u u.sunit x.det x.wher x.synd false, true) := by
  unfold Core.checks Core.detect
  simp [hx, hb]

/-- A product that is ready and meets no detection forms all its tiles. -/
theorem Core.product_ready {c : Core} {cell op : Nat} {k : CellUnit} {r : RunAct} {j : ProdJob} (h : c.prodReady cell k op r j) :
    let p := j.go c.freeCtr
    let w := (p.tiles c).foldl (fun acc t => p.tile c acc t) (c, Report.none)
    c.product cell k op [] = (w.1.productEnd (.cell cell k) r.a p c w.2 (p.tiles c)).actDone (.cell cell k) := by
  obtain ⟨ha, hp, hh, hc, hu⟩ := h
  have hform := Core.formTiles_quiet (u := .cell cell k) (a := r.a) (p := j.go c.freeCtr) (c0 := c) hu Report.none []
    (tilePairs (k = .b) ((j.go c.freeCtr).tiles c))
  rw [tilePairs_map_snd] at hform
  unfold Core.product
  simp only [ha, hp, hh, hc, List.filter_nil, Core.checks_quiet (u := .cell cell k) hu, Bool.false_eq_true, if_false]
  exact hform

/-- A product that meets one uncorrected detection: on no tile it ends the action at once, on the first tile (of the F engine) with
nothing of C written. -/
theorem Core.product_upset {c : Core} {cell op : Nat} {k : CellUnit} {r : RunAct} {j : ProdJob} {x : Upset}
    (h : c.prodReady cell k op r j) (hx : x.corrected = false) (hb : x.blk = none)
    (hs : ∀ t, t ∈ (j.go c.freeCtr).tiles c → (j.go c.freeCtr).struck t x = false) :
    c.product cell k op [x] = c.errorAt (.cell cell k) (.cell cell) x.det x.wher x.synd false := by
  obtain ⟨ha, hp, hh, hc, -⟩ := h
  have hfirst : [x].filter (fun x => x.corrected || !((j.go c.freeCtr).tiles c).any (fun t => (j.go c.freeCtr).struck t x)) = [x] := by
    simpa [hx] using hs
  unfold Core.product
  simp only [ha, hp, hh, hc, hfirst, Core.checks_upset hx hb, Bool.false_eq_true, if_false]
  rfl

theorem Core.product_struck {c : Core} {cell op : Nat} {r : RunAct} {j : ProdJob} {x : Upset} {t : Nat × Nat} {ts : List (Nat × Nat)}
    (h : c.prodReady cell .f op r j) (hx : x.corrected = false) (hb : x.blk = none) (ht : (j.go c.freeCtr).tiles c = t :: ts)
    (hs : (j.go c.freeCtr).struck t x = true) :
    c.product cell .f op [x] = (c.productEnd (.cell cell .f) r.a (j.go c.freeCtr) c Report.none []).errorAt (.cell cell .f)
      (.cell cell) x.det x.wher x.synd false := by
  obtain ⟨ha, hp, hh, hc, hu⟩ := h
  have hfirst : [x].filter (fun x => x.corrected || !((j.go c.freeCtr).tiles c).any (fun t => (j.go c.freeCtr).struck t x)) = [] := by
    simp [hx, ht, hs]
  have hpairs : ∃ gs, tilePairs false (t :: ts) = ([t], t) :: gs := by
    cases ts with
    | nil => exact ⟨_, rfl⟩
    | cons t' ts => exact ⟨_, rfl⟩
  obtain ⟨gs, hgs⟩ := hpairs
  have hone : [x].filter (fun x => if x.det = 3 then (j.go c.freeCtr).struck t x else [t].any (fun t => (j.go c.freeCtr).struck t x)) =
      [x] := by
    simp [hs]
  unfold Core.product
  simp only [ha, hp, hh, hc, hfirst, Core.checks_quiet (u := .cell cell .f) hu, Bool.false_eq_true, if_false]
  rw [ht, show decide (CellUnit.f = CellUnit.b) = false from rfl, hgs]
  have hups : [x].filter (fun x => !x.corrected) = [x] := by simp [hx]
  unfold Core.formTiles
  simp only [hups, hone, Core.checks_upset hx hb]
  rfl

/-- Settles O32. -/
theorem products : Obligations.Products := by
  intro s cell r j hcell
  dsimp only
  refine ⟨fun h => ?_, fun h => ?_, fun ups ha => ?_, fun ups e ha hp => ?_, fun ups ha hp hh => ?_, fun ups ha hp hh hc => ?_,
    fun x h hx hb hs => ?_, fun x t ts h hx hb ht hs => ?_⟩
  all_goals dsimp only [exec]
  · exact State.guard_runs (decide_eq_true hcell) (Core.product_ready h)
  · exact State.guard_runs (decide_eq_true hcell) (Core.product_ready h)
  · refine State.guard_same (decide_eq_true hcell) ?_
    unfold Core.product
    simp only [ha]
  · refine State.guard_runs (decide_eq_true hcell) ?_
    unfold Core.product
    simp only [ha, hp]
  · refine State.guard_same (decide_eq_true hcell) ?_
    unfold Core.product
    simp only [ha, hp, if_pos hh]
  · refine State.guard_runs (decide_eq_true hcell) ?_
    unfold Core.product
    simp only [ha, hp, hh, if_pos hc, Bool.false_eq_true, if_false]
  · exact State.guard_runs (decide_eq_true hcell) (Core.product_upset h hx hb hs)
  · exact State.guard_runs (decide_eq_true hcell) (Core.product_struck h hx hb ht hs)

end Sys2Proof.Machine
end

section
/-!
SUPPORT. Stream actions: arming, tiles, retries and the two limits. Obligation O37.
-/
namespace Sys2Proof.Machine
open Sys2Proof

section
variable {c : Core} {d e : Nat} {r : RunAct} {p : Pass}

/-- What a unit does that runs an ARM or REARM not yet started, with no copy armed at its engine (R184, R186). -/
theorem Core.armAct_fresh {op image : Nat} (ha : c.active (.se d e) op = some r) (hs : r.started = false)
    (hg : (c.engine d e).armed = []) (hn : c.entry r.a.ctx tDesc (aEntry r.a.bits) ≠ 0)
    (hi : image = if op = 0x62 then c.entry r.a.ctx tDesc (aEntry r.a.bits) -
      fieldN (c.entry r.a.ctx tDesc (aEntry r.a.bits)) 0 8 + aBase r.a.bits else c.entry r.a.ctx tDesc (aEntry r.a.bits))
    (hf : c.armFault r.a.ctx d (aEntry r.a.bits) image = none) (hp : op = 0x62 → dPersist image = true)
    (he : c.armedElsewhere d e (aEntry r.a.bits) = false) :
    c.armAct d e op = if dPersist image then
        ({ c with engines := kset c.engines (d, e) { c.engine d e with
          armed := [{ desc := aEntry r.a.bits, image := image, pace := 0 }] } } : Core).startPass d e r.a.ctx (aEntry r.a.bits) image
      else c.startPass d e r.a.ctx (aEntry r.a.bits) image := by
  subst hi
  have hpersist : ¬ (op = 0x62 ∧ ¬ dPersist (if op = 0x62 then c.entry r.a.ctx tDesc (aEntry r.a.bits) -
      fieldN (c.entry r.a.ctx tDesc (aEntry r.a.bits)) 0 8 + aBase r.a.bits
      else c.entry r.a.ctx tDesc (aEntry r.a.bits)) = true) := fun h => h.2 (hp h.1)
  have hroom : ¬ 4 ≤ 0 := by decide
  unfold Core.armAct
  simp only [ha, hs, hg, List.find?_nil, if_neg hn, hf, if_neg hpersist, he, Bool.false_eq_true, if_false, List.length_nil,
    Option.isNone_none, true_and, if_neg hroom, List.filter_nil, List.nil_append]

/-- A tile is not moved while the pass is done, parked, waiting or complete. -/
theorem Core.tileStep_waits {ups : List Upset} (hp : c.passOf d e = some p) (hr : c.running (.se d e) = some r)
    (h : r.done = true ∨ p.parked.isSome = true ∨ p.copyWait.isSome = true ∨ p.asked ≠ [] ∨ passTiles p.image ≤ p.tile) :
    c.tileStep d e ups = c := by
  unfold Core.passOf at hp
  unfold Core.tileStep
  simp only [hp, hr]
  exact if_pos (by simpa [or_assoc] using h)

/-- A tile whose index and scales are there, with no injection armed on its way, goes to its data. -/
theorem Core.tileStep_data {p1 : Pass} {c1 : Core} (hp : c.passOf d e = some p) (hr : c.running (.se d e) = some r)
    (hd : r.done = false) (hk : p.parked = none) (hw : p.copyWait = none) (ha : p.asked = []) (ht : p.tile < passTiles p.image)
    (hi : c.indexPhase d e p = .ok (c1, p1)) (hs : p1.scale = 0) (hu : c1.pathUnarmed (.se d e)) :
    c.tileStep d e [] = (c1.setPass d e p1).dataPhase d e p1 := by
  unfold Core.passOf at hp
  unfold Core.tileStep
  simp only [hp, hr, hd, hk, hw, ha, hi, hs, Core.checks_quiet hu.1, Core.pathChecks_unarmed hu]
  exact if_neg (by simp [ht])

end

/-- Settles O37. -/
theorem streamActions : Obligations.StreamActions := by
  intro s d e r hv
  dsimp only
  refine ⟨fun image ha hs hg hi hn hf hp he => ?_, fun ha hs hg h0 => ?_, fun stored image ha hs hg hst hn hi hf hp he => ?_,
    fun q ha hg hq h0 hp => ?_, fun p ups hp hr h => ?_, fun p p1 c1 hp hr hd hk hw ha ht hi hs hu => ?_,
    fun p k c1 hp hk h3 hc hq => ?_, fun p hp hk hst => ?_, fun p k hp hk => ?_, fun v hv hw hx => ?_, fun v hv h => ?_⟩
  all_goals dsimp only [exec]
  · refine State.guard_runs hv ((Core.armAct_fresh ha hs hg (hi ▸ hn) (hi ▸ rfl) hf nofun he).trans (if_neg ?_))
    exact Bool.eq_false_iff.mp hp
  · refine State.guard_runs hv ?_
    unfold Core.armAct
    simp only [ha, hs, hg, h0, List.find?_nil, if_true, Bool.false_eq_true, if_false]
  · subst hst
    exact State.guard_runs hv ((Core.armAct_fresh ha hs hg hn hi hf (fun _ => hp) he).trans (if_pos hp))
  · refine State.guard_runs hv ?_
    unfold Core.disarmAct
    simp [ha, hg, hq, h0, hp]
  · exact State.guard_same hv (Core.tileStep_waits hp hr h)
  · exact State.guard_runs hv (Core.tileStep_data hp hr hd hk hw ha ht hi hs hu)
  · refine State.guard_runs hv ?_
    unfold Core.retry
    simp only [hp, hk, if_neg fun h : _ ∧ _ => h3 h.1, ← hc]
    cases hpo : c1.passOf d e with
    | none => rfl
    | some q => simp only [hq q hpo]
  · refine State.guard_same hv ?_
    unfold Core.retry
    simp only [hp, hk, hst, and_self, if_true]
  · refine State.guard_runs hv ?_
    unfold Core.giveUp
    simp only [hp, hk]
  · exact State.guard_runs hv (if_pos (by simp [hw, hx]))
  · exact State.guard_same hv (if_neg (by simpa [Decidable.or_iff_not_imp_left] using h))

end Sys2Proof.Machine
end
